-- ==== Sys2Proof/Word.lean ====
section
/-! DEFINITION. The word types of the Skollail: the widths the spec fixes for registers, memory words and codes. -/

namespace Sys2Proof

/-- A scalar register, an address, a control register (R9, R191). -/
abbrev Word := BitVec 64
/-- One byte of memory (R9). -/
abbrev Byte := BitVec 8
/-- A vector register, 4,096 bits (R191). -/
abbrev Vec := BitVec 4096
/-- A mask register, 512 bits (R191). -/
abbrev Mask := BitVec 512
/-- A code of the fault-code space: class and cause (R11). -/
abbrev Code := BitVec 16
/-- A core of the device, 32 × tower + 4 × cluster + core within the cluster (R3). -/
abbrev CoreId := Fin 128
/-- A cluster of the device. -/
abbrev ClusterId := Fin 32
/-- A tower of the device. -/
abbrev TowerId := Fin 4

end Sys2Proof
end

