-- ==== Sys2Proof/Config.lean ====
section
/-! DEFINITION. What the spec leaves open: free values. Each is a constant without a body, so that nothing can be proved of
its value; a value that may differ from one time to the next is applied to the counter freeN of the state. -/

namespace Sys2Proof.Config

/-- Which of the two values a read or a register ends with where a group breaks R203 (R382; log 4). -/
opaque raceChoice : Nat → Bool
/-- The clks that pass with a step (log 5). -/
opaque stepClks : Nat → Nat
/-- The residual of an analog reading is this value less one (R117: |d| at most 1; log 9). -/
opaque residual : Nat → Fin 3
/-- The trim that calibration sets (R124; log 9). -/
opaque trim : Nat → BitVec 6
/-- A fast transcendental before its bound is applied: function, format, operand (R111; log 10). -/
opaque fastValue : Nat → Nat → BitVec 32 → BitVec 32
/-- OF, UF and NX of a fast transcendental beyond what R111 gives (log 10). -/
opaque fastFlags : Nat → Nat → BitVec 32 → BitVec 6
/-- The tile-table entry that a host page-table routine answers: ROUT, the root of the host page table, the host virtual address (R54, R57;
log 11). -/
opaque hostWalk : BitVec 8 → Word → Word → Word
/-- The bits of a KIND 3 leaf that a handover writes beyond V, KIND and OWN: R58 gives none (log 11). -/
opaque hostLeaf : Word → BitVec 58
/-- DTID of the completion record of a copy whose destination descriptor was not read (R315 gives none; log 23). -/
opaque unreadDtid : Nat → BitVec 16
/-- SRC of the statistics record of a soft error (R405 gives none; log 23). -/
opaque softErrorSource : BitVec 8
/-- The port on which a packet for a device leaves (R168; log 18). -/
opaque route : BitVec 16 → Fin 16
/-- The port on which a packet for a device leaves by the up-down order of the pod's spanning tree (R168; log 18). -/
opaque treeRoute : BitVec 16 → Fin 16
/-- Whether a broadcast of a device that arrives on a port goes on to another port (R168, R172; log 18). -/
opaque spread : BitVec 16 → Nat → Nat → Bool
/-- The plane that a pass has reached when a failure found elsewhere restarts it (R420, R440; log 37). -/
opaque restartPlane : Nat → Nat
/-- How many elements beyond one a Churn copies before another agent's step comes in between (log 3). -/
opaque copyChunk : Nat → Nat
/-- The certificate of the identity key (R375; log 12). -/
opaque certificate : Nat → BitVec 8
/-- A signature by the identity key over a report (R375; log 12). -/
opaque signature : List (BitVec 8) → BitVec 768
/-- The digest and version of the firmware image that runs (R374; log 12). -/
opaque firmwareDigest : BitVec 384
opaque firmwareVersion : BitVec 32
/-- Telemetry, whose layout the spec does not give (R372; log 19). -/
opaque telemetry : Nat → Word
/-- A value stored by a step whose effect the spec leaves undefined after an edited save area (R355; log 17). -/
opaque undefinedGroup : Nat → Word
/-- The code of a pod-level record that is placed on a tower whose RENN bit is 0 (R369; log 24). -/
opaque rennetAbsent : BitVec 16
/-- The sequence number, destination kind and channel that a statistics record names for a query refused with NAK (R151;
log 24). -/
opaque queryNak : Nat → BitVec 20
/-- A byte of a frame as a new key of its slot decrypts it (R417; log 12). -/
opaque deciphered : Nat → BitVec 8
/-- A byte that a host store leaves in a frame of a range with OWN = 0: R59 and R428 give no effect (log 26). -/
opaque hostByte : Nat → BitVec 8
/-- The record address that a record of another device runs with: the request does not carry it (R181; log 25). -/
opaque foreignRecord : Nat → Word

end Sys2Proof.Config
end

