-- ==== Sys2Proof/Machine/Bits.lean ====
section
/-! DEFINITION. Bit fields, byte order and small list operations that the meanings share. -/

namespace Sys2Proof.Machine

/-- Bits [lo + len - 1 : lo] of x as a number. -/
def fld {n : Nat} (x : BitVec n) (lo len : Nat) : Nat := x.toNat / 2 ^ lo % 2 ^ len

/-- x with bits [lo + len - 1 : lo] replaced by v. -/
def setFld {n : Nat} (x : BitVec n) (lo len v : Nat) : BitVec n :=
  BitVec.ofNat n (x.toNat - fld x lo len * 2 ^ lo + v % 2 ^ len * 2 ^ lo)

/-- Bit i of x. -/
def bit {n : Nat} (x : BitVec n) (i : Nat) : Bool := x.getLsbD i

/-- x with bit i set to b. -/
def setBit {n : Nat} (x : BitVec n) (i : Nat) (b : Bool) : BitVec n := setFld x i 1 b.toNat

/-- The number that n low bits of x hold in two's complement. -/
def sextNat (len x : Nat) : Int :=
  let y := x % 2 ^ len
  if 2 * y < 2 ^ len then (y : Int) else (y : Int) - (2 ^ len : Nat)

/-- A number modulo 2^n. -/
def wrap (n : Nat) (x : Int) : BitVec n := BitVec.ofInt n x

/-- The little-endian value of bytes (R9). -/
def leNat : List Byte → Nat
  | [] => 0
  | b :: bs => b.toNat + 256 * leNat bs

/-- n bytes of x, least significant first (R9). -/
def leBytes : Nat → Nat → List Byte
  | 0, _ => []
  | n + 1, x => BitVec.ofNat 8 x :: leBytes n (x / 256)

/-- 2^w-bit lane e of a register (R256, R267): bits [(e + 1) × w - 1 : e × w]. -/
def lane (x : Vec) (w e : Nat) : Nat := fld x (e * w) w

/-- x with lane e of w bits replaced by v. -/
def setLane (x : Vec) (w e v : Nat) : Vec := setFld x (e * w) w v

/-- Ceil(x / 2^k) (R43). -/
def ceilShift (x k : Nat) : Nat := (x + 2 ^ k - 1) / 2 ^ k

/-- Number of ones. -/
def popCount (n x : Nat) : Nat :=
  match n with
  | 0 => 0
  | n + 1 => x % 2 + popCount n (x / 2)

/-- The list without its first element that satisfies p. -/
def eraseFirst {α : Type} (p : α → Bool) : List α → List α
  | [] => []
  | a :: as => if p a then as else a :: eraseFirst p as

/-- f folded over 0, 1, …, n - 1. -/
def upTo {σ : Type} (n : Nat) (f : Nat → σ → σ) (s : σ) : σ :=
  match n with
  | 0 => s
  | n + 1 => f n (upTo n f s)

/-- The register whose lane e is f e, for n lanes of w bits. -/
def lanes (n w : Nat) (f : Nat → Nat) : Vec :=
  BitVec.ofNat 4096 (upTo n (fun i acc => acc + f i % 2 ^ w * 2 ^ (i * w)) 0)

end Sys2Proof.Machine
end

