-- ==== Sys2Proof/Syntax.lean ====
section
/-! DEFINITION. The abstract syntax of the Skollail: the fields of the eight slot formats (R190), and Instr with one
constructor for every step of the opcode table: the slot instructions, the curd-program and walker instructions,
and the device's own events. An event has no fields: the
occasion it comes with (which core, tower or port, what value arrives) stands in the state (Machine/State.lean). The
constructors with fields come first, since the compiler numbers at most 245 of them. -/

namespace Sys2Proof

/-- Format T (R190): d, a, b and the guard g; fn belongs to the instruction or stands beside the fields. -/
structure OpT where
  d : BitVec 6
  a : BitVec 6
  b : BitVec 6
  g : BitVec 4
  deriving DecidableEq, Repr

/-- Format I (R190). -/
structure OpI where
  d : BitVec 6
  a : BitVec 6
  imm : BitVec 9
  g : BitVec 4
  deriving DecidableEq, Repr

/-- Format J (R190); the control-register instructions hold the register number in imm[11:0]. -/
structure OpJ where
  d : BitVec 6
  imm : BitVec 19
  deriving DecidableEq, Repr

/-- Format B (R190). -/
structure OpB where
  p : BitVec 4
  neg : BitVec 1
  off : BitVec 20
  deriving DecidableEq, Repr

/-- Format BS (R190). -/
structure OpBS where
  a : BitVec 6
  off : BitVec 19
  deriving DecidableEq, Repr

/-- Format H (R190): a tensor operand (R220) and a register d. -/
structure OpH where
  d : BitVec 6
  h : BitVec 5
  cb : BitVec 6
  zm : BitVec 4
  g : BitVec 4
  deriving DecidableEq, Repr

/-- Format XC (R190). -/
structure OpXC where
  d : BitVec 6
  a : BitVec 6
  sf : BitVec 6
  df : BitVec 6
  sat : BitVec 1
  deriving DecidableEq, Repr

/-- Format MR (R190): pp is P - 1 and mm is M - 1. -/
structure OpMR where
  z : BitVec 4
  sp : BitVec 4
  pp : BitVec 4
  mm : BitVec 4
  h : BitVec 5
  g : BitVec 4
  deriving DecidableEq, Repr

/-- One constructor for each row of the opcode table. -/
inductive Instr where
  /-- c.br (R226): Branches by a bundle offset when the named predicate, optionally negated, is 1. -/
  | cBr (o : OpB)
  /-- c.bsz (R226): Branches by a bundle offset when the scalar register is zero. -/
  | cBsz (o : OpBS)
  /-- c.bsnz (R226): Branches by a bundle offset when the scalar register is non-zero. -/
  | cBsnz (o : OpBS)
  /-- c.call (R227): Writes the link to the next bundle into a scalar register, pushes the call-return stack and jumps by an offset. -/
  | cCall (o : OpJ)
  /-- c.jr (R227): Jumps to the bundle address held in a scalar register. -/
  | cJr (o : OpT)
  /-- c.callr (R227): Jumps to a register target and writes the link to the next bundle. -/
  | cCallr (o : OpT)
  /-- c.ret (R227): Jumps to a register target using the call-return prediction stack for timing. -/
  | cRet (o : OpT)
  /-- c.loop (R229): Pushes a counted-loop entry that runs a body N + E times and writes the stage predicates. -/
  | cLoop (o : OpI)
  /-- c.nest (R231): Pushes a nest entry that runs a body over nest dimensions, advancing two scalar cursors by carry strides. -/
  | cNest (o : OpI)
  /-- c.waitb (R233): Waits until a transaction barrier's PHASE differs from the expected phase, then returns ERR with a full acquire. -/
  | cWaitb (o : OpT)
  /-- c.waitr (R233): Waits until a 4-byte word at its L2 home differs from a given old value and returns it. -/
  | cWaitr (o : OpT)
  /-- c.waitq (R233): Waits until a selected queue holds an element and returns the element count. -/
  | cWaitq (o : OpT)
  /-- c.waitt (R233): Waits until PODTIME reaches a given value and returns PODTIME. -/
  | cWaitt (o : OpT)
  /-- c.rcr (R236): Reads a control register into a scalar after every earlier bundle has committed. -/
  | cRcr (o : OpJ)
  /-- c.wcr (R236): Writes a control register under the field access rules at commit, serialising the front end. -/
  | cWcr (o : OpJ)
  /-- c.scr (R236): Sets RW bits of a control register where the source is 1. -/
  | cScr (o : OpJ)
  /-- c.ccr (R236): Clears RW and W1C bits of a control register where the source is 1. -/
  | cCcr (o : OpJ)
  /-- c.spop (R238): Pops the head statistics record into four scalar registers, or zeros when the queue is empty. -/
  | cSpop (o : OpT)
  /-- c.trap (R240): Enters the trap handler with TARG and TRET set, or faults when traps are disabled or nested. -/
  | cTrap (o : OpJ)
  /-- c.brk (R241): At commit stops issue and reports NUM to the debug agent when the context's DBG bit is set. -/
  | cBrk (o : OpJ)
  /-- c.halt (R241): Performs a full release and ends the continuation with the halt code, or ends a save or restore sequence in sequence mode. -/
  | cHalt (o : OpT)
  /-- a.add (R244): Writes the wrapping sum of two scalars. -/
  | aAdd (o : OpT)
  /-- a.sub (R244): Writes the wrapping difference of two scalars. -/
  | aSub (o : OpT)
  /-- a.and (R244): Writes the bitwise AND of two scalars. -/
  | aAnd (o : OpT)
  /-- a.or (R244): Writes the bitwise OR of two scalars. -/
  | aOr (o : OpT)
  /-- a.xor (R244): Writes the bitwise XOR of two scalars. -/
  | aXor (o : OpT)
  /-- a.andn (R244): Writes a AND NOT b. -/
  | aAndn (o : OpT)
  /-- a.orn (R244): Writes a OR NOT b. -/
  | aOrn (o : OpT)
  /-- a.xnor (R244): Writes NOT (a XOR b). -/
  | aXnor (o : OpT)
  /-- a.shl (R244): Shifts a scalar left by b[5:0]. -/
  | aShl (o : OpT)
  /-- a.shr (R244): Shifts a scalar logically right by b[5:0]. -/
  | aShr (o : OpT)
  /-- a.sra (R244): Shifts a scalar arithmetically right by b[5:0]. -/
  | aSra (o : OpT)
  /-- a.ror (R244): Rotates a scalar right by b[5:0]. -/
  | aRor (o : OpT)
  /-- a.min (R244): Writes the signed minimum of two scalars. -/
  | aMin (o : OpT)
  /-- a.max (R244): Writes the signed maximum of two scalars. -/
  | aMax (o : OpT)
  /-- a.minu (R244): Writes the unsigned minimum of two scalars. -/
  | aMinu (o : OpT)
  /-- a.maxu (R244): Writes the unsigned maximum of two scalars. -/
  | aMaxu (o : OpT)
  /-- a.adds (R244): Writes a plus b shifted left by fn. -/
  | aAdds (o : OpT) (sh : BitVec 3)
  /-- a.mul (R245): Writes the low 64 bits of the product. -/
  | aMul (o : OpT)
  /-- a.mulh (R245): Writes the high 64 bits of the signed 128-bit product. -/
  | aMulh (o : OpT)
  /-- a.mulhu (R245): Writes the high 64 bits of the unsigned 128-bit product. -/
  | aMulhu (o : OpT)
  /-- a.div (R245): Writes the signed quotient truncated toward zero, with defined division-by-zero results. -/
  | aDiv (o : OpT)
  /-- a.divu (R245): Writes the unsigned quotient. -/
  | aDivu (o : OpT)
  /-- a.rem (R245): Writes the signed remainder with the sign of the dividend. -/
  | aRem (o : OpT)
  /-- a.remu (R245): Writes the unsigned remainder. -/
  | aRemu (o : OpT)
  /-- a.ceq (R246): Writes a predicate: x equals y. -/
  | aCeq (o : OpT)
  /-- a.cne (R246): Writes a predicate: x differs from y. -/
  | aCne (o : OpT)
  /-- a.clt (R246): Writes a predicate: x less than y, signed. -/
  | aClt (o : OpT)
  /-- a.cge (R246): Writes a predicate: x at least y, signed. -/
  | aCge (o : OpT)
  /-- a.cltu (R246): Writes a predicate: x less than y, unsigned. -/
  | aCltu (o : OpT)
  /-- a.cgeu (R246): Writes a predicate: x at least y, unsigned. -/
  | aCgeu (o : OpT)
  /-- a.ctst (R246): Writes a predicate: x AND y is non-zero. -/
  | aCtst (o : OpT)
  /-- a.cntst (R246): Writes a predicate: x AND y is zero. -/
  | aCntst (o : OpT)
  /-- a.sel (R246): Selects one of two scalars by the predicate named in g. -/
  | aSel (o : OpT)
  /-- a.clz (R246): Counts leading zeros of a scalar. -/
  | aClz (o : OpT)
  /-- a.ctz (R246): Counts trailing zeros of a scalar. -/
  | aCtz (o : OpT)
  /-- a.popc (R246): Counts the ones of a scalar. -/
  | aPopc (o : OpT)
  /-- a.pand (R246): Writes the AND of two predicates. -/
  | aPand (o : OpT)
  /-- a.por (R246): Writes the OR of two predicates. -/
  | aPor (o : OpT)
  /-- a.pxor (R246): Writes the XOR of two predicates. -/
  | aPxor (o : OpT)
  /-- a.pandn (R246): Writes p[a] AND NOT p[b]. -/
  | aPandn (o : OpT)
  /-- a.addi (R247): Adds a sign-extended 9-bit immediate. -/
  | aAddi (o : OpI)
  /-- a.andi (R247): ANDs a sign-extended immediate. -/
  | aAndi (o : OpI)
  /-- a.ori (R247): ORs a sign-extended immediate. -/
  | aOri (o : OpI)
  /-- a.xori (R247): XORs a sign-extended immediate. -/
  | aXori (o : OpI)
  /-- a.shli (R247): Shifts left by an immediate amount. -/
  | aShli (o : OpI)
  /-- a.shri (R247): Shifts logically right by an immediate amount. -/
  | aShri (o : OpI)
  /-- a.srai (R247): Shifts arithmetically right by an immediate amount. -/
  | aSrai (o : OpI)
  /-- a.ceqi (R247): Writes a predicate: scalar equals immediate. -/
  | aCeqi (o : OpI)
  /-- a.clti (R247): Writes a predicate: scalar less than immediate, signed. -/
  | aClti (o : OpI)
  /-- a.cltui (R247): Writes a predicate: scalar less than sign-extended immediate, unsigned. -/
  | aCltui (o : OpI)
  /-- a.movi (R247): Writes a sign-extended 19-bit immediate. -/
  | aMovi (o : OpJ)
  /-- a.cat (R247): Shifts the destination left by 19 and ORs in an unsigned immediate. -/
  | aCat (o : OpJ)
  /-- l.lde (R255): Loads one element into a scalar register, sign- or zero-extended by format. -/
  | lLde (o : OpH)
  /-- l.ldei (R255): Loads one element with the invariant-load flag. -/
  | lLdei (o : OpH)
  /-- l.ldv (R256): Loads a row of elements along dimension 0 into a vector register. -/
  | lLdv (o : OpH)
  /-- l.ldvi (R256): Loads a row with the invariant-load flag. -/
  | lLdvi (o : OpH)
  /-- l.pf (R257): Prefetches the element's line into L1. -/
  | lPf (o : OpH)
  /-- l.pf.l2 (R257): Prefetches the element's line into L2 only. -/
  | lPfL2 (o : OpH)
  /-- l.pf.tile (R257): Prefetches all lines of the element's tile into L2. -/
  | lPfTile (o : OpH)
  /-- l.gpop (R261): Pops the next gathered row into a vector register, provisionally. -/
  | lGpop (o : OpT)
  /-- l.hld (R258): Loads a tensor descriptor into a handle register and zeroes its cursor. -/
  | lHld (o : OpT)
  /-- l.adv (R260): Sets or adds to one cursor coordinate of a handle. -/
  | lAdv (o : OpT)
  /-- w.ste (R255): Stores one element from a scalar register through the restart gate. -/
  | wSte (o : OpH)
  /-- w.stv (R256): Stores a row of elements from a vector register as one gate entry. -/
  | wStv (o : OpH)
  /-- w.aadd (R262): Atomic add at the L2 home under the declared use. -/
  | wAadd (o : OpT) (use : BitVec 3)
  /-- w.aand (R262): Atomic AND at the L2 home. -/
  | wAand (o : OpT) (use : BitVec 3)
  /-- w.aor (R262): Atomic OR at the L2 home. -/
  | wAor (o : OpT) (use : BitVec 3)
  /-- w.axor (R262): Atomic XOR at the L2 home. -/
  | wAxor (o : OpT) (use : BitVec 3)
  /-- w.amin (R262): Atomic signed minimum at the L2 home. -/
  | wAmin (o : OpT) (use : BitVec 3)
  /-- w.amax (R262): Atomic signed maximum at the L2 home. -/
  | wAmax (o : OpT) (use : BitVec 3)
  /-- w.aminu (R262): Atomic unsigned minimum at the L2 home. -/
  | wAminu (o : OpT) (use : BitVec 3)
  /-- w.amaxu (R262): Atomic unsigned maximum at the L2 home. -/
  | wAmaxu (o : OpT) (use : BitVec 3)
  /-- w.aswp (R262): Atomic swap at the L2 home. -/
  | wAswp (o : OpT) (use : BitVec 3)
  /-- w.acas (R262): Atomic compare-and-swap at the L2 home. -/
  | wAcas (o : OpT) (use : BitVec 3)
  /-- w.ard (R262): Atomic read at the L2 home, or speculative read from L1. -/
  | wArd (o : OpT) (use : BitVec 3)
  /-- w.frel (R263): Release fence: performs a full release. -/
  | wFrel (o : OpT)
  /-- w.facq (R263): Acquire fence: performs a full acquire. -/
  | wFacq (o : OpT)
  /-- w.fall (R263): Full fence: full release then full acquire. -/
  | wFall (o : OpT)
  /-- w.acq (R264): Acquires a region binding entry exclusive or shared and returns EPOCH. -/
  | wAcq (o : OpI)
  /-- w.rel (R264): Releases a held region binding entry in its recorded mode. -/
  | wRel (o : OpI)
  /-- w.bind (R265): Installs a region binding entry in the table and the core's copy. -/
  | wBind (o : OpT)
  /-- w.racq (R266): Requests a range acquire from the handover walker and returns its status. -/
  | wRacq (o : OpT)
  /-- w.rrel (R266): Performs a full release and requests a range release from the handover walker. -/
  | wRrel (o : OpT)
  /-- v.fadd (R272): Float add per element, rounded once. -/
  | vFadd (o : OpT) (ty : BitVec 3)
  /-- v.fsub (R272): Float subtract per element. -/
  | vFsub (o : OpT) (ty : BitVec 3)
  /-- v.fmul (R272): Float multiply per element. -/
  | vFmul (o : OpT) (ty : BitVec 3)
  /-- v.fma (R272): Fused multiply-add into the destination per element. -/
  | vFma (o : OpT) (ty : BitVec 3)
  /-- v.fnma (R272): Negated fused multiply-add into the destination. -/
  | vFnma (o : OpT) (ty : BitVec 3)
  /-- v.fmax (R272): Float maximum per element. -/
  | vFmax (o : OpT) (ty : BitVec 3)
  /-- v.fmin (R272): Float minimum per element. -/
  | vFmin (o : OpT) (ty : BitVec 3)
  /-- v.fceq (R273): Float equality compare into a mask. -/
  | vFceq (o : OpT) (ty : BitVec 3)
  /-- v.fclt (R273): Float less-than compare into a mask. -/
  | vFclt (o : OpT) (ty : BitVec 3)
  /-- v.fcle (R273): Float less-or-equal compare into a mask. -/
  | vFcle (o : OpT) (ty : BitVec 3)
  /-- v.fabs (R274): Clears the sign bit of each element. -/
  | vFabs (o : OpT) (ty : BitVec 3)
  /-- v.fneg (R274): Inverts the sign bit of each element. -/
  | vFneg (o : OpT) (ty : BitVec 3)
  /-- v.xscl (R280): Computes the E8M0 shared scales of MX blocks or an SA segment. -/
  | vXscl (o : OpT) (ty : BitVec 3)
  /-- v.add (R275): Wrapping integer add per element. -/
  | vAdd (o : OpT) (ty : BitVec 3)
  /-- v.sub (R275): Wrapping integer subtract per element. -/
  | vSub (o : OpT) (ty : BitVec 3)
  /-- v.mul (R275): Low bits of the integer product per element. -/
  | vMul (o : OpT) (ty : BitVec 3)
  /-- v.adds (R275): Saturating signed add per element. -/
  | vAdds (o : OpT) (ty : BitVec 3)
  /-- v.subs (R275): Saturating signed subtract per element. -/
  | vSubs (o : OpT) (ty : BitVec 3)
  /-- v.min (R275): Signed integer minimum per element. -/
  | vMin (o : OpT) (ty : BitVec 3)
  /-- v.max (R275): Signed integer maximum per element. -/
  | vMax (o : OpT) (ty : BitVec 3)
  /-- v.and (R275): Bitwise AND per element. -/
  | vAnd (o : OpT) (ty : BitVec 3)
  /-- v.or (R275): Bitwise OR per element. -/
  | vOr (o : OpT) (ty : BitVec 3)
  /-- v.xor (R275): Bitwise XOR per element. -/
  | vXor (o : OpT) (ty : BitVec 3)
  /-- v.shl (R275): Left shift per element. -/
  | vShl (o : OpT) (ty : BitVec 3)
  /-- v.sra (R275): Arithmetic right shift per element. -/
  | vSra (o : OpT) (ty : BitVec 3)
  /-- v.shr (R275): Logical right shift per element. -/
  | vShr (o : OpT) (ty : BitVec 3)
  /-- v.ceq (R273): Integer equality compare into a mask. -/
  | vCeq (o : OpT) (ty : BitVec 3)
  /-- v.clt (R273): Signed integer less-than compare into a mask. -/
  | vClt (o : OpT) (ty : BitVec 3)
  /-- v.kand (R276): ANDs two mask registers. -/
  | vKand (o : OpT)
  /-- v.kor (R276): ORs two mask registers. -/
  | vKor (o : OpT)
  /-- v.kxor (R276): XORs two mask registers. -/
  | vKxor (o : OpT)
  /-- v.kandn (R276): Writes k[a] AND NOT k[b]. -/
  | vKandn (o : OpT)
  /-- v.rsum (R277): Float sum of the elements by the fixed ReduceTree order. -/
  | vRsum (o : OpT) (ty : BitVec 3)
  /-- v.rmax (R277): Float maximum over the elements. -/
  | vRmax (o : OpT) (ty : BitVec 3)
  /-- v.rmin (R277): Float minimum over the elements. -/
  | vRmin (o : OpT) (ty : BitVec 3)
  /-- v.risum (R277): Wrapping 64-bit sum of sign-extended integer elements. -/
  | vRisum (o : OpT) (ty : BitVec 3)
  /-- v.perm (R278): Permutes elements by an index vector. -/
  | vPerm (o : OpT) (ty : BitVec 3)
  /-- v.bcst (R278): Broadcasts a scalar into every element. -/
  | vBcst (o : OpT) (ty : BitVec 3)
  /-- v.slide (R278): Slides elements by a signed scalar amount, filling with zero. -/
  | vSlide (o : OpT) (ty : BitVec 3)
  /-- v.exp2r (R279): Reproducible exp2 per element. -/
  | vExp2r (o : OpT) (ty : BitVec 3)
  /-- v.exp2f (R279): Fast exp2 per element. -/
  | vExp2f (o : OpT) (ty : BitVec 3)
  /-- v.log2r (R279): Reproducible log2 per element. -/
  | vLog2r (o : OpT) (ty : BitVec 3)
  /-- v.log2f (R279): Fast log2 per element. -/
  | vLog2f (o : OpT) (ty : BitVec 3)
  /-- v.rcpr (R279): Reproducible reciprocal per element. -/
  | vRcpr (o : OpT) (ty : BitVec 3)
  /-- v.rcpf (R279): Fast reciprocal per element. -/
  | vRcpf (o : OpT) (ty : BitVec 3)
  /-- v.rsqr (R279): Reproducible reciprocal square root per element. -/
  | vRsqr (o : OpT) (ty : BitVec 3)
  /-- v.rsqf (R279): Fast reciprocal square root per element. -/
  | vRsqf (o : OpT) (ty : BitVec 3)
  /-- v.tanhr (R279): Reproducible tanh per element. -/
  | vTanhr (o : OpT) (ty : BitVec 3)
  /-- v.tanhf (R279): Fast tanh per element. -/
  | vTanhf (o : OpT) (ty : BitVec 3)
  /-- v.sinr (R279): Reproducible sin(2πx) per element. -/
  | vSinr (o : OpT) (ty : BitVec 3)
  /-- v.sinf (R279): Fast sin(2πx) per element. -/
  | vSinf (o : OpT) (ty : BitVec 3)
  /-- v.cosr (R279): Reproducible cos(2πx) per element. -/
  | vCosr (o : OpT) (ty : BitVec 3)
  /-- v.cosf (R279): Fast cos(2πx) per element. -/
  | vCosf (o : OpT) (ty : BitVec 3)
  /-- x.cvt (R281): Converts elements from one format to another under XMODE.RM. -/
  | xCvt (o : OpXC)
  /-- x.bpt (R286): Writes one quarter of an SA segment as bit planes from INT8 codes, as one store. -/
  | xBpt (o : OpH)
  /-- x.trr (R287): Transposes a register viewed as rows by columns. -/
  | xTrr (o : OpT)
  /-- x.trc (R287): One transpose stage exchanging blocks between two registers. -/
  | xTrc (o : OpT)
  /-- x.mxq (R283): Encodes 128 FP32 elements into MX elements under given block scales. -/
  | xMxq (o : OpT)
  /-- x.mxd (R284): Decodes MX elements with their scales into FP32. -/
  | xMxd (o : OpT)
  /-- x.saq (R285): Encodes 128 FP32 elements as array-segment codes under one scale. -/
  | xSaq (o : OpT)
  /-- x.pack (R287): Keeps the low halves of the elements of two registers. -/
  | xPack (o : OpT)
  /-- x.unpk (R287): Interleaves half of two registers into wider elements. -/
  | xUnpk (o : OpT)
  /-- x.vtos (R288): Moves one 64-bit lane of a vector into a scalar. -/
  | xVtos (o : OpT)
  /-- x.stov (R288): Moves a scalar into one 64-bit lane of a vector. -/
  | xStov (o : OpT)
  /-- m.run8 (R296): Runs one matrix pass with INT8 weights over the activation cursor. -/
  | mRun8 (o : OpMR)
  /-- m.run4 (R296): Runs one matrix pass with INT4 weights. -/
  | mRun4 (o : OpMR)
  /-- m.runt (R296): Runs one matrix pass with ternary weights. -/
  | mRunt (o : OpMR)
  /-- m.win (R293): Sets output columns, z column groups and fold destination in MSETUP. -/
  | mWin (o : OpT)
  /-- m.wsc (R294): Names the activation-scale and weight-scale tensors and weight-scale row. -/
  | mWsc (o : OpT)
  /-- m.swap (R298): Requests exchange of active and shadow macro halves at issue + 8. -/
  | mSwap (o : OpT)
  /-- m.prom (R299): Promotes and closes the open promotion group. -/
  | mProm (o : OpT)
  /-- m.drain (R300): Reads narrow sums of one row and column group, optionally abandoning the group. -/
  | mDrain (o : OpT)
  /-- m.zrd (R301): Reads FP32 accumulator elements of one row and column group. -/
  | mZrd (o : OpT)
  /-- m.brd (R301): Reads FP16 bound companion elements. -/
  | mBrd (o : OpT)
  /-- m.zclr (R301): Clears selected column groups of a z register and its bounds. -/
  | mZclr (o : OpT)
  /-- m.fold (R302): Returns the fold word of the latest pass. -/
  | mFold (o : OpT)
  /-- m.clip (R302): Returns, and optionally clears, 64 column clip flags of one macro. -/
  | mClip (o : OpT)
  /-- m.cal (R303): Reads a column trim or requests a calibration slot. -/
  | mCal (o : OpT)
  /-- m.pin (R304): Writes MPIN, pinning a tier to fallback or setting NORED, and returns the old value. -/
  | mPin (o : OpT)
  /-- e.cpush (R319): Pushes a copy request, or opens a gather, on a Churn channel through the restart gate. -/
  | eCpush (o : OpT)
  /-- e.cpop (R320): Pops a completion record from a ring, claiming its slot until commit. -/
  | eCpop (o : OpT)
  /-- e.gidx (R321): Pushes one gather index, optionally closing the gather. -/
  | eGidx (o : OpT)
  /-- e.barm (R323): Arms a transaction barrier with bytes and arrivals and returns PHASE. -/
  | eBarm (o : OpT)
  /-- e.bexp (R323): Pushes an expect that adds bytes to a barrier's PEND. -/
  | eBexp (o : OpT)
  /-- e.barv (R323): Pushes an arrival at a barrier, a full release. -/
  | eBarv (o : OpT)
  /-- e.cq (R324): Sends a 256-index curd query to a table. -/
  | eCq (o : OpT)
  /-- e.cqi (R324): Sends an interpolating curd query with per-index fractions. -/
  | eCqi (o : OpT)
  /-- e.cqpop (R324): Pops a curd result element into a vector register. -/
  | eCqpop (o : OpT)
  /-- e.osend (R325): Sends an ordered-class Gengilon packet from a vector register. -/
  | eOsend (o : OpT)
  /-- e.usend (R325): Sends a request, response or bulk packet whose payload is read from memory. -/
  | eUsend (o : OpT)
  /-- e.csend (R325): Sends a circuit packet in a reserved slot. -/
  | eCsend (o : OpT)
  /-- e.recv (R326): Pops or peeks a hub receive queue and returns the slot address. -/
  | eRecv (o : OpT)
  /-- e.spawn (R327): Pushes a spawn of a record into its running instance. -/
  | eSpawn (o : OpT)
  /-- e.dec (R327): Pushes a predecessor decrement of a record. -/
  | eDec (o : OpT)
  /-- e.done (R328): Ends the running node with promotion, gather close and full release, and Rennet completes it. -/
  | eDone (o : OpT)
  /-- e.arm (R329): Stores a header address to GARM of a tower. -/
  | eArm (o : OpT)
  /-- e.prime (R329): Stores a header address to GPRIME of a tower. -/
  | ePrime (o : OpT)
  /-- q.nop (R344): Curd no-operation, optionally waiting. -/
  | qNop (w : BitVec 4)
  /-- q.arg (R345): Loads an argument word of this unit into a scalar register. -/
  | qArg (w : BitVec 4) (d : BitVec 3) (imm : BitVec 12)
  /-- q.addi (R345): Adds a sign-extended immediate to a scalar register. -/
  | qAddi (w : BitVec 4) (d a : BitVec 3) (imm : BitVec 12)
  /-- q.rd (R345): Reads a window row of 256 elements into a lane register. -/
  | qRd (w : BitVec 4) (d a : BitVec 3) (f : BitVec 3)
  /-- q.wr (R345): Writes a lane register as a window row. -/
  | qWr (w : BitVec 4) (a b : BitVec 3) (f : BitVec 3)
  /-- q.look (R345): Looks up a table at 256 indices, widened into a lane register. -/
  | qLook (w : BitVec 4) (d a b : BitVec 3)
  /-- q.lerp (R345): Interpolating table lookup at 256 index and fraction pairs. -/
  | qLerp (w : BitVec 4) (d a b : BitVec 3)
  /-- q.tld (R345): Loads a block of this unit's copy of a table from a lane register. -/
  | qTld (w : BitVec 4) (a b : BitVec 3) (imm : BitVec 12)
  /-- q.add (R345): Wrapping lane add. -/
  | qAdd (w : BitVec 4) (d a b : BitVec 3)
  /-- q.adds (R345): Saturating lane add setting CFLG.SAT. -/
  | qAdds (w : BitVec 4) (d a b : BitVec 3)
  /-- q.sub (R345): Wrapping lane subtract. -/
  | qSub (w : BitVec 4) (d a b : BitVec 3)
  /-- q.subs (R345): Saturating lane subtract. -/
  | qSubs (w : BitVec 4) (d a b : BitVec 3)
  /-- q.ext (R345): Extracts a zero-extended bit field of each lane. -/
  | qExt (w : BitVec 4) (d a : BitVec 3) (imm : BitVec 12)
  /-- q.exts (R345): Extracts a sign-extended bit field of each lane. -/
  | qExts (w : BitVec 4) (d a : BitVec 3) (imm : BitVec 12)
  /-- q.ins (R345): Shifts one lane register and ORs in another. -/
  | qIns (w : BitVec 4) (d a b : BitVec 3) (imm : BitVec 12)
  /-- q.loop (R345): Decrements a scalar and branches while unit 0's value is non-zero. -/
  | qLoop (w : BitVec 4) (a : BitVec 3) (imm : BitVec 12)
  /-- q.end (R347): Ends the curd program, flushes window lines and completes the node. -/
  | qEnd (w : BitVec 4)
  /-- wk.ldp (R55): Reads 8 bytes at a device physical address of the tower. -/
  | wkLdp (t s d : BitVec 5)
  /-- wk.ldh (R55): Reads 8 bytes at a host physical address uncached. -/
  | wkLdh (t s d : BitVec 5)
  /-- wk.done (R55): Installs a TTE for a request and replays its held accesses. -/
  | wkDone (t s d : BitVec 5)
  /-- wk.fail (R55): Ends a request with a fault code. -/
  | wkFail (t s d : BitVec 5)
  /-- wk.inv (R55): Performs an invalidation and retires when it is complete. -/
  | wkInv (t s d : BitVec 5)
  /-- wk.chn (R55): Copies 64 KiB through a hub Churn and returns its status. -/
  | wkChn (t s d : BitVec 5)
  /-- STALLED_WAIT_SATISFIED (R234): The awaited object's condition is met while a wait stalls the C queue in place, and the wait completes. -/
  | stalledWaitSatisfied
  /-- WAKE (R234): The awaited object's condition is met for a record in state 3, which is set to STATE 4 and placed in its ready queue. -/
  | wake
  /-- LOAD_DATA_RETURN (R254): Data of an outstanding load, l.hld or returning atomic arrive and land in the destination register. -/
  | loadDataReturn
  /-- ATOMIC_AT_HOME (R77): An atomic request is performed at its home slice in the line's coherence order. -/
  | atomicAtHome
  /-- COMBINE_BUFFER_FLUSH (R79): A slice applies buffered commutative atomics to the word after at most 32 clk. -/
  | combineBufferFlush
  /-- SYNC_ACQUIRE_AT_HOME (R71): An acquire request reaches the sync object's home and is granted or queued in arrival order. -/
  | syncAcquireAtHome
  /-- SYNC_RELEASE_AT_HOME (R70): A release reaches the home, clears XH or lowers SHR, and grants compatible waiters. -/
  | syncReleaseAtHome
  /-- SWAP_EXCHANGE (R129): At clk 8 of a swap the core's active and shadow halves exchange and SWPC advances. -/
  | swapExchange
  /-- PASS_END (R128): A pass's last plane updates NB, fixing NB and clip flags at E. -/
  | passEnd
  /-- PROMOTION (R120): A promotion group is promoted into its z register with its bound companion. -/
  | promotion
  /-- DRIFT_CAP_RISE (R423): After 2^24 clk without drift a tier's drift cap rises one step. -/
  | driftCapRise
  /-- COLUMN_RETRIM (R423): A weight column is retrimmed at least every 2^20 clk, or marked digital-only if it cannot be held. -/
  | columnRetrim
  /-- BACKGROUND_CALIBRATION (R124): In an idle clk of a tier the controller sets one weight column's trim. -/
  | backgroundCalibration
  /-- REBUILD_COMPLETE (R422): The rebuild of the failed tier's rows completes. -/
  | rebuildComplete
  /-- CHANGE_OF_ROLES (R422): At the first clk with no pass in flight the former parity tier takes the failed tier's K position. -/
  | changeOfRoles
  /-- BUNDLE_ENTRY (R152): The front end writes a bundle's eight slot words into the slot queues and checks their encodings. -/
  | bundleEntry
  /-- BUNDLE_COMMIT (R211): A bundle commits once its predecessor has committed and its entries have passed their fault points. -/
  | bundleCommit
  /-- RESULT_LAND (R206): An A, V or X result lands at issue + L and its busy state clears. -/
  | resultLand
  /-- RESTART_MARK_ESTABLISH (R213): A restart mark is established once earlier bundles committed and their accesses were checked, shadowing register state. -/
  | restartMarkEstablish
  /-- STAMP_DUE (R158): A STAMPED bundle issues when SCLK reaches its stamp, or takes a stamp fault on overrun. -/
  | stampDue
  /-- PRECISE_FAULT (R383): A bundle takes a precise fault once earlier bundles committed, saving state and writing the fault frame. -/
  | preciseFault
  /-- ENGINE_FAULT (R387): A fault found after an instruction's fault point stops all slot queues and ends the continuation with FKIND 2. -/
  | engineFault
  /-- REPLAY_ACK (R149): A consumer acknowledges an entry, which leaves the sender's replay window. -/
  | replayAck
  /-- REPLAY_NAK (R149): A consumer refuses an entry with NAK and the sender starts its back-off. -/
  | replayNak
  /-- RETRY_BACKOFF_EXPIRY (R150): The back-off after a NAK elapses and the sender resends the entry and all later ones. -/
  | retryBackoffExpiry
  /-- GARM_STORE (R21): A store to GARM arms the graph instance, or is rejected. -/
  | garmStore
  /-- GPRIME_STORE (R139): A store to GPRIME loads the instance's four lines into the launch cache. -/
  | gprimeStore
  /-- GCTL_RESUME (R396): GCTL operation 0 resumes a faulted continuation from its save. -/
  | gctlResume
  /-- GCTL_RESTART (R396): GCTL operation 1 restarts a faulted node from its start. -/
  | gctlRestart
  /-- GCTL_ABANDON (R396): GCTL operation 2 abandons an instance, stopping and discarding its records. -/
  | gctlAbandon
  /-- ABANDON_COMPLETE (R396): When nothing of an abandoned instance runs, a completion record with 0x0230 and a fault record are written. -/
  | abandonComplete
  /-- SUCCESSOR_DECREMENT (R24): An atomic decrement of a successor's PREDS at its L2 home, making it ready at zero. -/
  | successorDecrement
  /-- SPAWN_AT_HOME_RENNET (R327): The home Rennet adds a spawned record to its instance, making it ready if PREDS is zero. -/
  | spawnAtHomeRennet
  /-- DISPATCH (R142): Rennet dispatches the chosen ready record to an idle core or engine. -/
  | dispatch
  /-- STAGED_DISPATCH (R146): When the last staging copy completes Rennet dispatches the reserved record. -/
  | stagedDispatch
  /-- DISPLACEMENT_REQUEST (R144): A priority-3 record with no idle core makes Rennet request displacement of a lower-priority continuation. -/
  | displacementRequest
  /-- YIELD (R351): A displacement request is taken at a YIELD bundle and the save sequence runs. -/
  | yield
  /-- YIELD_TIMEOUT (R349): 256 clk after a request's arrival without a yield completing, a forced pre-emption starts. -/
  | yieldTimeout
  /-- PREEMPT_WRITEBACK_DONE (R359): Dirty lines of a pre-empted continuation are written back and Rennet requeues the record at the head. -/
  | preemptWritebackDone
  /-- FUSION_CHANGE (R138): At the first clk with no continuation in a cluster, Rennet changes its L1 fusion state. -/
  | fusionChange
  /-- POD_RECORD_FORWARD (R181): A pod-level record is sent to another device's Rennet as a request packet and run there. -/
  | podRecordForward
  /-- POD_RECORD_RESPONSE (R181): The completion of a forwarded record returns to the home Rennet, which decrements successors. -/
  | podRecordResponse
  /-- CHURN_PARAM_WRITE (R183): A host write to a Churn channel's PARAM register. -/
  | churnParamWrite
  /-- CHURN_GO_WRITE (R183): A host write to a Churn channel's GO register starts a copy with the last PARAM. -/
  | churnGoWrite
  /-- COPY_START (R313): A copy reaches the head of its channel, reads and checks its template, and runs its nest. -/
  | copyStart
  /-- COPY_COMPLETE (R314): A copy's bytes are performed, its record written, its barrier decremented and its node completed. -/
  | copyComplete
  /-- GRANULE_HOLD_RELEASE (R130): A granule held for a pass reading its shadow half is written when the pass ends. -/
  | granuleHoldRelease
  /-- GATHER_ROW_DELIVER (R322): A gathered row enters the core's gather data queue. -/
  | gatherRowDeliver
  /-- BARRIER_ARM (R85): An arm at a barrier's home opens it with PEND and ARRV, or is refused. -/
  | barrierArm
  /-- BARRIER_EXPECT (R85): An expect at the home adds bytes to PEND. -/
  | barrierExpect
  /-- BARRIER_ARRIVAL (R85): An arrival at the home decrements ARRV, possibly completing the phase. -/
  | barrierArrival
  /-- CURD_QUERY_ACCEPT (R338): A curd unit accepts or refuses a query and starts its row cycle. -/
  | curdQueryAccept
  /-- CURD_RESULT_DELIVER (R338): A query's result row enters the core's result queue. -/
  | curdResultDeliver
  /-- CURD_PROGRAM_START (R342): A dispatched curd program is loaded, checked, its window translated and flushed, and clock 0 begins. -/
  | curdProgramStart
  /-- CURD_REFRESH_WINDOW (R343): Every 4,096 clk of program clock the sequencer inserts a 160-clk refresh window. -/
  | curdRefreshWindow
  /-- WALKER_REQUEST (R53): The walker takes the next request and runs the routine for its kind. -/
  | walkerRequest
  /-- ROUTINE_TIMEOUT (R53): A routine running past 4,096 clk is stopped and its request failed. -/
  | routineTimeout
  /-- HOST_HANDOVER_ANSWER (R58): The host's answer to a handover signal arrives and the handover proceeds or fails. -/
  | hostHandoverAnswer
  /-- HANDOVER_TIMEOUT (R438): No host answer within HTMO ends the handover with 0x6010. -/
  | handoverTimeout
  /-- SLICE_RETIRE (R404): Firmware retires an L2 slice, moving its objects and advancing MAPV. -/
  | sliceRetire
  /-- SLICE_RESTORE (R404): Firmware restores a retired L2 slice, reversing the retirement. -/
  | sliceRestore
  /-- ECC_ERROR (R405): A corrected or uncorrectable error is found in an SRAM or DRAM word and corrected, refetched, rebuilt or poisoned. -/
  | eccError
  /-- SRAM_SCRUB (R372): Background scrub of macro and bank rows in idle row slots. -/
  | sramScrub
  /-- DRAM_PATROL_SCRUB (R372): Background patrol scrub of DRAM rows inside refresh windows. -/
  | dramPatrolScrub
  /-- DRAM_REFRESH (R372): DRAM refresh and adjacent-row mitigation. -/
  | dramRefresh
  /-- TELEMETRY (R372): Telemetry written into BAR 0 every 2^16 clk. -/
  | telemetry
  /-- PARITY_ROTATION_COPY (R373): In idle array clks the next tier's contents are copied into the parity tier. -/
  | parityRotationCopy
  /-- PARITY_ROTATION_SWITCH (R373): At a clk with no pass in flight the tier map switches and the parity role moves. -/
  | parityRotationSwitch
  /-- THERMAL_READING (R371): Every 4,096 clk all tiers are read and SMAX, skips and pacing applied. -/
  | thermalReading
  /-- POWER_PACING (R370): The power manager applies or lifts tower pacing by the 100 µs mean module power. -/
  | powerPacing
  /-- FLIT_RECEIVE (R429): A flit arrives on a link and is accepted in sequence, or discarded with a NAK. -/
  | flitReceive
  /-- LINK_NAK_RECEIVE (R429): A link NAK arrives and the sender replays from the named flit. -/
  | linkNakReceive
  /-- BEACON_SEND (R173): An output idle for 500 clk sends a beacon carrying its watermark. -/
  | beaconSend
  /-- ORDERED_INJECT (R171): The hub accepts an ordered packet into its injection queue and stamps it with PODTIME. -/
  | orderedInject
  /-- ORDERED_DELIVER (R174): The destination hub delivers held ordered packets with STAMP below D in key order. -/
  | orderedDeliver
  /-- CIRCUIT_SLOT_SEND (R178): A circuit packet leaves in its reserved slot. -/
  | circuitSlotSend
  /-- CIRCUIT_DELIVER (R178): The receiving hub writes a circuit packet into its ring at slot start + LAT. -/
  | circuitDeliver
  /-- RECEIVE_RING_WRITE (R179): The hub writes an arriving packet into its receive ring, or discards or refuses it. -/
  | receiveRingWrite
  /-- PORT_DOWN (R431): A port goes down after eight replays or lane-lock loss and retrains. -/
  | portDown
  /-- PORT_TRAINED (R368): A Gengilon port completes training and its GPORT or PKG bit is set. -/
  | portTrained
  /-- PORT_TRAINING_TIMEOUT (R431): Training not done within 50 ms reports 0x5003 and repeats every 100 ms. -/
  | portTrainingTimeout
  /-- WATERMARK_STALL (R432): A domain port without an accepted flit for 2,000 clk reports 0x5101. -/
  | watermarkStall
  /-- PACKET_HELD_TIMEOUT (R428): A packet held at one input port for 2^20 clk reports 0x5011. -/
  | packetHeldTimeout
  /-- POD_TIME_SLEW (R170): A device adds or omits a pod-time count to slew toward the reference. -/
  | podTimeSlew
  /-- POD_TIME_DRIFT (R434): Pod time drifting more than 2 clk clears PTIME and holds ordered sends. -/
  | podTimeDrift
  /-- LOCKSTEP_SIGNATURE_SEND (R163): At a frame's end the hub sends its CRC-64 signature to the partner. -/
  | lockstepSignatureSend
  /-- LOCKSTEP_SIGNATURE_RECEIVE (R163): The partner's signature arrives and is compared; a mismatch stops the partition. -/
  | lockstepSignatureReceive
  /-- LOCKSTEP_SIGNATURE_TIMEOUT (R163): A partner signature missing after 2^FLEN + 8,192 clk is a lockstep event. -/
  | lockstepSignatureTimeout
  /-- CXL_LINK_DOWN (R437): The CXL link goes down; in-flight host accesses fail and the link retrains. -/
  | cxlLinkDown
  /-- HOST_CXL_MEM_ACCESS (R59): A host CXL.mem access to device memory, poisoned for a range owned by the device. -/
  | hostCxlMemAccess
  /-- MGMT_REGISTER_WRITE (R186): A host write to a management register without behaviour of its own. -/
  | mgmtRegisterWrite
  /-- CTXWIN_WRITE (R51): A host write through CTXWIN updates a context-table entry and drops all cached copies. -/
  | ctxwinWrite
  /-- INVSEL_WRITE (R186): A host write to INVSEL requests an invalidation from every tower of the context. -/
  | invselWrite
  /-- CKILL_WRITE (R398): A host write to CKILL kills a context, advancing its generation and stopping its work. -/
  | ckillWrite
  /-- DOMAIN_WRITE (R433): Firmware writes the domain mask, adding or removing ports from ordered delivery. -/
  | domainWrite
  /-- KEY_WRITE (R417): A host write to a key slot's KEY loads the XTS keys and updates LOADED. -/
  | keyWrite
  /-- DBGC_GO (R241): Writing GO to DBGC resumes a core stopped at c.brk. -/
  | dbgcGo
  /-- RSLEN_WRITE (R186): A write to RSLEN raises the locked length of the routine store. -/
  | rslenWrite
  /-- ROUTINE_STORE_WRITE (R186): A host write through the routine store window, allowed only above LEN or to a zero entry word. -/
  | routineStoreWrite
  /-- ATTGO_WRITE (R375): Writing GO to ATTGO produces a signed attestation report over the nonce. -/
  | attgoWrite
  /-- PORTERR_CLEAR (R430): A W1C write clears the DOWNS or REPLAYS field of PORTERR. -/
  | porterrClear
  /-- RESET (R367): Device reset; the boot ROM verifies the firmware and bring-up starts. -/
  | reset
  /-- READY_BIT_SET (R368): Firmware sets a READY bit once its function and prerequisites are ready. -/
  | readyBitSet
  /-- CXL_COMPLETION_TIMEOUT (R428): A CXL.cache access of the device receives no completion from the host in time and is reported with 0x6001, failing the access as an uncorrectable error or a copy status. -/
  | cxlCompletionTimeout
  deriving DecidableEq, Repr

end Sys2Proof
end

