-- ==== Sys2Proof/Machine/Checks.lean ====
section
/-! DEFINITION. The encoding checks of R377 for one instruction: which code of class 0x01 a word with an assigned major
and fn takes, or none, and the registers that its word names as destinations (R381). -/

namespace Sys2Proof

/-- A code of class 0x01 (R377). -/
abbrev EncCode := BitVec 16

/-- What an instruction's definition says a 6-bit field is (R191). -/
inductive FieldKind where
  | scalar | vector | predicate | mask | handle | handleNZ | tile | quad | zero
  deriving DecidableEq, Repr

/-- A field of kind zero that is not zero (the row of 0x0104 of R377). -/
def FieldKind.zeroBroken (k : FieldKind) (x : BitVec 6) : Bool :=
  k = .zero && x ≠ 0

/-- A register field outside its kind (the row of 0x0106 of R377). -/
def FieldKind.rangeBroken (k : FieldKind) (x : BitVec 6) : Bool :=
  match k with
  | .scalar | .vector | .zero => false
  | .predicate | .tile => decide (16 ≤ x.toNat)
  | .mask => decide (8 ≤ x.toNat)
  | .handle => decide (32 ≤ x.toNat)
  | .handleNZ => decide (32 ≤ x.toNat) || x = 0
  | .quad => x = 0 || decide (60 < x.toNat)

/-- The two rows of R377 on the fields d, a and b, in their order. -/
def checkFields (kd ka kb : FieldKind) (d a b : BitVec 6) : Option EncCode :=
  if kd.zeroBroken d || ka.zeroBroken a || kb.zeroBroken b then some 0x0104
  else if kd.rangeBroken d || ka.rangeBroken a || kb.rangeBroken b then some 0x0106
  else none

def checkT (kd ka kb : FieldKind) (o : OpT) : Option EncCode := checkFields kd ka kb o.d o.a o.b
def checkI (kd ka : FieldKind) (o : OpI) : Option EncCode := checkFields kd ka .zero o.d o.a 0
def checkJ (kd : FieldKind) (o : OpJ) : Option EncCode := checkFields kd .zero .zero o.d 0 0

/-- A ty that the major's row of R198 admits. -/
def tyOk (ty : BitVec 3) (n : Nat) : Option EncCode := if ty.toNat < n then none else some 0x0103

/-- A lane guard has no meaning for x.vtos (R288). DEDUCED: the code is that of an unassigned field value (log 30). -/
def vtosGuard (g : BitVec 4) : Option EncCode := if 1 ≤ g.toNat ∧ g.toNat ≤ 7 then some 0x0103 else none

/-- c.loop (R229): LEN 0, then d[5:3]. -/
def loopCode (o : OpI) : Option EncCode :=
  if o.imm = 0 then some 0x0103 else if 8 ≤ o.d.toNat then some 0x0104 else none

/-- c.nest (R231): LEN 0, then the nest register and the cursor base. -/
def nestCode (o : OpI) : Option EncCode :=
  if o.imm = 0 then some 0x0103 else if 5 < o.d.toNat ∨ o.a = 63 then some 0x0106 else none

/-- The shift immediates: imm9[8:6] is zero (R247). -/
def shiftImmCode (o : OpI) : Option EncCode := if 64 ≤ o.imm.toNat then some 0x0104 else none

/-- w.acq: imm9[8:7] is zero (R264). -/
def acqCode (o : OpI) : Option EncCode := if 128 ≤ o.imm.toNat then some 0x0104 else none

/-- w.rel: d, imm9[6] and imm9[8:7] are zero (R264). -/
def relCode (o : OpI) : Option EncCode := if 64 ≤ o.imm.toNat ∨ o.d ≠ 0 then some 0x0104 else none

/-- A control-register number that R237 assigns. -/
def controlRegAssigned (n : Nat) : Bool :=
  n ≤ 0x019 || (0x01C ≤ n && n ≤ 0x023) || (0x028 ≤ n && n ≤ 0x02D) || (0x040 ≤ n && n ≤ 0x05F)

/-- The control-register use of J (R190, R236). -/
def controlRegCode (o : OpJ) : Option EncCode :=
  if 4096 ≤ o.imm.toNat then some 0x0104
  else if controlRegAssigned o.imm.toNat then none else some 0x0108

/-- c.trap and c.brk: d and imm19[18:16] are zero (R240). -/
def trapNumCode (o : OpJ) : Option EncCode := if o.d ≠ 0 ∨ 65536 ≤ o.imm.toNat then some 0x0104 else none

/-- A tensor operand through h0 keeps zm[1] zero (R250). -/
def tensorCode (o : OpH) : Option EncCode := if o.h = 0 ∧ o.zm.getLsbD 1 then some 0x0104 else none

/-- A vector access through h0 keeps zm[1] and W zero (R250). -/
def vectorAccessCode (o : OpH) : Option EncCode :=
  if o.h = 0 ∧ (o.zm.getLsbD 1 ∨ o.zm.getLsbD 2 ∨ o.zm.getLsbD 3) then some 0x0104 else none

/-- l.pf: the action in d (R257). -/
def prefetchCode (act : Nat) (o : OpH) : Option EncCode :=
  if o.d.toNat ≠ act then some 0x0103 else tensorCode o

/-- The uses that the major of an atomic admits (R262): maj is 0x08 to 0x12. -/
def atomicUseAdmitted (maj : Nat) (use : BitVec 3) : Bool :=
  match use.toNat with
  | 0 | 1 | 3 => true
  | 2 => maj ≤ 0x0F
  | 4 => maj = 0x08
  | 5 => maj = 0x11 || maj = 0x12
  | _ => false

/-- An atomic (R262): its use, then d of the uses com and quant, and b of w.ard. -/
def atomicCode (maj : Nat) (o : OpT) (use : BitVec 3) : Option EncCode :=
  if !atomicUseAdmitted maj use then some 0x0103
  else if (use = 2 ∧ o.d ≠ 0) ∨ (use = 4 ∧ 16 ≤ o.d.toNat) ∨ (maj = 0x12 ∧ o.b ≠ 0) then some 0x0104
  else none

/-- A code of R87 that sf and df of x.cvt admit: every listed code but SA8, SA4 and SA2 (R281). -/
def cvtFormat (c : BitVec 6) : Bool :=
  let n := c.toNat
  n ≤ 0x09 || (0x10 ≤ n && n ≤ 0x17) || (0x30 ≤ n && n ≤ 0x35)

/-- x.cvt: sf and df (R281). -/
def cvtCode (o : OpXC) : Option EncCode := if cvtFormat o.sf && cvtFormat o.df then none else some 0x0103

/-- A run: the split point, then the handle (R295). -/
def runCode (o : OpMR) : Option EncCode :=
  if 11 ≤ o.sp.toNat then some 0x0103 else if o.h = 0 then some 0x0106 else none

/-- q.rd: the width and sign field f (R345). -/
def curdWidthCode (f : BitVec 3) : Option EncCode :=
  if f = 0 ∨ f = 1 ∨ f = 2 ∨ f = 4 ∨ f = 5 then none else some 0x4110

/-- q.wr: the width field f (R345). -/
def curdWriteCode (f : BitVec 3) : Option EncCode := if f.toNat ≤ 2 then none else some 0x4110

/-- q.tld: imm < 256 (R345). -/
def curdBlockCode (imm : BitVec 12) : Option EncCode := if imm.toNat < 256 then none else some 0x4110

/-- q.ext, q.exts: s = imm[4:0], m = imm[9:5], s + m at most 31, the rest zero (R345). -/
def curdFieldCode (imm : BitVec 12) : Option EncCode :=
  if imm.toNat < 1024 ∧ imm.toNat % 32 + imm.toNat / 32 ≤ 31 then none else some 0x4110

/-- q.ins: imm[4:0] is the shift, the rest zero (R345). -/
def curdShiftCode (imm : BitVec 12) : Option EncCode := if imm.toNat < 32 then none else some 0x4110

/-- q.arg: no AW admits more than 511 words (R341, R345). -/
def curdArgCode (imm : BitVec 12) : Option EncCode := if imm.toNat < 511 then none else some 0x4110

/-- The code of R377 that an instruction's fields break first, taking the rows in the table's order, or none. The
steps that are no words carry none. -/
def encodingCode (i : Instr) : Option EncCode :=
  match i with
  | .cBr _ => none
  | .cBsz _ => none
  | .cBsnz _ => none
  | .cCall o => checkJ .scalar o
  | .cJr o => checkT .zero .scalar .zero o
  | .cCallr o => checkT .scalar .scalar .zero o
  | .cRet o => checkT .zero .scalar .zero o
  | .cLoop o => loopCode o
  | .cNest o => nestCode o
  | .cWaitb o => checkT .scalar .scalar .scalar o
  | .cWaitr o => checkT .scalar .scalar .scalar o
  | .cWaitq o => checkT .scalar .scalar .zero o
  | .cWaitt o => checkT .scalar .scalar .zero o
  | .stalledWaitSatisfied => none
  | .wake => none
  | .cRcr o => controlRegCode o
  | .cWcr o => controlRegCode o
  | .cScr o => controlRegCode o
  | .cCcr o => controlRegCode o
  | .cSpop o => checkT .quad .zero .zero o
  | .cTrap o => trapNumCode o
  | .cBrk o => trapNumCode o
  | .cHalt o => checkT .zero .zero .zero o
  | .aAdd o => checkT .scalar .scalar .scalar o
  | .aSub o => checkT .scalar .scalar .scalar o
  | .aAnd o => checkT .scalar .scalar .scalar o
  | .aOr o => checkT .scalar .scalar .scalar o
  | .aXor o => checkT .scalar .scalar .scalar o
  | .aAndn o => checkT .scalar .scalar .scalar o
  | .aOrn o => checkT .scalar .scalar .scalar o
  | .aXnor o => checkT .scalar .scalar .scalar o
  | .aShl o => checkT .scalar .scalar .scalar o
  | .aShr o => checkT .scalar .scalar .scalar o
  | .aSra o => checkT .scalar .scalar .scalar o
  | .aRor o => checkT .scalar .scalar .scalar o
  | .aMin o => checkT .scalar .scalar .scalar o
  | .aMax o => checkT .scalar .scalar .scalar o
  | .aMinu o => checkT .scalar .scalar .scalar o
  | .aMaxu o => checkT .scalar .scalar .scalar o
  | .aAdds o _ => checkT .scalar .scalar .scalar o
  | .aMul o => checkT .scalar .scalar .scalar o
  | .aMulh o => checkT .scalar .scalar .scalar o
  | .aMulhu o => checkT .scalar .scalar .scalar o
  | .aDiv o => checkT .scalar .scalar .scalar o
  | .aDivu o => checkT .scalar .scalar .scalar o
  | .aRem o => checkT .scalar .scalar .scalar o
  | .aRemu o => checkT .scalar .scalar .scalar o
  | .aCeq o => checkT .predicate .scalar .scalar o
  | .aCne o => checkT .predicate .scalar .scalar o
  | .aClt o => checkT .predicate .scalar .scalar o
  | .aCge o => checkT .predicate .scalar .scalar o
  | .aCltu o => checkT .predicate .scalar .scalar o
  | .aCgeu o => checkT .predicate .scalar .scalar o
  | .aCtst o => checkT .predicate .scalar .scalar o
  | .aCntst o => checkT .predicate .scalar .scalar o
  | .aSel o => checkT .scalar .scalar .scalar o
  | .aClz o => checkT .scalar .scalar .zero o
  | .aCtz o => checkT .scalar .scalar .zero o
  | .aPopc o => checkT .scalar .scalar .zero o
  | .aPand o => checkT .predicate .predicate .predicate o
  | .aPor o => checkT .predicate .predicate .predicate o
  | .aPxor o => checkT .predicate .predicate .predicate o
  | .aPandn o => checkT .predicate .predicate .predicate o
  | .aAddi o => checkI .scalar .scalar o
  | .aAndi o => checkI .scalar .scalar o
  | .aOri o => checkI .scalar .scalar o
  | .aXori o => checkI .scalar .scalar o
  | .aShli o => shiftImmCode o
  | .aShri o => shiftImmCode o
  | .aSrai o => shiftImmCode o
  | .aCeqi o => checkI .predicate .scalar o
  | .aClti o => checkI .predicate .scalar o
  | .aCltui o => checkI .predicate .scalar o
  | .aMovi o => checkJ .scalar o
  | .aCat o => checkJ .scalar o
  | .lLde o => tensorCode o
  | .lLdei o => tensorCode o
  | .lLdv o => vectorAccessCode o
  | .lLdvi o => vectorAccessCode o
  | .lPf o => prefetchCode 0 o
  | .lPfL2 o => prefetchCode 1 o
  | .lPfTile o => prefetchCode 2 o
  | .lGpop o => checkT .vector .zero .zero o
  | .lHld o => checkT .handleNZ .scalar .zero o
  | .lAdv o => checkT .handle .scalar .scalar o
  | .loadDataReturn => none
  | .wSte o => tensorCode o
  | .wStv o => vectorAccessCode o
  | .wAadd o use => atomicCode 0x08 o use
  | .wAand o use => atomicCode 0x09 o use
  | .wAor o use => atomicCode 0x0A o use
  | .wAxor o use => atomicCode 0x0B o use
  | .wAmin o use => atomicCode 0x0C o use
  | .wAmax o use => atomicCode 0x0D o use
  | .wAminu o use => atomicCode 0x0E o use
  | .wAmaxu o use => atomicCode 0x0F o use
  | .wAswp o use => atomicCode 0x10 o use
  | .wAcas o use => atomicCode 0x11 o use
  | .wArd o use => atomicCode 0x12 o use
  | .atomicAtHome => none
  | .combineBufferFlush => none
  | .wFrel o => checkT .zero .zero .zero o
  | .wFacq o => checkT .zero .zero .zero o
  | .wFall o => checkT .zero .zero .zero o
  | .wAcq o => acqCode o
  | .wRel o => relCode o
  | .syncAcquireAtHome => none
  | .syncReleaseAtHome => none
  | .wBind o => checkT .zero .scalar .scalar o
  | .wRacq o => checkT .scalar .scalar .zero o
  | .wRrel o => checkT .scalar .scalar .zero o
  | .vFadd o ty => (tyOk ty 5).orElse fun _ => checkT .vector .vector .vector o
  | .vFsub o ty => (tyOk ty 5).orElse fun _ => checkT .vector .vector .vector o
  | .vFmul o ty => (tyOk ty 5).orElse fun _ => checkT .vector .vector .vector o
  | .vFma o ty => (tyOk ty 5).orElse fun _ => checkT .vector .vector .vector o
  | .vFnma o ty => (tyOk ty 5).orElse fun _ => checkT .vector .vector .vector o
  | .vFmax o ty => (tyOk ty 5).orElse fun _ => checkT .vector .vector .vector o
  | .vFmin o ty => (tyOk ty 5).orElse fun _ => checkT .vector .vector .vector o
  | .vFceq o ty => (tyOk ty 5).orElse fun _ => checkT .mask .vector .vector o
  | .vFclt o ty => (tyOk ty 5).orElse fun _ => checkT .mask .vector .vector o
  | .vFcle o ty => (tyOk ty 5).orElse fun _ => checkT .mask .vector .vector o
  | .vFabs o ty => (tyOk ty 5).orElse fun _ => checkT .vector .vector .zero o
  | .vFneg o ty => (tyOk ty 5).orElse fun _ => checkT .vector .vector .zero o
  | .vXscl o ty => (tyOk ty 3).orElse fun _ => checkT .vector .vector .scalar o
  | .vAdd o ty => (tyOk ty 3).orElse fun _ => checkT .vector .vector .vector o
  | .vSub o ty => (tyOk ty 3).orElse fun _ => checkT .vector .vector .vector o
  | .vMul o ty => (tyOk ty 3).orElse fun _ => checkT .vector .vector .vector o
  | .vAdds o ty => (tyOk ty 3).orElse fun _ => checkT .vector .vector .vector o
  | .vSubs o ty => (tyOk ty 3).orElse fun _ => checkT .vector .vector .vector o
  | .vMin o ty => (tyOk ty 3).orElse fun _ => checkT .vector .vector .vector o
  | .vMax o ty => (tyOk ty 3).orElse fun _ => checkT .vector .vector .vector o
  | .vAnd o ty => (tyOk ty 3).orElse fun _ => checkT .vector .vector .vector o
  | .vOr o ty => (tyOk ty 3).orElse fun _ => checkT .vector .vector .vector o
  | .vXor o ty => (tyOk ty 3).orElse fun _ => checkT .vector .vector .vector o
  | .vShl o ty => (tyOk ty 3).orElse fun _ => checkT .vector .vector .vector o
  | .vSra o ty => (tyOk ty 3).orElse fun _ => checkT .vector .vector .vector o
  | .vShr o ty => (tyOk ty 3).orElse fun _ => checkT .vector .vector .vector o
  | .vCeq o ty => (tyOk ty 3).orElse fun _ => checkT .mask .vector .vector o
  | .vClt o ty => (tyOk ty 3).orElse fun _ => checkT .mask .vector .vector o
  | .vKand o => checkT .mask .mask .mask o
  | .vKor o => checkT .mask .mask .mask o
  | .vKxor o => checkT .mask .mask .mask o
  | .vKandn o => checkT .mask .mask .mask o
  | .vRsum o ty => (tyOk ty 3).orElse fun _ => checkT .vector .vector .zero o
  | .vRmax o ty => (tyOk ty 3).orElse fun _ => checkT .vector .vector .zero o
  | .vRmin o ty => (tyOk ty 3).orElse fun _ => checkT .vector .vector .zero o
  | .vRisum o ty => (tyOk ty 3).orElse fun _ => checkT .vector .vector .zero o
  | .vPerm o ty => (tyOk ty 3).orElse fun _ => checkT .vector .vector .vector o
  | .vBcst o ty => (tyOk ty 3).orElse fun _ => checkT .vector .scalar .zero o
  | .vSlide o ty => (tyOk ty 3).orElse fun _ => checkT .vector .vector .scalar o
  | .vExp2r o ty => (tyOk ty 3).orElse fun _ => checkT .vector .vector .zero o
  | .vExp2f o ty => (tyOk ty 3).orElse fun _ => checkT .vector .vector .zero o
  | .vLog2r o ty => (tyOk ty 3).orElse fun _ => checkT .vector .vector .zero o
  | .vLog2f o ty => (tyOk ty 3).orElse fun _ => checkT .vector .vector .zero o
  | .vRcpr o ty => (tyOk ty 3).orElse fun _ => checkT .vector .vector .zero o
  | .vRcpf o ty => (tyOk ty 3).orElse fun _ => checkT .vector .vector .zero o
  | .vRsqr o ty => (tyOk ty 3).orElse fun _ => checkT .vector .vector .zero o
  | .vRsqf o ty => (tyOk ty 3).orElse fun _ => checkT .vector .vector .zero o
  | .vTanhr o ty => (tyOk ty 3).orElse fun _ => checkT .vector .vector .zero o
  | .vTanhf o ty => (tyOk ty 3).orElse fun _ => checkT .vector .vector .zero o
  | .vSinr o ty => (tyOk ty 3).orElse fun _ => checkT .vector .vector .zero o
  | .vSinf o ty => (tyOk ty 3).orElse fun _ => checkT .vector .vector .zero o
  | .vCosr o ty => (tyOk ty 3).orElse fun _ => checkT .vector .vector .zero o
  | .vCosf o ty => (tyOk ty 3).orElse fun _ => checkT .vector .vector .zero o
  | .xCvt o => cvtCode o
  | .xBpt o => tensorCode o
  | .xTrr o => checkT .vector .vector .scalar o
  | .xTrc o => checkT .vector .vector .vector o
  | .xMxq o => checkT .vector .vector .vector o
  | .xMxd o => checkT .vector .vector .vector o
  | .xSaq o => checkT .vector .vector .vector o
  | .xPack o => checkT .vector .vector .vector o
  | .xUnpk o => checkT .vector .vector .vector o
  | .xVtos o => (vtosGuard o.g).orElse fun _ => checkT .scalar .vector .scalar o
  | .xStov o => checkT .vector .scalar .scalar o
  | .mRun8 o => runCode o
  | .mRun4 o => runCode o
  | .mRunt o => runCode o
  | .mWin o => checkT .scalar .scalar .zero o
  | .mWsc o => checkT .handle .handle .scalar o
  | .mSwap o => checkT .zero .zero .zero o
  | .mProm o => checkT .zero .zero .zero o
  | .mDrain o => checkT .vector .scalar .zero o
  | .mZrd o => checkT .vector .tile .scalar o
  | .mBrd o => checkT .vector .tile .scalar o
  | .mZclr o => checkT .zero .tile .scalar o
  | .mFold o => checkT .scalar .zero .zero o
  | .mClip o => checkT .scalar .scalar .zero o
  | .mCal o => checkT .scalar .scalar .zero o
  | .mPin o => checkT .scalar .scalar .zero o
  | .swapExchange => none
  | .passEnd => none
  | .promotion => none
  | .driftCapRise => none
  | .columnRetrim => none
  | .backgroundCalibration => none
  | .rebuildComplete => none
  | .changeOfRoles => none
  | .eCpush o => checkT .zero .scalar .scalar o
  | .eCpop o => checkT .quad .scalar .zero o
  | .eGidx o => checkT .zero .scalar .scalar o
  | .eBarm o => checkT .scalar .scalar .scalar o
  | .eBexp o => checkT .zero .scalar .scalar o
  | .eBarv o => checkT .zero .scalar .zero o
  | .eCq o => checkT .zero .vector .scalar o
  | .eCqi o => checkT .vector .vector .scalar o
  | .eCqpop o => checkT .vector .zero .zero o
  | .eOsend o => checkT .vector .scalar .zero o
  | .eUsend o => checkT .zero .scalar .scalar o
  | .eCsend o => checkT .vector .scalar .zero o
  | .eRecv o => checkT .scalar .scalar .zero o
  | .eSpawn o => checkT .zero .scalar .zero o
  | .eDec o => checkT .zero .scalar .zero o
  | .eDone o => checkT .zero .zero .zero o
  | .eArm o => checkT .zero .scalar .scalar o
  | .ePrime o => checkT .zero .scalar .scalar o
  | .bundleEntry => none
  | .bundleCommit => none
  | .resultLand => none
  | .restartMarkEstablish => none
  | .stampDue => none
  | .preciseFault => none
  | .engineFault => none
  | .replayAck => none
  | .replayNak => none
  | .retryBackoffExpiry => none
  | .garmStore => none
  | .gprimeStore => none
  | .gctlResume => none
  | .gctlRestart => none
  | .gctlAbandon => none
  | .abandonComplete => none
  | .successorDecrement => none
  | .spawnAtHomeRennet => none
  | .dispatch => none
  | .stagedDispatch => none
  | .displacementRequest => none
  | .yield => none
  | .yieldTimeout => none
  | .preemptWritebackDone => none
  | .fusionChange => none
  | .podRecordForward => none
  | .podRecordResponse => none
  | .churnParamWrite => none
  | .churnGoWrite => none
  | .copyStart => none
  | .copyComplete => none
  | .granuleHoldRelease => none
  | .gatherRowDeliver => none
  | .barrierArm => none
  | .barrierExpect => none
  | .barrierArrival => none
  | .curdQueryAccept => none
  | .curdResultDeliver => none
  | .curdProgramStart => none
  | .curdRefreshWindow => none
  | .qNop _ => none
  | .qArg _ _ imm => curdArgCode imm
  | .qAddi _ _ _ _ => none
  | .qRd _ _ _ f => curdWidthCode f
  | .qWr _ _ _ f => curdWriteCode f
  | .qLook _ _ _ _ => none
  | .qLerp _ _ _ _ => none
  | .qTld _ _ _ imm => curdBlockCode imm
  | .qAdd _ _ _ _ => none
  | .qAdds _ _ _ _ => none
  | .qSub _ _ _ _ => none
  | .qSubs _ _ _ _ => none
  | .qExt _ _ _ imm => curdFieldCode imm
  | .qExts _ _ _ imm => curdFieldCode imm
  | .qIns _ _ _ _ imm => curdShiftCode imm
  | .qLoop _ _ _ => none
  | .qEnd _ => none
  | .walkerRequest => none
  | .routineTimeout => none
  | .wkLdp _ _ _ => none
  | .wkLdh _ _ _ => none
  | .wkDone _ _ _ => none
  | .wkFail _ _ _ => none
  | .wkInv _ _ _ => none
  | .wkChn _ _ _ => none
  | .hostHandoverAnswer => none
  | .handoverTimeout => none
  | .sliceRetire => none
  | .sliceRestore => none
  | .eccError => none
  | .sramScrub => none
  | .dramPatrolScrub => none
  | .dramRefresh => none
  | .telemetry => none
  | .parityRotationCopy => none
  | .parityRotationSwitch => none
  | .thermalReading => none
  | .powerPacing => none
  | .flitReceive => none
  | .linkNakReceive => none
  | .beaconSend => none
  | .orderedInject => none
  | .orderedDeliver => none
  | .circuitSlotSend => none
  | .circuitDeliver => none
  | .receiveRingWrite => none
  | .portDown => none
  | .portTrained => none
  | .portTrainingTimeout => none
  | .watermarkStall => none
  | .packetHeldTimeout => none
  | .podTimeSlew => none
  | .podTimeDrift => none
  | .lockstepSignatureSend => none
  | .lockstepSignatureReceive => none
  | .lockstepSignatureTimeout => none
  | .cxlLinkDown => none
  | .hostCxlMemAccess => none
  | .mgmtRegisterWrite => none
  | .ctxwinWrite => none
  | .invselWrite => none
  | .ckillWrite => none
  | .domainWrite => none
  | .keyWrite => none
  | .dbgcGo => none
  | .rslenWrite => none
  | .routineStoreWrite => none
  | .attgoWrite => none
  | .porterrClear => none
  | .reset => none
  | .readyBitSet => none
  | .cxlCompletionTimeout => none

/-- A register that a slot word names as a destination (R381). -/
inductive Dest where
  | s (n : BitVec 6) | v (n : BitVec 6) | p (n : BitVec 4) | k (n : BitVec 3) | h (n : BitVec 5)
  deriving DecidableEq, Repr

def destP (d : BitVec 6) : List Dest := if d.toNat < 16 then [.p (d.setWidth 4)] else []
def destK (d : BitVec 6) : List Dest := if d.toNat < 8 then [.k (d.setWidth 3)] else []
def destH (d : BitVec 6) : List Dest := if d.toNat < 32 then [.h (d.setWidth 5)] else []
/-- The four destinations of c.spop and e.cpop (R238, R320). -/
def quadDests (d : BitVec 6) : List Dest := [.s d, .s (d + 1), .s (d + 2), .s (d + 3)]

/-- The destinations that a slot word names; s0 and p0 are taken out where they are compared (R381). -/
def namedDests (i : Instr) : List Dest :=
  match i with
  | .cBr _ => []
  | .cBsz _ => []
  | .cBsnz _ => []
  | .cCall o => [.s o.d]
  | .cJr _ => []
  | .cCallr o => [.s o.d]
  | .cRet _ => []
  | .cLoop _ => []
  | .cNest _ => []
  | .cWaitb o => [.s o.d]
  | .cWaitr o => [.s o.d]
  | .cWaitq o => [.s o.d]
  | .cWaitt o => [.s o.d]
  | .stalledWaitSatisfied => []
  | .wake => []
  | .cRcr o => [.s o.d]
  | .cWcr _ => []
  | .cScr _ => []
  | .cCcr _ => []
  | .cSpop o => quadDests o.d
  | .cTrap _ => []
  | .cBrk _ => []
  | .cHalt _ => []
  | .aAdd o => [.s o.d]
  | .aSub o => [.s o.d]
  | .aAnd o => [.s o.d]
  | .aOr o => [.s o.d]
  | .aXor o => [.s o.d]
  | .aAndn o => [.s o.d]
  | .aOrn o => [.s o.d]
  | .aXnor o => [.s o.d]
  | .aShl o => [.s o.d]
  | .aShr o => [.s o.d]
  | .aSra o => [.s o.d]
  | .aRor o => [.s o.d]
  | .aMin o => [.s o.d]
  | .aMax o => [.s o.d]
  | .aMinu o => [.s o.d]
  | .aMaxu o => [.s o.d]
  | .aAdds o _ => [.s o.d]
  | .aMul o => [.s o.d]
  | .aMulh o => [.s o.d]
  | .aMulhu o => [.s o.d]
  | .aDiv o => [.s o.d]
  | .aDivu o => [.s o.d]
  | .aRem o => [.s o.d]
  | .aRemu o => [.s o.d]
  | .aCeq o => destP o.d
  | .aCne o => destP o.d
  | .aClt o => destP o.d
  | .aCge o => destP o.d
  | .aCltu o => destP o.d
  | .aCgeu o => destP o.d
  | .aCtst o => destP o.d
  | .aCntst o => destP o.d
  | .aSel o => [.s o.d]
  | .aClz o => [.s o.d]
  | .aCtz o => [.s o.d]
  | .aPopc o => [.s o.d]
  | .aPand o => destP o.d
  | .aPor o => destP o.d
  | .aPxor o => destP o.d
  | .aPandn o => destP o.d
  | .aAddi o => [.s o.d]
  | .aAndi o => [.s o.d]
  | .aOri o => [.s o.d]
  | .aXori o => [.s o.d]
  | .aShli o => [.s o.d]
  | .aShri o => [.s o.d]
  | .aSrai o => [.s o.d]
  | .aCeqi o => destP o.d
  | .aClti o => destP o.d
  | .aCltui o => destP o.d
  | .aMovi o => [.s o.d]
  | .aCat o => [.s o.d]
  | .lLde o => [.s o.d]
  | .lLdei o => [.s o.d]
  | .lLdv o => [.v o.d]
  | .lLdvi o => [.v o.d]
  | .lPf _ => []
  | .lPfL2 _ => []
  | .lPfTile _ => []
  | .lGpop o => [.v o.d]
  | .lHld o => destH o.d
  | .lAdv o => destH o.d
  | .loadDataReturn => []
  | .wSte _ => []
  | .wStv _ => []
  | .wAadd o use => if use = 2 ∨ use = 4 then [] else [.s o.d]
  | .wAand o use => if use = 2 ∨ use = 4 then [] else [.s o.d]
  | .wAor o use => if use = 2 ∨ use = 4 then [] else [.s o.d]
  | .wAxor o use => if use = 2 ∨ use = 4 then [] else [.s o.d]
  | .wAmin o use => if use = 2 ∨ use = 4 then [] else [.s o.d]
  | .wAmax o use => if use = 2 ∨ use = 4 then [] else [.s o.d]
  | .wAminu o use => if use = 2 ∨ use = 4 then [] else [.s o.d]
  | .wAmaxu o use => if use = 2 ∨ use = 4 then [] else [.s o.d]
  | .wAswp o use => if use = 2 ∨ use = 4 then [] else [.s o.d]
  | .wAcas o use => if use = 2 ∨ use = 4 then [] else [.s o.d]
  | .wArd o use => if use = 2 ∨ use = 4 then [] else [.s o.d]
  | .atomicAtHome => []
  | .combineBufferFlush => []
  | .wFrel _ => []
  | .wFacq _ => []
  | .wFall _ => []
  | .wAcq o => [.s o.d]
  | .wRel _ => []
  | .syncAcquireAtHome => []
  | .syncReleaseAtHome => []
  | .wBind _ => []
  | .wRacq o => [.s o.d]
  | .wRrel o => [.s o.d]
  | .vFadd o _ => [.v o.d]
  | .vFsub o _ => [.v o.d]
  | .vFmul o _ => [.v o.d]
  | .vFma o _ => [.v o.d]
  | .vFnma o _ => [.v o.d]
  | .vFmax o _ => [.v o.d]
  | .vFmin o _ => [.v o.d]
  | .vFceq o _ => destK o.d
  | .vFclt o _ => destK o.d
  | .vFcle o _ => destK o.d
  | .vFabs o _ => [.v o.d]
  | .vFneg o _ => [.v o.d]
  | .vXscl o _ => [.v o.d]
  | .vAdd o _ => [.v o.d]
  | .vSub o _ => [.v o.d]
  | .vMul o _ => [.v o.d]
  | .vAdds o _ => [.v o.d]
  | .vSubs o _ => [.v o.d]
  | .vMin o _ => [.v o.d]
  | .vMax o _ => [.v o.d]
  | .vAnd o _ => [.v o.d]
  | .vOr o _ => [.v o.d]
  | .vXor o _ => [.v o.d]
  | .vShl o _ => [.v o.d]
  | .vSra o _ => [.v o.d]
  | .vShr o _ => [.v o.d]
  | .vCeq o _ => destK o.d
  | .vClt o _ => destK o.d
  | .vKand o => destK o.d
  | .vKor o => destK o.d
  | .vKxor o => destK o.d
  | .vKandn o => destK o.d
  | .vRsum o _ => [.v o.d]
  | .vRmax o _ => [.v o.d]
  | .vRmin o _ => [.v o.d]
  | .vRisum o _ => [.v o.d]
  | .vPerm o _ => [.v o.d]
  | .vBcst o _ => [.v o.d]
  | .vSlide o _ => [.v o.d]
  | .vExp2r o _ => [.v o.d]
  | .vExp2f o _ => [.v o.d]
  | .vLog2r o _ => [.v o.d]
  | .vLog2f o _ => [.v o.d]
  | .vRcpr o _ => [.v o.d]
  | .vRcpf o _ => [.v o.d]
  | .vRsqr o _ => [.v o.d]
  | .vRsqf o _ => [.v o.d]
  | .vTanhr o _ => [.v o.d]
  | .vTanhf o _ => [.v o.d]
  | .vSinr o _ => [.v o.d]
  | .vSinf o _ => [.v o.d]
  | .vCosr o _ => [.v o.d]
  | .vCosf o _ => [.v o.d]
  | .xCvt o => [.v o.d]
  | .xBpt _ => []
  | .xTrr o => [.v o.d]
  | .xTrc o => [.v o.d]
  | .xMxq o => [.v o.d]
  | .xMxd o => [.v o.d]
  | .xSaq o => [.v o.d]
  | .xPack o => [.v o.d]
  | .xUnpk o => [.v o.d]
  | .xVtos o => [.s o.d]
  | .xStov o => [.v o.d]
  | .mRun8 _ => []
  | .mRun4 _ => []
  | .mRunt _ => []
  | .mWin _ => []
  | .mWsc _ => []
  | .mSwap _ => []
  | .mProm _ => []
  | .mDrain o => [.v o.d]
  | .mZrd o => [.v o.d]
  | .mBrd o => [.v o.d]
  | .mZclr _ => []
  | .mFold o => [.s o.d]
  | .mClip o => [.s o.d]
  | .mCal o => [.s o.d]
  | .mPin o => [.s o.d]
  | .swapExchange => []
  | .passEnd => []
  | .promotion => []
  | .driftCapRise => []
  | .columnRetrim => []
  | .backgroundCalibration => []
  | .rebuildComplete => []
  | .changeOfRoles => []
  | .eCpush _ => []
  | .eCpop o => quadDests o.d
  | .eGidx _ => []
  | .eBarm o => [.s o.d]
  | .eBexp _ => []
  | .eBarv _ => []
  | .eCq _ => []
  | .eCqi _ => []
  | .eCqpop o => [.v o.d]
  | .eOsend _ => []
  | .eUsend _ => []
  | .eCsend _ => []
  | .eRecv o => [.s o.d]
  | .eSpawn _ => []
  | .eDec _ => []
  | .eDone _ => []
  | .eArm _ => []
  | .ePrime _ => []
  | .bundleEntry => []
  | .bundleCommit => []
  | .resultLand => []
  | .restartMarkEstablish => []
  | .stampDue => []
  | .preciseFault => []
  | .engineFault => []
  | .replayAck => []
  | .replayNak => []
  | .retryBackoffExpiry => []
  | .garmStore => []
  | .gprimeStore => []
  | .gctlResume => []
  | .gctlRestart => []
  | .gctlAbandon => []
  | .abandonComplete => []
  | .successorDecrement => []
  | .spawnAtHomeRennet => []
  | .dispatch => []
  | .stagedDispatch => []
  | .displacementRequest => []
  | .yield => []
  | .yieldTimeout => []
  | .preemptWritebackDone => []
  | .fusionChange => []
  | .podRecordForward => []
  | .podRecordResponse => []
  | .churnParamWrite => []
  | .churnGoWrite => []
  | .copyStart => []
  | .copyComplete => []
  | .granuleHoldRelease => []
  | .gatherRowDeliver => []
  | .barrierArm => []
  | .barrierExpect => []
  | .barrierArrival => []
  | .curdQueryAccept => []
  | .curdResultDeliver => []
  | .curdProgramStart => []
  | .curdRefreshWindow => []
  | .qNop _ => []
  | .qArg _ _ _ => []
  | .qAddi _ _ _ _ => []
  | .qRd _ _ _ _ => []
  | .qWr _ _ _ _ => []
  | .qLook _ _ _ _ => []
  | .qLerp _ _ _ _ => []
  | .qTld _ _ _ _ => []
  | .qAdd _ _ _ _ => []
  | .qAdds _ _ _ _ => []
  | .qSub _ _ _ _ => []
  | .qSubs _ _ _ _ => []
  | .qExt _ _ _ _ => []
  | .qExts _ _ _ _ => []
  | .qIns _ _ _ _ _ => []
  | .qLoop _ _ _ => []
  | .qEnd _ => []
  | .walkerRequest => []
  | .routineTimeout => []
  | .wkLdp _ _ _ => []
  | .wkLdh _ _ _ => []
  | .wkDone _ _ _ => []
  | .wkFail _ _ _ => []
  | .wkInv _ _ _ => []
  | .wkChn _ _ _ => []
  | .hostHandoverAnswer => []
  | .handoverTimeout => []
  | .sliceRetire => []
  | .sliceRestore => []
  | .eccError => []
  | .sramScrub => []
  | .dramPatrolScrub => []
  | .dramRefresh => []
  | .telemetry => []
  | .parityRotationCopy => []
  | .parityRotationSwitch => []
  | .thermalReading => []
  | .powerPacing => []
  | .flitReceive => []
  | .linkNakReceive => []
  | .beaconSend => []
  | .orderedInject => []
  | .orderedDeliver => []
  | .circuitSlotSend => []
  | .circuitDeliver => []
  | .receiveRingWrite => []
  | .portDown => []
  | .portTrained => []
  | .portTrainingTimeout => []
  | .watermarkStall => []
  | .packetHeldTimeout => []
  | .podTimeSlew => []
  | .podTimeDrift => []
  | .lockstepSignatureSend => []
  | .lockstepSignatureReceive => []
  | .lockstepSignatureTimeout => []
  | .cxlLinkDown => []
  | .hostCxlMemAccess => []
  | .mgmtRegisterWrite => []
  | .ctxwinWrite => []
  | .invselWrite => []
  | .ckillWrite => []
  | .domainWrite => []
  | .keyWrite => []
  | .dbgcGo => []
  | .rslenWrite => []
  | .routineStoreWrite => []
  | .attgoWrite => []
  | .porterrClear => []
  | .reset => []
  | .readyBitSet => []
  | .cxlCompletionTimeout => []

/-- s0 and p0 are not counted (R381). -/
def Dest.counted : Dest → Bool
  | .s n => n ≠ 0
  | .p n => n ≠ 0
  | _ => true

end Sys2Proof
end

