-- ==== Sys2Proof/WellFormed.lean ====
section
/-! DEFINITION. Well-formed instructions: those whose fields break no row of R377 (slot words) or R344 and R345 (curd
words). The steps that are no words have no such row. -/

namespace Sys2Proof

/-- No encoding check refuses the instruction. -/
def Instr.wellFormed (i : Instr) : Bool := (encodingCode i).isNone

end Sys2Proof
end

