-- ==== Sys2Proof/Decode.lean ====
section
/-! DEFINITION. The decoder: fields of the eight slot formats (R190), the opcode map (R194 to R201), the curd words
(R344, R345), the walker's custom words (R55), a bundle's eight words with their control bits (R188, R377, R378), and
the encoder written from the same tables. -/

namespace Sys2Proof

/-! ### Fields -/

/-- Bits [30:25] of a slot word (R189). -/
def major (w : BitVec 31) : BitVec 6 := w.extractLsb' 25 6
/-- Bits [2:0] of a T-format word. -/
def fnField (w : BitVec 31) : BitVec 3 := w.extractLsb' 0 3

def unpackT (w : BitVec 31) : OpT :=
  { d := w.extractLsb' 19 6, a := w.extractLsb' 13 6, b := w.extractLsb' 7 6, g := w.extractLsb' 3 4 }
def packT (maj : BitVec 6) (fn : BitVec 3) (o : OpT) : BitVec 31 :=
  maj ++ o.d ++ o.a ++ o.b ++ o.g ++ fn

def unpackI (w : BitVec 31) : OpI :=
  { d := w.extractLsb' 19 6, a := w.extractLsb' 13 6, imm := w.extractLsb' 4 9, g := w.extractLsb' 0 4 }
def packI (maj : BitVec 6) (o : OpI) : BitVec 31 := maj ++ o.d ++ o.a ++ o.imm ++ o.g

def unpackJ (w : BitVec 31) : OpJ := { d := w.extractLsb' 19 6, imm := w.extractLsb' 0 19 }
def packJ (maj : BitVec 6) (o : OpJ) : BitVec 31 := maj ++ o.d ++ o.imm

def unpackB (w : BitVec 31) : OpB :=
  { p := w.extractLsb' 21 4, neg := w.extractLsb' 20 1, off := w.extractLsb' 0 20 }
def packB (maj : BitVec 6) (o : OpB) : BitVec 31 := maj ++ o.p ++ o.neg ++ o.off

def unpackBS (w : BitVec 31) : OpBS := { a := w.extractLsb' 19 6, off := w.extractLsb' 0 19 }
def packBS (maj : BitVec 6) (o : OpBS) : BitVec 31 := maj ++ o.a ++ o.off

def unpackH (w : BitVec 31) : OpH :=
  { d := w.extractLsb' 19 6, h := w.extractLsb' 14 5, cb := w.extractLsb' 8 6, zm := w.extractLsb' 4 4,
    g := w.extractLsb' 0 4 }
def packH (maj : BitVec 6) (o : OpH) : BitVec 31 := maj ++ o.d ++ o.h ++ o.cb ++ o.zm ++ o.g

def unpackXC (w : BitVec 31) : OpXC :=
  { d := w.extractLsb' 19 6, a := w.extractLsb' 13 6, sf := w.extractLsb' 7 6, df := w.extractLsb' 1 6,
    sat := w.extractLsb' 0 1 }
def packXC (maj : BitVec 6) (o : OpXC) : BitVec 31 := maj ++ o.d ++ o.a ++ o.sf ++ o.df ++ o.sat

def unpackMR (w : BitVec 31) : OpMR :=
  { z := w.extractLsb' 21 4, sp := w.extractLsb' 17 4, pp := w.extractLsb' 13 4, mm := w.extractLsb' 9 4,
    h := w.extractLsb' 4 5, g := w.extractLsb' 0 4 }
def packMR (maj : BitVec 6) (o : OpMR) : BitVec 31 := maj ++ o.z ++ o.sp ++ o.pp ++ o.mm ++ o.h ++ o.g

/-! ### The opcode map of the slots -/

/-- The instruction that the major and fn of a C-slot word name (R194). -/
def candidateC (w : BitVec 31) : Except EncCode Instr :=
  match (major w).toNat with
  | 0x01 => .ok (.cBr (unpackB w))
  | 0x02 => .ok (.cCall (unpackJ w))
  | 0x03 => match (fnField w).toNat with
    | 0 => .ok (.cJr (unpackT w))
    | 1 => .ok (.cCallr (unpackT w))
    | 2 => .ok (.cRet (unpackT w))
    | _ => .error 0x0103#16
  | 0x04 => .ok (.cBsz (unpackBS w))
  | 0x05 => .ok (.cBsnz (unpackBS w))
  | 0x06 => .ok (.cLoop (unpackI w))
  | 0x07 => .ok (.cNest (unpackI w))
  | 0x08 => match (fnField w).toNat with
    | 0 => .ok (.cWaitb (unpackT w))
    | 1 => .ok (.cWaitr (unpackT w))
    | 2 => .ok (.cWaitq (unpackT w))
    | 3 => .ok (.cWaitt (unpackT w))
    | _ => .error 0x0103#16
  | 0x0A => .ok (.cRcr (unpackJ w))
  | 0x0B => .ok (.cWcr (unpackJ w))
  | 0x0C => .ok (.cScr (unpackJ w))
  | 0x0D => .ok (.cCcr (unpackJ w))
  | 0x0E => match (fnField w).toNat with
    | 0 => .ok (.cSpop (unpackT w))
    | _ => .error 0x0103#16
  | 0x0F => .ok (.cTrap (unpackJ w))
  | 0x10 => .ok (.cBrk (unpackJ w))
  | 0x11 => match (fnField w).toNat with
    | 0 => .ok (.cHalt (unpackT w))
    | _ => .error 0x0103#16
  | _ => .error 0x0101#16

/-- The instruction that the major and fn of a A-slot word name (R195). -/
def candidateA (w : BitVec 31) : Except EncCode Instr :=
  match (major w).toNat with
  | 0x01 => match (fnField w).toNat with
    | 0 => .ok (.aAdd (unpackT w))
    | 1 => .ok (.aSub (unpackT w))
    | 2 => .ok (.aAnd (unpackT w))
    | 3 => .ok (.aOr (unpackT w))
    | 4 => .ok (.aXor (unpackT w))
    | 5 => .ok (.aAndn (unpackT w))
    | 6 => .ok (.aOrn (unpackT w))
    | _ => .ok (.aXnor (unpackT w))
  | 0x02 => match (fnField w).toNat with
    | 0 => .ok (.aShl (unpackT w))
    | 1 => .ok (.aShr (unpackT w))
    | 2 => .ok (.aSra (unpackT w))
    | 3 => .ok (.aRor (unpackT w))
    | 4 => .ok (.aMin (unpackT w))
    | 5 => .ok (.aMax (unpackT w))
    | 6 => .ok (.aMinu (unpackT w))
    | _ => .ok (.aMaxu (unpackT w))
  | 0x03 => match (fnField w).toNat with
    | 0 => .ok (.aMul (unpackT w))
    | 1 => .ok (.aMulh (unpackT w))
    | 2 => .ok (.aMulhu (unpackT w))
    | 3 => .ok (.aDiv (unpackT w))
    | 4 => .ok (.aDivu (unpackT w))
    | 5 => .ok (.aRem (unpackT w))
    | 6 => .ok (.aRemu (unpackT w))
    | _ => .error 0x0103#16
  | 0x04 => match (fnField w).toNat with
    | 0 => .ok (.aCeq (unpackT w))
    | 1 => .ok (.aCne (unpackT w))
    | 2 => .ok (.aClt (unpackT w))
    | 3 => .ok (.aCge (unpackT w))
    | 4 => .ok (.aCltu (unpackT w))
    | 5 => .ok (.aCgeu (unpackT w))
    | 6 => .ok (.aCtst (unpackT w))
    | _ => .ok (.aCntst (unpackT w))
  | 0x05 => match (fnField w).toNat with
    | 0 => .ok (.aSel (unpackT w))
    | 1 => .ok (.aClz (unpackT w))
    | 2 => .ok (.aCtz (unpackT w))
    | 3 => .ok (.aPopc (unpackT w))
    | _ => .error 0x0103#16
  | 0x06 => match (fnField w).toNat with
    | 0 => .ok (.aPand (unpackT w))
    | 1 => .ok (.aPor (unpackT w))
    | 2 => .ok (.aPxor (unpackT w))
    | 3 => .ok (.aPandn (unpackT w))
    | _ => .error 0x0103#16
  | 0x07 => .ok (.aAdds (unpackT w) (fnField w))
  | 0x08 => .ok (.aAddi (unpackI w))
  | 0x09 => .ok (.aAndi (unpackI w))
  | 0x0A => .ok (.aOri (unpackI w))
  | 0x0B => .ok (.aXori (unpackI w))
  | 0x0C => .ok (.aShli (unpackI w))
  | 0x0D => .ok (.aShri (unpackI w))
  | 0x0E => .ok (.aSrai (unpackI w))
  | 0x0F => .ok (.aCeqi (unpackI w))
  | 0x10 => .ok (.aClti (unpackI w))
  | 0x11 => .ok (.aCltui (unpackI w))
  | 0x14 => .ok (.aMovi (unpackJ w))
  | 0x15 => .ok (.aCat (unpackJ w))
  | _ => .error 0x0101#16

/-- The instruction that the major and fn of a L-slot word name (R196). -/
def candidateL (w : BitVec 31) : Except EncCode Instr :=
  match (major w).toNat with
  | 0x01 => .ok (.lLde (unpackH w))
  | 0x02 => .ok (.lLdei (unpackH w))
  | 0x03 => .ok (.lLdv (unpackH w))
  | 0x04 => .ok (.lLdvi (unpackH w))
  | 0x05 => match (unpackH w).d.toNat with
    | 0 => .ok (.lPf (unpackH w))
    | 1 => .ok (.lPfL2 (unpackH w))
    | 2 => .ok (.lPfTile (unpackH w))
    | _ => .error 0x0103#16
  | 0x06 => match (fnField w).toNat with
    | 0 => .ok (.lGpop (unpackT w))
    | _ => .error 0x0103#16
  | 0x07 => match (fnField w).toNat with
    | 0 => .ok (.lHld (unpackT w))
    | _ => .error 0x0103#16
  | 0x08 => match (fnField w).toNat with
    | 0 => .ok (.lAdv (unpackT w))
    | _ => .error 0x0103#16
  | _ => .error 0x0101#16

/-- The instruction that the major and fn of a W-slot word name (R197). -/
def candidateW (w : BitVec 31) : Except EncCode Instr :=
  match (major w).toNat with
  | 0x01 => .ok (.wSte (unpackH w))
  | 0x02 => .ok (.wStv (unpackH w))
  | 0x08 => .ok (.wAadd (unpackT w) (fnField w))
  | 0x09 => .ok (.wAand (unpackT w) (fnField w))
  | 0x0A => .ok (.wAor (unpackT w) (fnField w))
  | 0x0B => .ok (.wAxor (unpackT w) (fnField w))
  | 0x0C => .ok (.wAmin (unpackT w) (fnField w))
  | 0x0D => .ok (.wAmax (unpackT w) (fnField w))
  | 0x0E => .ok (.wAminu (unpackT w) (fnField w))
  | 0x0F => .ok (.wAmaxu (unpackT w) (fnField w))
  | 0x10 => .ok (.wAswp (unpackT w) (fnField w))
  | 0x11 => .ok (.wAcas (unpackT w) (fnField w))
  | 0x12 => .ok (.wArd (unpackT w) (fnField w))
  | 0x18 => match (fnField w).toNat with
    | 0 => .ok (.wFrel (unpackT w))
    | 1 => .ok (.wFacq (unpackT w))
    | 2 => .ok (.wFall (unpackT w))
    | _ => .error 0x0103#16
  | 0x19 => .ok (.wAcq (unpackI w))
  | 0x1A => .ok (.wRel (unpackI w))
  | 0x1B => match (fnField w).toNat with
    | 0 => .ok (.wBind (unpackT w))
    | _ => .error 0x0103#16
  | 0x1C => match (fnField w).toNat with
    | 0 => .ok (.wRacq (unpackT w))
    | _ => .error 0x0103#16
  | 0x1D => match (fnField w).toNat with
    | 0 => .ok (.wRrel (unpackT w))
    | _ => .error 0x0103#16
  | _ => .error 0x0101#16

/-- The instruction that the major and fn of a V-slot word name (R198). -/
def candidateV (w : BitVec 31) : Except EncCode Instr :=
  match (major w).toNat with
  | 0x01 => .ok (.vFadd (unpackT w) (fnField w))
  | 0x02 => .ok (.vFsub (unpackT w) (fnField w))
  | 0x03 => .ok (.vFmul (unpackT w) (fnField w))
  | 0x04 => .ok (.vFma (unpackT w) (fnField w))
  | 0x05 => .ok (.vFnma (unpackT w) (fnField w))
  | 0x06 => .ok (.vFmax (unpackT w) (fnField w))
  | 0x07 => .ok (.vFmin (unpackT w) (fnField w))
  | 0x08 => .ok (.vFceq (unpackT w) (fnField w))
  | 0x09 => .ok (.vFclt (unpackT w) (fnField w))
  | 0x0A => .ok (.vFcle (unpackT w) (fnField w))
  | 0x0B => .ok (.vFabs (unpackT w) (fnField w))
  | 0x0C => .ok (.vFneg (unpackT w) (fnField w))
  | 0x0D => .ok (.vXscl (unpackT w) (fnField w))
  | 0x10 => .ok (.vAdd (unpackT w) (fnField w))
  | 0x11 => .ok (.vSub (unpackT w) (fnField w))
  | 0x12 => .ok (.vMul (unpackT w) (fnField w))
  | 0x13 => .ok (.vAdds (unpackT w) (fnField w))
  | 0x14 => .ok (.vSubs (unpackT w) (fnField w))
  | 0x15 => .ok (.vMin (unpackT w) (fnField w))
  | 0x16 => .ok (.vMax (unpackT w) (fnField w))
  | 0x17 => .ok (.vAnd (unpackT w) (fnField w))
  | 0x18 => .ok (.vOr (unpackT w) (fnField w))
  | 0x19 => .ok (.vXor (unpackT w) (fnField w))
  | 0x1A => .ok (.vShl (unpackT w) (fnField w))
  | 0x1B => .ok (.vSra (unpackT w) (fnField w))
  | 0x1C => .ok (.vShr (unpackT w) (fnField w))
  | 0x1D => .ok (.vCeq (unpackT w) (fnField w))
  | 0x1E => .ok (.vClt (unpackT w) (fnField w))
  | 0x20 => match (fnField w).toNat with
    | 0 => .ok (.vKand (unpackT w))
    | 1 => .ok (.vKor (unpackT w))
    | 2 => .ok (.vKxor (unpackT w))
    | 3 => .ok (.vKandn (unpackT w))
    | _ => .error 0x0103#16
  | 0x24 => .ok (.vRsum (unpackT w) (fnField w))
  | 0x25 => .ok (.vRmax (unpackT w) (fnField w))
  | 0x26 => .ok (.vRmin (unpackT w) (fnField w))
  | 0x27 => .ok (.vRisum (unpackT w) (fnField w))
  | 0x28 => .ok (.vPerm (unpackT w) (fnField w))
  | 0x29 => .ok (.vBcst (unpackT w) (fnField w))
  | 0x2A => .ok (.vSlide (unpackT w) (fnField w))
  | 0x30 => .ok (.vExp2r (unpackT w) (fnField w))
  | 0x31 => .ok (.vExp2f (unpackT w) (fnField w))
  | 0x32 => .ok (.vLog2r (unpackT w) (fnField w))
  | 0x33 => .ok (.vLog2f (unpackT w) (fnField w))
  | 0x34 => .ok (.vRcpr (unpackT w) (fnField w))
  | 0x35 => .ok (.vRcpf (unpackT w) (fnField w))
  | 0x36 => .ok (.vRsqr (unpackT w) (fnField w))
  | 0x37 => .ok (.vRsqf (unpackT w) (fnField w))
  | 0x38 => .ok (.vTanhr (unpackT w) (fnField w))
  | 0x39 => .ok (.vTanhf (unpackT w) (fnField w))
  | 0x3A => .ok (.vSinr (unpackT w) (fnField w))
  | 0x3B => .ok (.vSinf (unpackT w) (fnField w))
  | 0x3C => .ok (.vCosr (unpackT w) (fnField w))
  | 0x3D => .ok (.vCosf (unpackT w) (fnField w))
  | _ => .error 0x0101#16

/-- The instruction that the major and fn of a X-slot word name (R199). -/
def candidateX (w : BitVec 31) : Except EncCode Instr :=
  match (major w).toNat with
  | 0x01 => .ok (.xCvt (unpackXC w))
  | 0x02 => .ok (.xBpt (unpackH w))
  | 0x03 => match (fnField w).toNat with
    | 0 => .ok (.xTrr (unpackT w))
    | _ => .error 0x0103#16
  | 0x04 => match (fnField w).toNat with
    | 0 => .ok (.xTrc (unpackT w))
    | _ => .error 0x0103#16
  | 0x05 => match (fnField w).toNat with
    | 0 => .ok (.xMxq (unpackT w))
    | _ => .error 0x0103#16
  | 0x06 => match (fnField w).toNat with
    | 0 => .ok (.xMxd (unpackT w))
    | _ => .error 0x0103#16
  | 0x07 => match (fnField w).toNat with
    | 0 => .ok (.xSaq (unpackT w))
    | _ => .error 0x0103#16
  | 0x08 => match (fnField w).toNat with
    | 0 => .ok (.xPack (unpackT w))
    | _ => .error 0x0103#16
  | 0x09 => match (fnField w).toNat with
    | 0 => .ok (.xUnpk (unpackT w))
    | _ => .error 0x0103#16
  | 0x0A => match (fnField w).toNat with
    | 0 => .ok (.xVtos (unpackT w))
    | _ => .error 0x0103#16
  | 0x0B => match (fnField w).toNat with
    | 0 => .ok (.xStov (unpackT w))
    | _ => .error 0x0103#16
  | _ => .error 0x0101#16

/-- The instruction that the major and fn of a M-slot word name (R200). -/
def candidateM (w : BitVec 31) : Except EncCode Instr :=
  match (major w).toNat with
  | 0x01 => .ok (.mRun8 (unpackMR w))
  | 0x02 => .ok (.mRun4 (unpackMR w))
  | 0x03 => .ok (.mRunt (unpackMR w))
  | 0x08 => match (fnField w).toNat with
    | 0 => .ok (.mWin (unpackT w))
    | _ => .error 0x0103#16
  | 0x09 => match (fnField w).toNat with
    | 0 => .ok (.mWsc (unpackT w))
    | _ => .error 0x0103#16
  | 0x0A => match (fnField w).toNat with
    | 0 => .ok (.mSwap (unpackT w))
    | _ => .error 0x0103#16
  | 0x0B => match (fnField w).toNat with
    | 0 => .ok (.mProm (unpackT w))
    | _ => .error 0x0103#16
  | 0x0C => match (fnField w).toNat with
    | 0 => .ok (.mDrain (unpackT w))
    | _ => .error 0x0103#16
  | 0x0D => match (fnField w).toNat with
    | 0 => .ok (.mZrd (unpackT w))
    | _ => .error 0x0103#16
  | 0x0E => match (fnField w).toNat with
    | 0 => .ok (.mBrd (unpackT w))
    | _ => .error 0x0103#16
  | 0x0F => match (fnField w).toNat with
    | 0 => .ok (.mZclr (unpackT w))
    | _ => .error 0x0103#16
  | 0x10 => match (fnField w).toNat with
    | 0 => .ok (.mFold (unpackT w))
    | _ => .error 0x0103#16
  | 0x11 => match (fnField w).toNat with
    | 0 => .ok (.mClip (unpackT w))
    | _ => .error 0x0103#16
  | 0x12 => match (fnField w).toNat with
    | 0 => .ok (.mCal (unpackT w))
    | _ => .error 0x0103#16
  | 0x13 => match (fnField w).toNat with
    | 0 => .ok (.mPin (unpackT w))
    | _ => .error 0x0103#16
  | _ => .error 0x0101#16

/-- The instruction that the major and fn of a E-slot word name (R201). -/
def candidateE (w : BitVec 31) : Except EncCode Instr :=
  match (major w).toNat with
  | 0x01 => match (fnField w).toNat with
    | 0 => .ok (.eCpush (unpackT w))
    | _ => .error 0x0103#16
  | 0x02 => match (fnField w).toNat with
    | 0 => .ok (.eCpop (unpackT w))
    | _ => .error 0x0103#16
  | 0x03 => match (fnField w).toNat with
    | 0 => .ok (.eGidx (unpackT w))
    | _ => .error 0x0103#16
  | 0x08 => match (fnField w).toNat with
    | 0 => .ok (.eBarm (unpackT w))
    | _ => .error 0x0103#16
  | 0x09 => match (fnField w).toNat with
    | 0 => .ok (.eBexp (unpackT w))
    | _ => .error 0x0103#16
  | 0x0A => match (fnField w).toNat with
    | 0 => .ok (.eBarv (unpackT w))
    | _ => .error 0x0103#16
  | 0x10 => match (fnField w).toNat with
    | 0 => .ok (.eCq (unpackT w))
    | _ => .error 0x0103#16
  | 0x11 => match (fnField w).toNat with
    | 0 => .ok (.eCqi (unpackT w))
    | _ => .error 0x0103#16
  | 0x12 => match (fnField w).toNat with
    | 0 => .ok (.eCqpop (unpackT w))
    | _ => .error 0x0103#16
  | 0x18 => match (fnField w).toNat with
    | 0 => .ok (.eOsend (unpackT w))
    | _ => .error 0x0103#16
  | 0x19 => match (fnField w).toNat with
    | 0 => .ok (.eUsend (unpackT w))
    | _ => .error 0x0103#16
  | 0x1A => match (fnField w).toNat with
    | 0 => .ok (.eCsend (unpackT w))
    | _ => .error 0x0103#16
  | 0x1B => match (fnField w).toNat with
    | 0 => .ok (.eRecv (unpackT w))
    | _ => .error 0x0103#16
  | 0x20 => match (fnField w).toNat with
    | 0 => .ok (.eSpawn (unpackT w))
    | _ => .error 0x0103#16
  | 0x21 => match (fnField w).toNat with
    | 0 => .ok (.eDec (unpackT w))
    | _ => .error 0x0103#16
  | 0x22 => match (fnField w).toNat with
    | 0 => .ok (.eDone (unpackT w))
    | _ => .error 0x0103#16
  | 0x23 => match (fnField w).toNat with
    | 0 => .ok (.eArm (unpackT w))
    | _ => .error 0x0103#16
  | 0x24 => match (fnField w).toNat with
    | 0 => .ok (.ePrime (unpackT w))
    | _ => .error 0x0103#16
  | _ => .error 0x0101#16

/-- The candidate of a non-zero word of slot n, with the first rows of R377: major 0x00 with a bit set and major 0x3F,
then an absent major, then an unassigned fn. -/
def candidate (n : Fin 8) (w : BitVec 31) : Except EncCode Instr :=
  if major w = 0 ∨ major w = 0x3F then .error 0x0102
  else match n with
    | 0 => candidateC w
    | 1 => candidateA w
    | 2 => candidateL w
    | 3 => candidateW w
    | 4 => candidateV w
    | 5 => candidateX w
    | 6 => candidateM w
    | 7 => candidateE w

/-- What the word of slot n is: a no-operation (none, R189), an instruction, or a pattern of R377 by its code. -/
def decodeSlot (n : Fin 8) (w : BitVec 31) : Except EncCode (Option Instr) :=
  if w = 0 then .ok none
  else match candidate n w with
    | .error c => .error c
    | .ok i => match encodingCode i with
      | some c => .error c
      | none => .ok (some i)

/-! ### Curd words -/

/-- The fields of a curd word (R344): W OP d a b f imm12. -/
def packQ (w : BitVec 4) (op : BitVec 4) (d a b f : BitVec 3) (imm : BitVec 12) : BitVec 32 :=
  w ++ op ++ d ++ a ++ b ++ f ++ imm

/-- The curd instruction of a word, or the code 0x4110 of a word that is none (R344, R415). -/
def decodeCurd (x : BitVec 32) : Except EncCode Instr :=
  let w : BitVec 4 := x.extractLsb' 28 4
  let d : BitVec 3 := x.extractLsb' 21 3
  let a : BitVec 3 := x.extractLsb' 18 3
  let b : BitVec 3 := x.extractLsb' 15 3
  let f : BitVec 3 := x.extractLsb' 12 3
  let imm : BitVec 12 := x.extractLsb' 0 12
  let pick (ok : Bool) (i : Instr) : Except EncCode Instr :=
    if ok && (encodingCode i).isNone then .ok i else .error 0x4110
  match (x.extractLsb' 24 4 : BitVec 4).toNat with
  | 0 => pick (d = 0 && a = 0 && b = 0 && f = 0 && imm = 0) (.qNop w)
  | 1 => pick (a = 0 && b = 0 && f = 0) (.qArg w d imm)
  | 2 => pick (b = 0 && f = 0) (.qAddi w d a imm)
  | 3 => pick (b = 0 && imm = 0) (.qRd w d a f)
  | 4 => pick (d = 0 && imm = 0) (.qWr w a b f)
  | 5 => pick (f = 0 && imm = 0) (.qLook w d a b)
  | 6 => pick (f = 0 && imm = 0) (.qLerp w d a b)
  | 7 => pick (d = 0 && f = 0) (.qTld w a b imm)
  | 8 => match f.toNat with
    | 0 => pick (imm = 0) (.qAdd w d a b)
    | 1 => pick (imm = 0) (.qAdds w d a b)
    | 2 => pick (imm = 0) (.qSub w d a b)
    | 3 => pick (imm = 0) (.qSubs w d a b)
    | _ => .error 0x4110
  | 9 => match f.toNat with
    | 0 => pick (b = 0) (.qExt w d a imm)
    | 1 => pick (b = 0) (.qExts w d a imm)
    | _ => .error 0x4110
  | 10 => pick (f = 0) (.qIns w d a b imm)
  | 11 => pick (d = 0 && b = 0 && f = 0) (.qLoop w a imm)
  | 12 => pick (d = 0 && a = 0 && b = 0 && f = 0 && imm = 0) (.qEnd w)
  | _ => .error 0x4110

/-! ### Walker words -/

/-- An R-type word of opcode custom-0 with funct7 0 (R55). -/
def packWk (fn : BitVec 3) (t s d : BitVec 5) : BitVec 32 :=
  (0 : BitVec 7) ++ t ++ s ++ fn ++ d ++ (0x0B : BitVec 7)

/-- The walker extension of a word; none where the word is not one of R55. -/
def decodeWalker (x : BitVec 32) : Option Instr :=
  let t : BitVec 5 := x.extractLsb' 20 5
  let s : BitVec 5 := x.extractLsb' 15 5
  let d : BitVec 5 := x.extractLsb' 7 5
  if (x.extractLsb' 0 7 : BitVec 7) ≠ 0x0B ∨ (x.extractLsb' 25 7 : BitVec 7) ≠ 0 then none
  else match (x.extractLsb' 12 3 : BitVec 3).toNat with
    | 0 => some (.wkLdp t s d)
    | 1 => some (.wkLdh t s d)
    | 2 => some (.wkDone t s d)
    | 3 => some (.wkFail t s d)
    | 4 => some (.wkInv t s d)
    | 5 => some (.wkChn t s d)
    | _ => none

/-! ### The encoder -/

/-- Bits [30:0] of the slot word of an instruction, none where it is no slot instruction. -/
def encodeSlot (i : Instr) : Option (BitVec 31) :=
  match i with
  | .cBr o => some (packB 0x01 o)
  | .cBsz o => some (packBS 0x04 o)
  | .cBsnz o => some (packBS 0x05 o)
  | .cCall o => some (packJ 0x02 o)
  | .cJr o => some (packT 0x03 0 o)
  | .cCallr o => some (packT 0x03 1 o)
  | .cRet o => some (packT 0x03 2 o)
  | .cLoop o => some (packI 0x06 o)
  | .cNest o => some (packI 0x07 o)
  | .cWaitb o => some (packT 0x08 0 o)
  | .cWaitr o => some (packT 0x08 1 o)
  | .cWaitq o => some (packT 0x08 2 o)
  | .cWaitt o => some (packT 0x08 3 o)
  | .stalledWaitSatisfied => none
  | .wake => none
  | .cRcr o => some (packJ 0x0A o)
  | .cWcr o => some (packJ 0x0B o)
  | .cScr o => some (packJ 0x0C o)
  | .cCcr o => some (packJ 0x0D o)
  | .cSpop o => some (packT 0x0E 0 o)
  | .cTrap o => some (packJ 0x0F o)
  | .cBrk o => some (packJ 0x10 o)
  | .cHalt o => some (packT 0x11 0 o)
  | .aAdd o => some (packT 0x01 0 o)
  | .aSub o => some (packT 0x01 1 o)
  | .aAnd o => some (packT 0x01 2 o)
  | .aOr o => some (packT 0x01 3 o)
  | .aXor o => some (packT 0x01 4 o)
  | .aAndn o => some (packT 0x01 5 o)
  | .aOrn o => some (packT 0x01 6 o)
  | .aXnor o => some (packT 0x01 7 o)
  | .aShl o => some (packT 0x02 0 o)
  | .aShr o => some (packT 0x02 1 o)
  | .aSra o => some (packT 0x02 2 o)
  | .aRor o => some (packT 0x02 3 o)
  | .aMin o => some (packT 0x02 4 o)
  | .aMax o => some (packT 0x02 5 o)
  | .aMinu o => some (packT 0x02 6 o)
  | .aMaxu o => some (packT 0x02 7 o)
  | .aAdds o sh => some (packT 0x07 sh o)
  | .aMul o => some (packT 0x03 0 o)
  | .aMulh o => some (packT 0x03 1 o)
  | .aMulhu o => some (packT 0x03 2 o)
  | .aDiv o => some (packT 0x03 3 o)
  | .aDivu o => some (packT 0x03 4 o)
  | .aRem o => some (packT 0x03 5 o)
  | .aRemu o => some (packT 0x03 6 o)
  | .aCeq o => some (packT 0x04 0 o)
  | .aCne o => some (packT 0x04 1 o)
  | .aClt o => some (packT 0x04 2 o)
  | .aCge o => some (packT 0x04 3 o)
  | .aCltu o => some (packT 0x04 4 o)
  | .aCgeu o => some (packT 0x04 5 o)
  | .aCtst o => some (packT 0x04 6 o)
  | .aCntst o => some (packT 0x04 7 o)
  | .aSel o => some (packT 0x05 0 o)
  | .aClz o => some (packT 0x05 1 o)
  | .aCtz o => some (packT 0x05 2 o)
  | .aPopc o => some (packT 0x05 3 o)
  | .aPand o => some (packT 0x06 0 o)
  | .aPor o => some (packT 0x06 1 o)
  | .aPxor o => some (packT 0x06 2 o)
  | .aPandn o => some (packT 0x06 3 o)
  | .aAddi o => some (packI 0x08 o)
  | .aAndi o => some (packI 0x09 o)
  | .aOri o => some (packI 0x0A o)
  | .aXori o => some (packI 0x0B o)
  | .aShli o => some (packI 0x0C o)
  | .aShri o => some (packI 0x0D o)
  | .aSrai o => some (packI 0x0E o)
  | .aCeqi o => some (packI 0x0F o)
  | .aClti o => some (packI 0x10 o)
  | .aCltui o => some (packI 0x11 o)
  | .aMovi o => some (packJ 0x14 o)
  | .aCat o => some (packJ 0x15 o)
  | .lLde o => some (packH 0x01 o)
  | .lLdei o => some (packH 0x02 o)
  | .lLdv o => some (packH 0x03 o)
  | .lLdvi o => some (packH 0x04 o)
  | .lPf o => some (packH 0x05 o)
  | .lPfL2 o => some (packH 0x05 o)
  | .lPfTile o => some (packH 0x05 o)
  | .lGpop o => some (packT 0x06 0 o)
  | .lHld o => some (packT 0x07 0 o)
  | .lAdv o => some (packT 0x08 0 o)
  | .loadDataReturn => none
  | .wSte o => some (packH 0x01 o)
  | .wStv o => some (packH 0x02 o)
  | .wAadd o use => some (packT 0x08 use o)
  | .wAand o use => some (packT 0x09 use o)
  | .wAor o use => some (packT 0x0A use o)
  | .wAxor o use => some (packT 0x0B use o)
  | .wAmin o use => some (packT 0x0C use o)
  | .wAmax o use => some (packT 0x0D use o)
  | .wAminu o use => some (packT 0x0E use o)
  | .wAmaxu o use => some (packT 0x0F use o)
  | .wAswp o use => some (packT 0x10 use o)
  | .wAcas o use => some (packT 0x11 use o)
  | .wArd o use => some (packT 0x12 use o)
  | .atomicAtHome => none
  | .combineBufferFlush => none
  | .wFrel o => some (packT 0x18 0 o)
  | .wFacq o => some (packT 0x18 1 o)
  | .wFall o => some (packT 0x18 2 o)
  | .wAcq o => some (packI 0x19 o)
  | .wRel o => some (packI 0x1A o)
  | .syncAcquireAtHome => none
  | .syncReleaseAtHome => none
  | .wBind o => some (packT 0x1B 0 o)
  | .wRacq o => some (packT 0x1C 0 o)
  | .wRrel o => some (packT 0x1D 0 o)
  | .vFadd o ty => some (packT 0x01 ty o)
  | .vFsub o ty => some (packT 0x02 ty o)
  | .vFmul o ty => some (packT 0x03 ty o)
  | .vFma o ty => some (packT 0x04 ty o)
  | .vFnma o ty => some (packT 0x05 ty o)
  | .vFmax o ty => some (packT 0x06 ty o)
  | .vFmin o ty => some (packT 0x07 ty o)
  | .vFceq o ty => some (packT 0x08 ty o)
  | .vFclt o ty => some (packT 0x09 ty o)
  | .vFcle o ty => some (packT 0x0A ty o)
  | .vFabs o ty => some (packT 0x0B ty o)
  | .vFneg o ty => some (packT 0x0C ty o)
  | .vXscl o ty => some (packT 0x0D ty o)
  | .vAdd o ty => some (packT 0x10 ty o)
  | .vSub o ty => some (packT 0x11 ty o)
  | .vMul o ty => some (packT 0x12 ty o)
  | .vAdds o ty => some (packT 0x13 ty o)
  | .vSubs o ty => some (packT 0x14 ty o)
  | .vMin o ty => some (packT 0x15 ty o)
  | .vMax o ty => some (packT 0x16 ty o)
  | .vAnd o ty => some (packT 0x17 ty o)
  | .vOr o ty => some (packT 0x18 ty o)
  | .vXor o ty => some (packT 0x19 ty o)
  | .vShl o ty => some (packT 0x1A ty o)
  | .vSra o ty => some (packT 0x1B ty o)
  | .vShr o ty => some (packT 0x1C ty o)
  | .vCeq o ty => some (packT 0x1D ty o)
  | .vClt o ty => some (packT 0x1E ty o)
  | .vKand o => some (packT 0x20 0 o)
  | .vKor o => some (packT 0x20 1 o)
  | .vKxor o => some (packT 0x20 2 o)
  | .vKandn o => some (packT 0x20 3 o)
  | .vRsum o ty => some (packT 0x24 ty o)
  | .vRmax o ty => some (packT 0x25 ty o)
  | .vRmin o ty => some (packT 0x26 ty o)
  | .vRisum o ty => some (packT 0x27 ty o)
  | .vPerm o ty => some (packT 0x28 ty o)
  | .vBcst o ty => some (packT 0x29 ty o)
  | .vSlide o ty => some (packT 0x2A ty o)
  | .vExp2r o ty => some (packT 0x30 ty o)
  | .vExp2f o ty => some (packT 0x31 ty o)
  | .vLog2r o ty => some (packT 0x32 ty o)
  | .vLog2f o ty => some (packT 0x33 ty o)
  | .vRcpr o ty => some (packT 0x34 ty o)
  | .vRcpf o ty => some (packT 0x35 ty o)
  | .vRsqr o ty => some (packT 0x36 ty o)
  | .vRsqf o ty => some (packT 0x37 ty o)
  | .vTanhr o ty => some (packT 0x38 ty o)
  | .vTanhf o ty => some (packT 0x39 ty o)
  | .vSinr o ty => some (packT 0x3A ty o)
  | .vSinf o ty => some (packT 0x3B ty o)
  | .vCosr o ty => some (packT 0x3C ty o)
  | .vCosf o ty => some (packT 0x3D ty o)
  | .xCvt o => some (packXC 0x01 o)
  | .xBpt o => some (packH 0x02 o)
  | .xTrr o => some (packT 0x03 0 o)
  | .xTrc o => some (packT 0x04 0 o)
  | .xMxq o => some (packT 0x05 0 o)
  | .xMxd o => some (packT 0x06 0 o)
  | .xSaq o => some (packT 0x07 0 o)
  | .xPack o => some (packT 0x08 0 o)
  | .xUnpk o => some (packT 0x09 0 o)
  | .xVtos o => some (packT 0x0A 0 o)
  | .xStov o => some (packT 0x0B 0 o)
  | .mRun8 o => some (packMR 0x01 o)
  | .mRun4 o => some (packMR 0x02 o)
  | .mRunt o => some (packMR 0x03 o)
  | .mWin o => some (packT 0x08 0 o)
  | .mWsc o => some (packT 0x09 0 o)
  | .mSwap o => some (packT 0x0A 0 o)
  | .mProm o => some (packT 0x0B 0 o)
  | .mDrain o => some (packT 0x0C 0 o)
  | .mZrd o => some (packT 0x0D 0 o)
  | .mBrd o => some (packT 0x0E 0 o)
  | .mZclr o => some (packT 0x0F 0 o)
  | .mFold o => some (packT 0x10 0 o)
  | .mClip o => some (packT 0x11 0 o)
  | .mCal o => some (packT 0x12 0 o)
  | .mPin o => some (packT 0x13 0 o)
  | .swapExchange => none
  | .passEnd => none
  | .promotion => none
  | .driftCapRise => none
  | .columnRetrim => none
  | .backgroundCalibration => none
  | .rebuildComplete => none
  | .changeOfRoles => none
  | .eCpush o => some (packT 0x01 0 o)
  | .eCpop o => some (packT 0x02 0 o)
  | .eGidx o => some (packT 0x03 0 o)
  | .eBarm o => some (packT 0x08 0 o)
  | .eBexp o => some (packT 0x09 0 o)
  | .eBarv o => some (packT 0x0A 0 o)
  | .eCq o => some (packT 0x10 0 o)
  | .eCqi o => some (packT 0x11 0 o)
  | .eCqpop o => some (packT 0x12 0 o)
  | .eOsend o => some (packT 0x18 0 o)
  | .eUsend o => some (packT 0x19 0 o)
  | .eCsend o => some (packT 0x1A 0 o)
  | .eRecv o => some (packT 0x1B 0 o)
  | .eSpawn o => some (packT 0x20 0 o)
  | .eDec o => some (packT 0x21 0 o)
  | .eDone o => some (packT 0x22 0 o)
  | .eArm o => some (packT 0x23 0 o)
  | .ePrime o => some (packT 0x24 0 o)
  | .bundleEntry => none
  | .bundleCommit => none
  | .resultLand => none
  | .restartMarkEstablish => none
  | .stampDue => none
  | .preciseFault => none
  | .engineFault => none
  | .replayAck => none
  | .replayNak => none
  | .retryBackoffExpiry => none
  | .garmStore => none
  | .gprimeStore => none
  | .gctlResume => none
  | .gctlRestart => none
  | .gctlAbandon => none
  | .abandonComplete => none
  | .successorDecrement => none
  | .spawnAtHomeRennet => none
  | .dispatch => none
  | .stagedDispatch => none
  | .displacementRequest => none
  | .yield => none
  | .yieldTimeout => none
  | .preemptWritebackDone => none
  | .fusionChange => none
  | .podRecordForward => none
  | .podRecordResponse => none
  | .churnParamWrite => none
  | .churnGoWrite => none
  | .copyStart => none
  | .copyComplete => none
  | .granuleHoldRelease => none
  | .gatherRowDeliver => none
  | .barrierArm => none
  | .barrierExpect => none
  | .barrierArrival => none
  | .curdQueryAccept => none
  | .curdResultDeliver => none
  | .curdProgramStart => none
  | .curdRefreshWindow => none
  | .qNop _ => none
  | .qArg _ _ _ => none
  | .qAddi _ _ _ _ => none
  | .qRd _ _ _ _ => none
  | .qWr _ _ _ _ => none
  | .qLook _ _ _ _ => none
  | .qLerp _ _ _ _ => none
  | .qTld _ _ _ _ => none
  | .qAdd _ _ _ _ => none
  | .qAdds _ _ _ _ => none
  | .qSub _ _ _ _ => none
  | .qSubs _ _ _ _ => none
  | .qExt _ _ _ _ => none
  | .qExts _ _ _ _ => none
  | .qIns _ _ _ _ _ => none
  | .qLoop _ _ _ => none
  | .qEnd _ => none
  | .walkerRequest => none
  | .routineTimeout => none
  | .wkLdp _ _ _ => none
  | .wkLdh _ _ _ => none
  | .wkDone _ _ _ => none
  | .wkFail _ _ _ => none
  | .wkInv _ _ _ => none
  | .wkChn _ _ _ => none
  | .hostHandoverAnswer => none
  | .handoverTimeout => none
  | .sliceRetire => none
  | .sliceRestore => none
  | .eccError => none
  | .sramScrub => none
  | .dramPatrolScrub => none
  | .dramRefresh => none
  | .telemetry => none
  | .parityRotationCopy => none
  | .parityRotationSwitch => none
  | .thermalReading => none
  | .powerPacing => none
  | .flitReceive => none
  | .linkNakReceive => none
  | .beaconSend => none
  | .orderedInject => none
  | .orderedDeliver => none
  | .circuitSlotSend => none
  | .circuitDeliver => none
  | .receiveRingWrite => none
  | .portDown => none
  | .portTrained => none
  | .portTrainingTimeout => none
  | .watermarkStall => none
  | .packetHeldTimeout => none
  | .podTimeSlew => none
  | .podTimeDrift => none
  | .lockstepSignatureSend => none
  | .lockstepSignatureReceive => none
  | .lockstepSignatureTimeout => none
  | .cxlLinkDown => none
  | .hostCxlMemAccess => none
  | .mgmtRegisterWrite => none
  | .ctxwinWrite => none
  | .invselWrite => none
  | .ckillWrite => none
  | .domainWrite => none
  | .keyWrite => none
  | .dbgcGo => none
  | .rslenWrite => none
  | .routineStoreWrite => none
  | .attgoWrite => none
  | .porterrClear => none
  | .reset => none
  | .readyBitSet => none
  | .cxlCompletionTimeout => none

/-- The slot whose queue holds the instruction (R187), none where it is no slot instruction. -/
def slotOf (i : Instr) : Option (Fin 8) :=
  match i with
  | .cBr _ => some 0
  | .cBsz _ => some 0
  | .cBsnz _ => some 0
  | .cCall _ => some 0
  | .cJr _ => some 0
  | .cCallr _ => some 0
  | .cRet _ => some 0
  | .cLoop _ => some 0
  | .cNest _ => some 0
  | .cWaitb _ => some 0
  | .cWaitr _ => some 0
  | .cWaitq _ => some 0
  | .cWaitt _ => some 0
  | .stalledWaitSatisfied => none
  | .wake => none
  | .cRcr _ => some 0
  | .cWcr _ => some 0
  | .cScr _ => some 0
  | .cCcr _ => some 0
  | .cSpop _ => some 0
  | .cTrap _ => some 0
  | .cBrk _ => some 0
  | .cHalt _ => some 0
  | .aAdd _ => some 1
  | .aSub _ => some 1
  | .aAnd _ => some 1
  | .aOr _ => some 1
  | .aXor _ => some 1
  | .aAndn _ => some 1
  | .aOrn _ => some 1
  | .aXnor _ => some 1
  | .aShl _ => some 1
  | .aShr _ => some 1
  | .aSra _ => some 1
  | .aRor _ => some 1
  | .aMin _ => some 1
  | .aMax _ => some 1
  | .aMinu _ => some 1
  | .aMaxu _ => some 1
  | .aAdds _ _ => some 1
  | .aMul _ => some 1
  | .aMulh _ => some 1
  | .aMulhu _ => some 1
  | .aDiv _ => some 1
  | .aDivu _ => some 1
  | .aRem _ => some 1
  | .aRemu _ => some 1
  | .aCeq _ => some 1
  | .aCne _ => some 1
  | .aClt _ => some 1
  | .aCge _ => some 1
  | .aCltu _ => some 1
  | .aCgeu _ => some 1
  | .aCtst _ => some 1
  | .aCntst _ => some 1
  | .aSel _ => some 1
  | .aClz _ => some 1
  | .aCtz _ => some 1
  | .aPopc _ => some 1
  | .aPand _ => some 1
  | .aPor _ => some 1
  | .aPxor _ => some 1
  | .aPandn _ => some 1
  | .aAddi _ => some 1
  | .aAndi _ => some 1
  | .aOri _ => some 1
  | .aXori _ => some 1
  | .aShli _ => some 1
  | .aShri _ => some 1
  | .aSrai _ => some 1
  | .aCeqi _ => some 1
  | .aClti _ => some 1
  | .aCltui _ => some 1
  | .aMovi _ => some 1
  | .aCat _ => some 1
  | .lLde _ => some 2
  | .lLdei _ => some 2
  | .lLdv _ => some 2
  | .lLdvi _ => some 2
  | .lPf _ => some 2
  | .lPfL2 _ => some 2
  | .lPfTile _ => some 2
  | .lGpop _ => some 2
  | .lHld _ => some 2
  | .lAdv _ => some 2
  | .loadDataReturn => none
  | .wSte _ => some 3
  | .wStv _ => some 3
  | .wAadd _ _ => some 3
  | .wAand _ _ => some 3
  | .wAor _ _ => some 3
  | .wAxor _ _ => some 3
  | .wAmin _ _ => some 3
  | .wAmax _ _ => some 3
  | .wAminu _ _ => some 3
  | .wAmaxu _ _ => some 3
  | .wAswp _ _ => some 3
  | .wAcas _ _ => some 3
  | .wArd _ _ => some 3
  | .atomicAtHome => none
  | .combineBufferFlush => none
  | .wFrel _ => some 3
  | .wFacq _ => some 3
  | .wFall _ => some 3
  | .wAcq _ => some 3
  | .wRel _ => some 3
  | .syncAcquireAtHome => none
  | .syncReleaseAtHome => none
  | .wBind _ => some 3
  | .wRacq _ => some 3
  | .wRrel _ => some 3
  | .vFadd _ _ => some 4
  | .vFsub _ _ => some 4
  | .vFmul _ _ => some 4
  | .vFma _ _ => some 4
  | .vFnma _ _ => some 4
  | .vFmax _ _ => some 4
  | .vFmin _ _ => some 4
  | .vFceq _ _ => some 4
  | .vFclt _ _ => some 4
  | .vFcle _ _ => some 4
  | .vFabs _ _ => some 4
  | .vFneg _ _ => some 4
  | .vXscl _ _ => some 4
  | .vAdd _ _ => some 4
  | .vSub _ _ => some 4
  | .vMul _ _ => some 4
  | .vAdds _ _ => some 4
  | .vSubs _ _ => some 4
  | .vMin _ _ => some 4
  | .vMax _ _ => some 4
  | .vAnd _ _ => some 4
  | .vOr _ _ => some 4
  | .vXor _ _ => some 4
  | .vShl _ _ => some 4
  | .vSra _ _ => some 4
  | .vShr _ _ => some 4
  | .vCeq _ _ => some 4
  | .vClt _ _ => some 4
  | .vKand _ => some 4
  | .vKor _ => some 4
  | .vKxor _ => some 4
  | .vKandn _ => some 4
  | .vRsum _ _ => some 4
  | .vRmax _ _ => some 4
  | .vRmin _ _ => some 4
  | .vRisum _ _ => some 4
  | .vPerm _ _ => some 4
  | .vBcst _ _ => some 4
  | .vSlide _ _ => some 4
  | .vExp2r _ _ => some 4
  | .vExp2f _ _ => some 4
  | .vLog2r _ _ => some 4
  | .vLog2f _ _ => some 4
  | .vRcpr _ _ => some 4
  | .vRcpf _ _ => some 4
  | .vRsqr _ _ => some 4
  | .vRsqf _ _ => some 4
  | .vTanhr _ _ => some 4
  | .vTanhf _ _ => some 4
  | .vSinr _ _ => some 4
  | .vSinf _ _ => some 4
  | .vCosr _ _ => some 4
  | .vCosf _ _ => some 4
  | .xCvt _ => some 5
  | .xBpt _ => some 5
  | .xTrr _ => some 5
  | .xTrc _ => some 5
  | .xMxq _ => some 5
  | .xMxd _ => some 5
  | .xSaq _ => some 5
  | .xPack _ => some 5
  | .xUnpk _ => some 5
  | .xVtos _ => some 5
  | .xStov _ => some 5
  | .mRun8 _ => some 6
  | .mRun4 _ => some 6
  | .mRunt _ => some 6
  | .mWin _ => some 6
  | .mWsc _ => some 6
  | .mSwap _ => some 6
  | .mProm _ => some 6
  | .mDrain _ => some 6
  | .mZrd _ => some 6
  | .mBrd _ => some 6
  | .mZclr _ => some 6
  | .mFold _ => some 6
  | .mClip _ => some 6
  | .mCal _ => some 6
  | .mPin _ => some 6
  | .swapExchange => none
  | .passEnd => none
  | .promotion => none
  | .driftCapRise => none
  | .columnRetrim => none
  | .backgroundCalibration => none
  | .rebuildComplete => none
  | .changeOfRoles => none
  | .eCpush _ => some 7
  | .eCpop _ => some 7
  | .eGidx _ => some 7
  | .eBarm _ => some 7
  | .eBexp _ => some 7
  | .eBarv _ => some 7
  | .eCq _ => some 7
  | .eCqi _ => some 7
  | .eCqpop _ => some 7
  | .eOsend _ => some 7
  | .eUsend _ => some 7
  | .eCsend _ => some 7
  | .eRecv _ => some 7
  | .eSpawn _ => some 7
  | .eDec _ => some 7
  | .eDone _ => some 7
  | .eArm _ => some 7
  | .ePrime _ => some 7
  | .bundleEntry => none
  | .bundleCommit => none
  | .resultLand => none
  | .restartMarkEstablish => none
  | .stampDue => none
  | .preciseFault => none
  | .engineFault => none
  | .replayAck => none
  | .replayNak => none
  | .retryBackoffExpiry => none
  | .garmStore => none
  | .gprimeStore => none
  | .gctlResume => none
  | .gctlRestart => none
  | .gctlAbandon => none
  | .abandonComplete => none
  | .successorDecrement => none
  | .spawnAtHomeRennet => none
  | .dispatch => none
  | .stagedDispatch => none
  | .displacementRequest => none
  | .yield => none
  | .yieldTimeout => none
  | .preemptWritebackDone => none
  | .fusionChange => none
  | .podRecordForward => none
  | .podRecordResponse => none
  | .churnParamWrite => none
  | .churnGoWrite => none
  | .copyStart => none
  | .copyComplete => none
  | .granuleHoldRelease => none
  | .gatherRowDeliver => none
  | .barrierArm => none
  | .barrierExpect => none
  | .barrierArrival => none
  | .curdQueryAccept => none
  | .curdResultDeliver => none
  | .curdProgramStart => none
  | .curdRefreshWindow => none
  | .qNop _ => none
  | .qArg _ _ _ => none
  | .qAddi _ _ _ _ => none
  | .qRd _ _ _ _ => none
  | .qWr _ _ _ _ => none
  | .qLook _ _ _ _ => none
  | .qLerp _ _ _ _ => none
  | .qTld _ _ _ _ => none
  | .qAdd _ _ _ _ => none
  | .qAdds _ _ _ _ => none
  | .qSub _ _ _ _ => none
  | .qSubs _ _ _ _ => none
  | .qExt _ _ _ _ => none
  | .qExts _ _ _ _ => none
  | .qIns _ _ _ _ _ => none
  | .qLoop _ _ _ => none
  | .qEnd _ => none
  | .walkerRequest => none
  | .routineTimeout => none
  | .wkLdp _ _ _ => none
  | .wkLdh _ _ _ => none
  | .wkDone _ _ _ => none
  | .wkFail _ _ _ => none
  | .wkInv _ _ _ => none
  | .wkChn _ _ _ => none
  | .hostHandoverAnswer => none
  | .handoverTimeout => none
  | .sliceRetire => none
  | .sliceRestore => none
  | .eccError => none
  | .sramScrub => none
  | .dramPatrolScrub => none
  | .dramRefresh => none
  | .telemetry => none
  | .parityRotationCopy => none
  | .parityRotationSwitch => none
  | .thermalReading => none
  | .powerPacing => none
  | .flitReceive => none
  | .linkNakReceive => none
  | .beaconSend => none
  | .orderedInject => none
  | .orderedDeliver => none
  | .circuitSlotSend => none
  | .circuitDeliver => none
  | .receiveRingWrite => none
  | .portDown => none
  | .portTrained => none
  | .portTrainingTimeout => none
  | .watermarkStall => none
  | .packetHeldTimeout => none
  | .podTimeSlew => none
  | .podTimeDrift => none
  | .lockstepSignatureSend => none
  | .lockstepSignatureReceive => none
  | .lockstepSignatureTimeout => none
  | .cxlLinkDown => none
  | .hostCxlMemAccess => none
  | .mgmtRegisterWrite => none
  | .ctxwinWrite => none
  | .invselWrite => none
  | .ckillWrite => none
  | .domainWrite => none
  | .keyWrite => none
  | .dbgcGo => none
  | .rslenWrite => none
  | .routineStoreWrite => none
  | .attgoWrite => none
  | .porterrClear => none
  | .reset => none
  | .readyBitSet => none
  | .cxlCompletionTimeout => none

/-- The word of a curd or walker instruction, none otherwise. -/
def encodeWord (i : Instr) : Option (BitVec 32) :=
  match i with
  | .cBr _ => none
  | .cBsz _ => none
  | .cBsnz _ => none
  | .cCall _ => none
  | .cJr _ => none
  | .cCallr _ => none
  | .cRet _ => none
  | .cLoop _ => none
  | .cNest _ => none
  | .cWaitb _ => none
  | .cWaitr _ => none
  | .cWaitq _ => none
  | .cWaitt _ => none
  | .stalledWaitSatisfied => none
  | .wake => none
  | .cRcr _ => none
  | .cWcr _ => none
  | .cScr _ => none
  | .cCcr _ => none
  | .cSpop _ => none
  | .cTrap _ => none
  | .cBrk _ => none
  | .cHalt _ => none
  | .aAdd _ => none
  | .aSub _ => none
  | .aAnd _ => none
  | .aOr _ => none
  | .aXor _ => none
  | .aAndn _ => none
  | .aOrn _ => none
  | .aXnor _ => none
  | .aShl _ => none
  | .aShr _ => none
  | .aSra _ => none
  | .aRor _ => none
  | .aMin _ => none
  | .aMax _ => none
  | .aMinu _ => none
  | .aMaxu _ => none
  | .aAdds _ _ => none
  | .aMul _ => none
  | .aMulh _ => none
  | .aMulhu _ => none
  | .aDiv _ => none
  | .aDivu _ => none
  | .aRem _ => none
  | .aRemu _ => none
  | .aCeq _ => none
  | .aCne _ => none
  | .aClt _ => none
  | .aCge _ => none
  | .aCltu _ => none
  | .aCgeu _ => none
  | .aCtst _ => none
  | .aCntst _ => none
  | .aSel _ => none
  | .aClz _ => none
  | .aCtz _ => none
  | .aPopc _ => none
  | .aPand _ => none
  | .aPor _ => none
  | .aPxor _ => none
  | .aPandn _ => none
  | .aAddi _ => none
  | .aAndi _ => none
  | .aOri _ => none
  | .aXori _ => none
  | .aShli _ => none
  | .aShri _ => none
  | .aSrai _ => none
  | .aCeqi _ => none
  | .aClti _ => none
  | .aCltui _ => none
  | .aMovi _ => none
  | .aCat _ => none
  | .lLde _ => none
  | .lLdei _ => none
  | .lLdv _ => none
  | .lLdvi _ => none
  | .lPf _ => none
  | .lPfL2 _ => none
  | .lPfTile _ => none
  | .lGpop _ => none
  | .lHld _ => none
  | .lAdv _ => none
  | .loadDataReturn => none
  | .wSte _ => none
  | .wStv _ => none
  | .wAadd _ _ => none
  | .wAand _ _ => none
  | .wAor _ _ => none
  | .wAxor _ _ => none
  | .wAmin _ _ => none
  | .wAmax _ _ => none
  | .wAminu _ _ => none
  | .wAmaxu _ _ => none
  | .wAswp _ _ => none
  | .wAcas _ _ => none
  | .wArd _ _ => none
  | .atomicAtHome => none
  | .combineBufferFlush => none
  | .wFrel _ => none
  | .wFacq _ => none
  | .wFall _ => none
  | .wAcq _ => none
  | .wRel _ => none
  | .syncAcquireAtHome => none
  | .syncReleaseAtHome => none
  | .wBind _ => none
  | .wRacq _ => none
  | .wRrel _ => none
  | .vFadd _ _ => none
  | .vFsub _ _ => none
  | .vFmul _ _ => none
  | .vFma _ _ => none
  | .vFnma _ _ => none
  | .vFmax _ _ => none
  | .vFmin _ _ => none
  | .vFceq _ _ => none
  | .vFclt _ _ => none
  | .vFcle _ _ => none
  | .vFabs _ _ => none
  | .vFneg _ _ => none
  | .vXscl _ _ => none
  | .vAdd _ _ => none
  | .vSub _ _ => none
  | .vMul _ _ => none
  | .vAdds _ _ => none
  | .vSubs _ _ => none
  | .vMin _ _ => none
  | .vMax _ _ => none
  | .vAnd _ _ => none
  | .vOr _ _ => none
  | .vXor _ _ => none
  | .vShl _ _ => none
  | .vSra _ _ => none
  | .vShr _ _ => none
  | .vCeq _ _ => none
  | .vClt _ _ => none
  | .vKand _ => none
  | .vKor _ => none
  | .vKxor _ => none
  | .vKandn _ => none
  | .vRsum _ _ => none
  | .vRmax _ _ => none
  | .vRmin _ _ => none
  | .vRisum _ _ => none
  | .vPerm _ _ => none
  | .vBcst _ _ => none
  | .vSlide _ _ => none
  | .vExp2r _ _ => none
  | .vExp2f _ _ => none
  | .vLog2r _ _ => none
  | .vLog2f _ _ => none
  | .vRcpr _ _ => none
  | .vRcpf _ _ => none
  | .vRsqr _ _ => none
  | .vRsqf _ _ => none
  | .vTanhr _ _ => none
  | .vTanhf _ _ => none
  | .vSinr _ _ => none
  | .vSinf _ _ => none
  | .vCosr _ _ => none
  | .vCosf _ _ => none
  | .xCvt _ => none
  | .xBpt _ => none
  | .xTrr _ => none
  | .xTrc _ => none
  | .xMxq _ => none
  | .xMxd _ => none
  | .xSaq _ => none
  | .xPack _ => none
  | .xUnpk _ => none
  | .xVtos _ => none
  | .xStov _ => none
  | .mRun8 _ => none
  | .mRun4 _ => none
  | .mRunt _ => none
  | .mWin _ => none
  | .mWsc _ => none
  | .mSwap _ => none
  | .mProm _ => none
  | .mDrain _ => none
  | .mZrd _ => none
  | .mBrd _ => none
  | .mZclr _ => none
  | .mFold _ => none
  | .mClip _ => none
  | .mCal _ => none
  | .mPin _ => none
  | .swapExchange => none
  | .passEnd => none
  | .promotion => none
  | .driftCapRise => none
  | .columnRetrim => none
  | .backgroundCalibration => none
  | .rebuildComplete => none
  | .changeOfRoles => none
  | .eCpush _ => none
  | .eCpop _ => none
  | .eGidx _ => none
  | .eBarm _ => none
  | .eBexp _ => none
  | .eBarv _ => none
  | .eCq _ => none
  | .eCqi _ => none
  | .eCqpop _ => none
  | .eOsend _ => none
  | .eUsend _ => none
  | .eCsend _ => none
  | .eRecv _ => none
  | .eSpawn _ => none
  | .eDec _ => none
  | .eDone _ => none
  | .eArm _ => none
  | .ePrime _ => none
  | .bundleEntry => none
  | .bundleCommit => none
  | .resultLand => none
  | .restartMarkEstablish => none
  | .stampDue => none
  | .preciseFault => none
  | .engineFault => none
  | .replayAck => none
  | .replayNak => none
  | .retryBackoffExpiry => none
  | .garmStore => none
  | .gprimeStore => none
  | .gctlResume => none
  | .gctlRestart => none
  | .gctlAbandon => none
  | .abandonComplete => none
  | .successorDecrement => none
  | .spawnAtHomeRennet => none
  | .dispatch => none
  | .stagedDispatch => none
  | .displacementRequest => none
  | .yield => none
  | .yieldTimeout => none
  | .preemptWritebackDone => none
  | .fusionChange => none
  | .podRecordForward => none
  | .podRecordResponse => none
  | .churnParamWrite => none
  | .churnGoWrite => none
  | .copyStart => none
  | .copyComplete => none
  | .granuleHoldRelease => none
  | .gatherRowDeliver => none
  | .barrierArm => none
  | .barrierExpect => none
  | .barrierArrival => none
  | .curdQueryAccept => none
  | .curdResultDeliver => none
  | .curdProgramStart => none
  | .curdRefreshWindow => none
  | .qNop w => some (packQ w 0x0 0 0 0 0 0)
  | .qArg w d imm => some (packQ w 0x1 d 0 0 0 imm)
  | .qAddi w d a imm => some (packQ w 0x2 d a 0 0 imm)
  | .qRd w d a f => some (packQ w 0x3 d a 0 f 0)
  | .qWr w a b f => some (packQ w 0x4 0 a b f 0)
  | .qLook w d a b => some (packQ w 0x5 d a b 0 0)
  | .qLerp w d a b => some (packQ w 0x6 d a b 0 0)
  | .qTld w a b imm => some (packQ w 0x7 0 a b 0 imm)
  | .qAdd w d a b => some (packQ w 0x8 d a b 0 0)
  | .qAdds w d a b => some (packQ w 0x8 d a b 1 0)
  | .qSub w d a b => some (packQ w 0x8 d a b 2 0)
  | .qSubs w d a b => some (packQ w 0x8 d a b 3 0)
  | .qExt w d a imm => some (packQ w 0x9 d a 0 0 imm)
  | .qExts w d a imm => some (packQ w 0x9 d a 0 1 imm)
  | .qIns w d a b imm => some (packQ w 0xA d a b 0 imm)
  | .qLoop w a imm => some (packQ w 0xB 0 a 0 0 imm)
  | .qEnd w => some (packQ w 0xC 0 0 0 0 0)
  | .walkerRequest => none
  | .routineTimeout => none
  | .wkLdp t s d => some (packWk 0 t s d)
  | .wkLdh t s d => some (packWk 1 t s d)
  | .wkDone t s d => some (packWk 2 t s d)
  | .wkFail t s d => some (packWk 3 t s d)
  | .wkInv t s d => some (packWk 4 t s d)
  | .wkChn t s d => some (packWk 5 t s d)
  | .hostHandoverAnswer => none
  | .handoverTimeout => none
  | .sliceRetire => none
  | .sliceRestore => none
  | .eccError => none
  | .sramScrub => none
  | .dramPatrolScrub => none
  | .dramRefresh => none
  | .telemetry => none
  | .parityRotationCopy => none
  | .parityRotationSwitch => none
  | .thermalReading => none
  | .powerPacing => none
  | .flitReceive => none
  | .linkNakReceive => none
  | .beaconSend => none
  | .orderedInject => none
  | .orderedDeliver => none
  | .circuitSlotSend => none
  | .circuitDeliver => none
  | .receiveRingWrite => none
  | .portDown => none
  | .portTrained => none
  | .portTrainingTimeout => none
  | .watermarkStall => none
  | .packetHeldTimeout => none
  | .podTimeSlew => none
  | .podTimeDrift => none
  | .lockstepSignatureSend => none
  | .lockstepSignatureReceive => none
  | .lockstepSignatureTimeout => none
  | .cxlLinkDown => none
  | .hostCxlMemAccess => none
  | .mgmtRegisterWrite => none
  | .ctxwinWrite => none
  | .invselWrite => none
  | .ckillWrite => none
  | .domainWrite => none
  | .keyWrite => none
  | .dbgcGo => none
  | .rslenWrite => none
  | .routineStoreWrite => none
  | .attgoWrite => none
  | .porterrClear => none
  | .reset => none
  | .readyBitSet => none
  | .cxlCompletionTimeout => none

/-- The word of an instruction: a slot word with its control bit clear, a curd word or a walker word; none where the
step has no word. -/
def encode (i : Instr) : Option (BitVec 32) :=
  match encodeSlot i with
  | some w => some (w.setWidth 32)
  | none => encodeWord i

/-! ### Bundles -/

/-- A decoded bundle: its control bits (R188) and, of each slot, the instruction of its queue entry (none: a
no-operation). -/
structure Bundle where
  stop : Bool
  sync : Bool
  mark : Bool
  yld : Bool
  stamp : Option (BitVec 31)
  bcast : Bool
  slots : List (Option Instr)
  deriving DecidableEq, Repr

/-- Slot word n of the 32 bytes of a bundle, little-endian (R187). -/
def slotWord (x : BitVec 256) (n : Nat) : BitVec 32 := x.extractLsb' (32 * n) 32
/-- Bit 31 of slot word n. -/
def controlBit (x : BitVec 256) (n : Nat) : Bool := x.getLsbD (32 * n + 31)

/-- Slot word n under the stamp rule: slot word 0 of a STAMPED bundle is a stamp and no instruction (R188, R378). -/
def slotPayload (x : BitVec 256) (n : Nat) : BitVec 31 :=
  if n = 0 && controlBit x 4 then 0 else (slotWord x n).setWidth 31

/-- The destinations that slot word n names. DEDUCED: a word names its destination when its major and fn are assigned,
whatever other row of R377 it breaks. -/
def wordDests (x : BitVec 256) (n : Fin 8) : List Dest :=
  let w := slotPayload x n.val
  if w = 0 then []
  else match candidate n w with
    | .ok i => (namedDests i).filter Dest.counted
    | .error _ => []

/-- Slot n names a destination that another slot of the bundle names (R381). -/
def duplicated (x : BitVec 256) (n : Fin 8) : Bool :=
  (wordDests x n).any fun d => (List.finRange 8).any fun m => m ≠ n && (wordDests x m).contains d

/-- The code that slot n of a bundle takes: the first row of R377 it matches, in the table's order (R378). -/
def slotCode (x : BitVec 256) (n : Fin 8) : Option EncCode :=
  if (n = 6 || n = 7) && controlBit x n.val then some 0x0105
  else match decodeSlot n (slotPayload x n.val) with
    | .error c => some c
    | .ok _ =>
      if n = 4 && controlBit x 4 && controlBit x 3 then some 0x0304
      else if duplicated x n then some 0x0201
      else none

/-- SCODE of a bundle's encoding check: the code of each slot, or none (R378). -/
def slotCodes (x : BitVec 256) : List (Option EncCode) := (List.finRange 8).map (slotCode x)

/-- A bundle that matches no row of R377, or the codes of its slots. -/
def decodeBundle (x : BitVec 256) : Except (List (Option EncCode)) Bundle :=
  if (slotCodes x).all Option.isNone then
    .ok { stop := controlBit x 0, sync := controlBit x 1, mark := controlBit x 2, yld := controlBit x 3,
          stamp := if controlBit x 4 then some ((slotWord x 0).setWidth 31) else none,
          bcast := controlBit x 5,
          slots := (List.finRange 8).map fun n =>
            match decodeSlot n (slotPayload x n.val) with
            | .ok i => i
            | .error _ => none }
  else .error (slotCodes x)

/-! ### The words of the opcode table -/

/-- The instruction of a table word: the curd and walker rows are the rows with words of their own. A word that is both
a q.arg and a wk word by its bits is read as the curd word, the table's earlier row (log 16). -/
def decodeTableWord (nbits w : Nat) : Option Instr :=
  if nbits = 32 then
    match decodeCurd (BitVec.ofNat 32 w) with
    | .ok i => some i
    | .error _ => decodeWalker (BitVec.ofNat 32 w)
  else none

end Sys2Proof
end

