-- ==== Sys2Proof/Machine/Sparse.lean ====
section
/-! DEFINITION. Sparse maps: a list of key and value pairs with strictly rising keys and no entry equal to what an
unlisted key reads as, so that equal maps are equal lists. The machine's memory is one of them. -/

namespace Sys2Proof.Machine

/-- Key and value pairs, keys strictly rising. -/
abbrev SMap (α : Type) := List (Nat × α)

/-- The value of key k; dflt where k is not listed. -/
def sget {α : Type} (dflt : α) : SMap α → Nat → α
  | [], _ => dflt
  | (k', v) :: m, k => if k = k' then v else if k < k' then dflt else sget dflt m k

/-- Key k holds v: an entry equal to dflt is taken out. -/
def sset {α : Type} [DecidableEq α] (dflt : α) : SMap α → Nat → α → SMap α
  | [], k, v => if v = dflt then [] else [(k, v)]
  | (k', v') :: m, k, v =>
    if k < k' then (if v = dflt then (k', v') :: m else (k, v) :: (k', v') :: m)
    else if k = k' then (if v = dflt then m else (k, v) :: m)
    else (k', v') :: sset dflt m k v

/-- Every key of m is above b, keys rise strictly, and no entry is dflt. -/
def wfAbove {α : Type} [DecidableEq α] (dflt : α) : Nat → SMap α → Bool
  | _, [] => true
  | b, (k, v) :: m => decide (b ≤ k) && decide (v ≠ dflt) && wfAbove dflt (k + 1) m

/-- The canonical form. -/
def swf {α : Type} [DecidableEq α] (dflt : α) (m : SMap α) : Bool := wfAbove dflt 0 m

end Sys2Proof.Machine
end

