-- ==== Sys2Proof/Machine/State.lean ====
section
/-! DEFINITION. The state of one Skollail device as plain data: the registers of its 128 cores, its clusters, towers and
hub, its memory, and the steps that are due. The reset values are those of INVENTORY.md's State list; a value that the
spec does not give is named in the assumption log. -/

namespace Sys2Proof.Machine

/-- The reasons a step can stop. -/
inductive Fault where
  /-- An instruction of a walker routine names a device physical address that no frame of the tower has (R41, R55); raised by
  wk.ldp and by the RV64 loads and stores of a routine; safe: the hardware may go on. -/
  | noSuchFrame
  deriving DecidableEq, Repr

/-- The reasons a step can be refused. -/
inductive Refusal where
  /-- The instruction has no meaning in this model yet; raised by the arms of Dispatch only; safe. -/
  | notModelled (mnemonic : String)
  deriving DecidableEq, Repr

/-- What an event comes with: which core, tower or unit, and the values the outside world or an engine brings. Each
event's meaning says which of these it reads. A model's own field, not the spec's. -/
structure Occasion where
  core : CoreId
  tower : TowerId
  unit : Nat
  addr : Word
  value : Word
  extra : Word
  data : List Byte
  deriving DecidableEq, Repr

/-- The agents that take turns when no event is due. A model's own field. -/
inductive Actor where
  | core (c : CoreId)
  | curd (t : TowerId)
  | walker (t : TowerId)
  deriving DecidableEq, Repr

/-! ### A core -/

/-- A physical register that a result in flight is for (R205, R209, R357). -/
inductive RegRef where
  | s (n : BitVec 6) | p (n : BitVec 4) | v (n : BitVec 6) | k (n : BitVec 3)
  deriving DecidableEq, Repr

/-- An A, V or X result in flight: rem is the number of entries of its slot still to pass before it is seen (R205); a
result without a register drives only bc (R208). -/
structure InFlight where
  slot : Fin 8
  reg : Option RegRef
  value : Vec
  rem : Nat
  bc : Bool
  deriving DecidableEq, Repr

/-- A write of the group in progress: what the register showed before it (R203, R382). -/
structure GroupWrite where
  slot : Fin 8
  reg : RegRef
  old : Vec
  deriving DecidableEq, Repr

/-- The open gather: register state (R321, R443). -/
structure Gather where
  tmpl : BitVec 8
  chan : BitVec 4
  ctx : BitVec 16
  gen : BitVec 8
  bundle : Word
  /-- Which of the core's gathers it is. A model's own field. -/
  serial : Nat
  deriving DecidableEq, Repr

/-- An index that Churn has accepted and whose row is not there yet: the gather it belongs to, the bundle of its e.gidx,
the index, and whether it closes the gather (R321, R443). -/
structure GatherIndex where
  gather : Gather
  bundle : Word
  index : BitVec 32
  last : Bool
  deriving DecidableEq, Repr

/-- The register state that a restart mark shadows and a precise fault restores (R212, R213). -/
structure Regs where
  /-- s0 to s63 (R191); entry 0 stays zero. -/
  s : Vector Word 64
  /-- p0 to p15 (R191); bit 0 stays one. -/
  p : BitVec 16
  /-- k0 to k7 (R191). -/
  k : Vector Mask 8
  /-- v0 to v63 by physical register (R191, R209). -/
  v : Vector Vec 64
  /-- h0 to h31: cursors above the descriptor (R248); entry 0 holds nothing. -/
  h : Vector (BitVec 704) 32
  /-- n0 to n5 (R230). -/
  n : Vector Word 6
  /-- The broadcast port's value (R208). -/
  bc : Word
  nflags : Word
  rot : Word
  /-- A ROT that was written and applies from the next group on (R210). -/
  rotNext : Option Word
  xmode : Word
  srseed : Word
  srstr : Word
  trapv : Word
  tret : Word
  targ : Word
  /-- BASE, SLOG and AUTO of STATQ (R239); OVF and LVL belong to the core's queue. -/
  statq : Word
  statw : Word
  ldep : Word
  lcnt : Vector Word 4
  ladd : Vector Word 4
  msetup : Word
  mpin : Word
  /-- Results in flight, oldest first (R205, R206). -/
  fly : List InFlight
  gather : Option Gather
  deriving DecidableEq, Repr

/-- A tile as an access finds it: tensor, tile number and tile-table entry (R45, R46). -/
structure Place where
  tid : BitVec 16
  tile : Nat
  tte : BitVec 64
  deriving DecidableEq, Repr

/-- One byte of a held store: the bits of val under msk go to byte off of the tile (R214, R255). -/
structure StoreByte where
  place : Place
  off : Nat
  val : Byte
  msk : Byte
  deriving DecidableEq, Repr

/-- An engine push as R357 holds a withdrawn one: the instruction word, s[a] and s[b] as read at issue, and the vector
operand where there is one, with the bundle it came from. -/
structure Push where
  word : BitVec 32
  a : Word
  b : Word
  v : Vec
  bundle : Word
  deriving DecidableEq, Repr

/-- An entry of the restart gate (R214); an atomic comes with its word's tile of the flat view and memory key, a push with the memory key of the object that it was translated to. -/
inductive GateEntry where
  | store (bundle : Word) (bytes : List StoreByte)
  | com (bundle : Word) (op : Fin 11) (tile key : Nat) (y : Word)
  | quant (bundle : Word) (tile key : Nat) (y : Word) (q : BitVec 4)
  | push (p : Push) (key : Nat)
  deriving DecidableEq, Repr

/-- Where the data of an outstanding load come from. -/
inductive LoadData where
  /-- An element: bit offset in the tile, width in bits, sign extension (R255). -/
  | element (p : Place) (bit width : Nat) (signed : Bool)
  /-- A row: the lanes that are read, over the register as it stood at issue with the lanes beyond DIM0 zero (R256). -/
  | row (width : Nat) (base : Vec) (lanes : List (Nat × Place × Nat))
  /-- A descriptor at a byte offset of a tile (R258). -/
  | descriptor (p : Place) (off : Nat)
  /-- A value that an atomic returned (R262). -/
  | word (w : Word)
  deriving DecidableEq, Repr

/-- An outstanding load, l.hld or returning atomic (R252). -/
structure Load where
  slot : Fin 8
  bundle : Word
  dst : BitVec 6
  inv : Bool
  data : LoadData
  /-- The slice-map version in force at its issue (R40). -/
  mapv : BitVec 8
  deriving DecidableEq, Repr

/-- An element that a pop of the current bundle took, to be presented again if the bundle does not commit (R75). -/
inductive PopRec where
  /-- A row of the gather of that serial. -/
  | gatherRow (serial : Nat) (row : Vec)
  | curdRow (row : Vec)
  | statRecord (r : BitVec 256)
  /-- A claimed record of the completion ring whose header is at key (R320). -/
  | ring (key : Nat) (entry : BitVec 256)
  /-- A claimed slot of receive queue q (R326). -/
  | receive (q : Nat) (slot : Word) (bytes : Nat)
  deriving DecidableEq, Repr

/-- What a Churn has read for a gather as it opened it (R310, R321): the status of the reading, the template and the source
descriptor. A model's own record. -/
structure GatherOpen where
  status : Code
  tmpl : BitVec 1024
  src : BitVec 512
  deriving DecidableEq, Repr

/-- A gather whose opening has left the core (R321): whether its last index has left too, so that it closes of itself (R442),
whether it is a saved one that Churn reopens (R443), and what Churn has read for it. -/
structure LiveGather where
  gather : Gather
  closed : Bool
  reopened : Bool
  opening : Option GatherOpen
  deriving DecidableEq, Repr

/-- How the current bundle ends beyond its commit. -/
inductive Ending where
  | goOn
  | brk (num : BitVec 16)
  | halt
  | done
  deriving DecidableEq, Repr

/-- An object that a wait waits for: WKIND, WOBJ and WARG of R356, the key of the word at its home, and the slot. -/
structure Wait where
  kind : Nat
  obj : Word
  arg : Word
  key : Nat
  slot : Fin 8
  dst : BitVec 6
  deriving DecidableEq, Repr

/-- A bundle between its entry and its commit (R152, R211). -/
structure Current where
  pc : Word
  bundle : Bundle
  /-- The slots whose entries have not issued. -/
  left : List (Fin 8)
  /-- The bundle waits for the clk of its stamp (R158). -/
  stampWait : Bool
  /-- The register state before the bundle (R212). -/
  pre : Regs
  /-- Gate entries before the bundle. -/
  gateLen : Nat
  /-- Slot, code and INFO of each fault so far (R383). -/
  faults : List (Fin 8 × Code × Word)
  /-- The writes of the instruction group before the bundle (R202). -/
  preGroup : List GroupWrite
  /-- Flags raised so far, in the order of NFLAGS[5:0] (R103). -/
  flags : BitVec 6
  /-- The next bundle as the C slot chose it, and whether a control transfer was taken (R225, R232). -/
  next : Word
  taken : Bool
  /-- Control-register writes that take effect at the commit: opcode 0x0B to 0x0D, number, source (R236). -/
  crWrites : List (Nat × Nat × Word)
  pops : List PopRec
  /-- A barrier wait of the bundle is met: the full acquire comes with the commit (R86, R235). -/
  acquire : Bool
  /-- The C entry issued as a no-operation (R239). -/
  cIdle : Bool
  /-- Implicit marks bracket the bundle (R215, R291). -/
  bracketed : Bool
  ending : Ending
  deriving DecidableEq, Repr

/-- The loop buffer of a core (R154): the first bundle of the body that it holds, whether that body runs from the front end, and the
bundles captured, by address. -/
structure LoopBuffer where
  first : Word
  off : Bool
  words : List (Word × BitVec 256)
  deriving DecidableEq, Repr

/-- The restart point (R213): the register state at the boundary and the bundle after it. -/
structure Shadow where
  regs : Regs
  pc : Word
  deriving DecidableEq, Repr

/-- One L1 line (R32, R61): its tag, where its bytes live, its bytes, the dirty bytes, and the poisoned words. -/
structure L1Line where
  ctx : BitVec 16
  gen : BitVec 8
  tid : BitVec 16
  tile : Nat
  line : Nat
  home : Nat
  data : BitVec 1024
  dirty : BitVec 128
  inv : Bool
  bad : SMap Code
  deriving DecidableEq, Repr

/-- A word of the quantum buffer (R80). -/
structure QuantumWord where
  key : Nat
  sum : Word
  q : BitVec 4
  deriving DecidableEq, Repr

/-- A queue that a replay window is for (R148, R151): destination kind, unit and channel. -/
structure Dest4 where
  kind : Nat
  unit : Nat
  chan : Nat
  deriving DecidableEq, Repr

/-- An entry of a replay window (R149): its destination, sequence number, consecutive refusals, and the push. -/
structure ReplayEntry where
  dest : Dest4
  seq : BitVec 8
  naks : Nat
  /-- The clk until which the sender holds the entry after a NAK (R150). -/
  held : Option Nat
  key : Nat
  push : Push
  /-- The record, context and generation that pushed it, and the bound of a pre-emptor (R360). -/
  record : Word
  ctx : BitVec 16
  gen : BitVec 8
  rbank : Option (BitVec 32)
  /-- The payload of an e.usend as it left the gate, or the circuit entry of an e.csend (R325); and the pod time then (R178). -/
  payload : List Byte
  exit : Word
  deriving DecidableEq, Repr

/-- The launch descriptor's fields as they apply to a node (R137). -/
structure Launch where
  det : Bool
  lock : Bool
  t0 : Word
  flen : BitVec 5
  lpeer : BitVec 16
  rbank : BitVec 32
  deriving DecidableEq, Repr

/-- What a core holds of the record it runs (R13, R26). rbank is the displaced record's reserve partition when the
record is a pre-emptor (R360); savePa is the first frame of the save area as a memory key (R355). -/
structure Running where
  record : Word
  recKey : Nat
  inst : Word
  instKey : Nat
  ctx : BitVec 16
  gen : BitVec 8
  level : BitVec 2
  group : BitVec 8
  prio : BitVec 2
  yseq : Word
  saveKey : Nat
  saveFlat : Word
  home : TowerId
  stamp : BitVec 32
  pickup : Nat
  launch : Launch
  preemptor : Option (BitVec 32)
  deriving DecidableEq, Repr

/-- Sequence mode (R351, R352): the STATE that the record takes when a save sequence ends. -/
inductive SeqMode where
  | none
  | save (state : BitVec 4)
  | restore
  deriving DecidableEq, Repr

/-- The open promotion group (R119 to R121). -/
structure Group where
  z : BitVec 4
  m : Nat
  wfmt : BitVec 8
  afmt : BitVec 8
  p : Nat
  wsh : BitVec 5
  wrow : BitVec 32
  zcg : Nat
  obg : Nat
  ng : Nat
  ea : List Byte
  /-- sw of the delivered outputs, from output 128 × OBG upward. -/
  sw : List (BitVec 32)
  passes : Nat
  /-- The sum of 3 × DEPTH × Apair(SEFF) over the passes. -/
  bound : Nat
  /-- The clip excess of (m, column), at 1,536 × m + column of NB. -/
  cx : SMap Nat
  sat : Bool
  bundle : Word
  deriving DecidableEq, Repr

/-- A pass between its issue and its end (R128), with what it bound at its issue. -/
structure Pass where
  seq : BitVec 16
  bundle : Word
  z : BitVec 4
  sp : Nat
  m : Nat
  wfmt : BitVec 8
  pa : Nat
  /-- Plane j of row m, 2,048 bits, at Pa × m + j. -/
  planes : List (BitVec 2048)
  seff : Nat
  order : Vector (BitVec 3) 4
  par : BitVec 3
  fb : BitVec 4
  recon : Bool
  det : Bool
  gpos : Nat
  early : Bool
  promo : Bool
  half : Bool
  zcg : Nat
  obg : Nat
  ng : Nat
  fdst : BitVec 6
  nored : Bool
  restarts : Nat
  /-- NB and the group's state as they stood at the issue (R420). -/
  nb : SMap (BitVec 32)
  cx : SMap Nat
  sat : Bool
  poisoned : Bool
  deriving DecidableEq, Repr

/-- A promotion that has been started and not yet performed (R292). -/
structure Promo where
  group : Group
  nb : SMap (BitVec 32)
  seq : BitVec 16
  deriving DecidableEq, Repr

/-- The matrix engine of a core (05, 12). -/
structure Matrix where
  /-- z0 to z15: word x × 24,576 + row × 1,536 + column (R207). -/
  z : SMap (BitVec 32)
  /-- The bound companions, in the same places (R121). -/
  zb : SMap (BitVec 16)
  /-- The narrow-sum buffer: row × 1,536 + column (R119). -/
  nb : SMap (BitVec 32)
  zmap : BitVec 192
  group : Option Group
  passes : List Pass
  promos : List Promo
  /-- Which half is active (R129). -/
  half : Bool
  swpc : BitVec 8
  swaps : Nat
  /-- Column clip flags: physical tier × 3,072 + macro × 256 + column (R123). -/
  clip : SMap Bool
  /-- Column trims, in the same places (R124). -/
  trim : SMap (BitVec 6)
  /-- The trims from the next pass on. -/
  nextTrim : SMap (BitVec 6)
  /-- Columns that are counted digitally, in the same places (R423). -/
  digital : SMap Bool
  fold : Word
  seq : BitVec 16
  /-- ORDER and PAR of the previous pass (R132). -/
  lastMap : Option (BitVec 15)
  /-- A pass has been issued since the pick-up (R302). -/
  ran : Bool
  calReq : Bool
  deriving DecidableEq, Repr

/-- One core. -/
structure Core where
  regs : Regs
  shadow : Shadow
  gate : List GateEntry
  /-- The first entries of the gate that lie before the restart point and wait for room in their windows (R151). -/
  freed : Nat
  loads : List Load
  current : Option Current
  /-- The register writes of the instruction group in progress (R202, R382). -/
  group : List GroupWrite
  loopBuf : Option LoopBuffer
  /-- The bundle that the front end enters next. -/
  pc : Word
  /-- The last committed bundle, 0 if none since the pick-up (R385). -/
  lastc : Word
  /-- The call-return prediction stack, top first (R227). -/
  returns : List Word
  /-- The statistics queue, oldest first (R238), OVF of STATQ and SEQ of the next record. -/
  stats : List (BitVec 256)
  statOvf : Bool
  statSeq : BitVec 32
  /-- The gather data queue (R261): rows with the serials of their gathers, oldest first. -/
  rows : List (Nat × Vec)
  /-- The accepted indices without a row, oldest first. -/
  gidx : List GatherIndex
  /-- The gathers that are not over, oldest first (R321, R442). -/
  live : List LiveGather
  /-- Gathers that the core has opened, for their serials. A model's own field. -/
  gathers : Nat
  /-- The curd result queue, oldest first (R324). -/
  results : List Vec
  replay : List ReplayEntry
  /-- The next sequence number of each destination (R149). -/
  sendSeq : List (Dest4 × BitVec 8)
  /-- The number that each destination's consumer expects next from this core (R149). -/
  expected : List (Dest4 × BitVec 8)
  quantum : List QuantumWord
  /-- The L1, most recently used line first (R32). -/
  l1 : List L1Line
  /-- The copy of the region binding table (R265). -/
  binds : Vector (BitVec 256) 64
  run : Option Running
  seqMode : SeqMode
  /-- s60 to s63 of the continuation in sequence mode (R351), and RES. -/
  scr : Vector Word 4
  res : Word
  ypt : Word
  /-- INST of the previous pick-up (R73). -/
  lastInst : Word
  /-- DBGC.STOP and NUM (R241). -/
  stopped : Bool
  brkNum : BitVec 16
  stall : Option Wait
  /-- A displacement request pending, and the clk at which it arrived (R349). -/
  displace : Option Nat
  /-- RBANK of the record last displaced from this core, for its pre-emptor (R360). -/
  preRbank : Option (BitVec 32)
  aff : Bool
  held : Word
  hmode : Word
  flatb : Word
  rngt : Word
  bindb : Word
  cirt : Word
  podgb : Word
  tmplb : Word
  retry : Word
  mat : Matrix
  /-- When the core last went idle (R142). -/
  idleSince : Nat
  deriving DecidableEq, Repr

/-- The serving target of a ready queue (R134). -/
inductive Target where
  | core (c : CoreId)
  | cluster (x : ClusterId)
  | tower
  | churn (x : ClusterId)
  | hubChurn
  | curd
  deriving DecidableEq, Repr

/-- An entry of a ready queue (R135, R136): the record, where it is, its instance, and the stamp. head is set for a record
that forced pre-emption placed at the head. -/
structure ReadyEntry where
  target : Target
  prio : BitVec 2
  record : Word
  recKey : Nat
  inst : Word
  instKey : Nat
  ctx : BitVec 16
  gen : BitVec 8
  stamp : BitVec 32
  head : Bool
  /-- The core the record may run on alone (R359). -/
  only : Option CoreId
  level : BitVec 2
  deriving DecidableEq, Repr

/-! ### Clusters -/

/-- Who asked for a copy (R310, R411). -/
inductive CopySource where
  | push (c : CoreId) (bundle : Word)
  | host
  | node (t : TowerId) (e : ReadyEntry)
  /-- The ticket names one run of a staging list. -/
  | staging (t : TowerId) (c : CoreId) (ticket : Nat)
  deriving DecidableEq, Repr

/-- A copy request, or an opened gather, in a channel's queue (R319). -/
structure CopyReq where
  param : Word
  tmpl : BitVec 8
  /-- The gather that it opens, by its key; none for a copy. -/
  gath : Option Nat
  ctx : BitVec 16
  gen : BitVec 8
  rbank : Option (BitVec 32)
  source : CopySource
  /-- Which of the channel's copies it is, from 1 (R315). -/
  ordinal : BitVec 32
  deriving DecidableEq, Repr

/-- A copy that runs (R313): the template as read, the next element in nest order, what has been written, the status and
the latched swap count (R130). -/
structure Copy where
  req : CopyReq
  tmpl : BitVec 1024
  src : BitVec 512
  dst : BitVec 512
  pos : Nat
  bytes : Nat
  lo : Nat
  hi : Nat
  flags : BitVec 6
  status : Code
  fcode : Code
  latch : List (CoreId × BitVec 8)
  ended : Bool
  /-- A granule waits for a pass (R130), since the clk in held. -/
  hold : Bool
  /-- Refusals of the completion record by a full ring, and the clk until which it is held (R150, R316). -/
  naks : Nat
  held : Nat
  /-- The bits at their home that the latest elements have written without a gap: from runLo up to runHi. -/
  runLo : Nat
  runHi : Nat
  deriving DecidableEq, Repr

/-- One channel of a Churn (R183). -/
structure Channel where
  queue : List CopyReq
  running : Option Copy
  param : Word
  /-- Copies accepted since reset (R315). -/
  seq : BitVec 32
  /-- The binding register of BAR 0 (R184, R186). -/
  binding : Word
  deriving DecidableEq, Repr

/-- One cluster: fusion state, requested fusion, bank formats (R34), its Churn. -/
structure Cluster where
  fused : Bool
  fuseReq : Option Bool
  bankfmt : Vector (BitVec 32) 32
  chans : Vector Channel 16
  /-- RETRY of the Churn (R150). -/
  retry : Word
  deriving DecidableEq, Repr

/-! ### Towers -/

/-- An entry of the tile cache of a layout unit of the tower (R49). -/
structure TileEntry where
  unit : Nat
  ctx : BitVec 16
  gen : BitVec 8
  tid : BitVec 16
  tile : Nat
  tte : BitVec 64
  deriving DecidableEq, Repr

/-- A request to a walker, in the registers of R54, with the core that waits for it and its destination register. -/
structure WalkReq where
  kind : Nat
  /-- The suspended record that waits for the answer, if no core does (R266). -/
  record : Word
  ctx : BitVec 16
  gen : BitVec 8
  a2 : Word
  a3 : Word
  acc : Nat
  tag : BitVec 16
  tid : BitVec 16
  core : Option CoreId
  dst : BitVec 6
  /-- The entry word of its routine (R54). -/
  entry : Nat
  /-- The layout unit that asks for a tile, the tile, and the leaf that a host-range request resolves (R49, R58). -/
  unit : Nat
  tile : Nat
  leaf : BitVec 64
  deriving DecidableEq, Repr

/-- The walker's answer to a request of a layout unit, until the access that is held for it has been replayed (R49, R55): the code
that it failed with, or 0 and the entry. -/
structure WalkAnswer where
  unit : Nat
  ctx : BitVec 16
  gen : BitVec 8
  tid : BitVec 16
  tile : Nat
  code : Code
  tte : BitVec 64
  deriving DecidableEq, Repr

/-- The walker core (R53 to R56): x0 to x31, pc, the machine-mode trap registers, its requests. -/
structure Walker where
  x : Vector Word 32
  pc : Word
  mstatus : Word
  mtvec : Word
  mepc : Word
  mcause : Word
  mtval : Word
  running : Bool
  queue : List WalkReq
  cur : Option WalkReq
  nextTag : BitVec 16
  /-- The clk at which the routine started (R53). -/
  since : Nat
  deriving DecidableEq, Repr

/-- A handover that waits for the host's answer (R58): the request, the range entry's index, and the clk at which the host
was signalled (R438). -/
structure Handover where
  req : WalkReq
  index : Nat
  acquire : Bool
  since : Nat
  deriving DecidableEq, Repr

/-- A record of this tower that waits in state 3 (R234), or for a walker (R266). -/
structure Suspended where
  entry : ReadyEntry
  wait : Wait
  deriving DecidableEq, Repr

/-- An acquire that waits at a sync object's home, in order of arrival (R71). -/
structure SyncWait where
  key : Nat
  excl : Bool
  ctx : BitVec 16
  gen : BitVec 8
  /-- The stalled core, or none for a suspended record. -/
  core : Option CoreId
  record : Word
  granted : Bool
  deriving DecidableEq, Repr

/-- An armed instance of this home tower (R21, R156). -/
structure Armed where
  hdr : Word
  hdrKey : Nat
  ctx : BitVec 16
  gen : BitVec 8
  launch : Launch
  /-- The cores of a deterministic partition. -/
  part : BitVec 128
  abandoned : Bool
  /-- Records that a spawn or an engine-slot decrement has named: with those that the roots reach, the instance's. -/
  named : List Word
  /-- The device, tag and home tower of the request that brought a record of another device here, whose instance this entry stands
  for (R181). -/
  origin : Option (BitVec 16 × BitVec 16 × TowerId)
  deriving DecidableEq, Repr

/-- A continuation that forced pre-emption has taken off its core, whose record is written once the core's dirty lines
have been written back (R359). -/
structure Displaced where
  core : CoreId
  run : Running
  aff : Bool
  deriving DecidableEq, Repr

/-- A record whose operands are being staged (R146). -/
structure Staging where
  entry : ReadyEntry
  core : CoreId
  list : List (BitVec 128)
  /-- An entry had MACRO = 1 (R356). -/
  mac : Bool
  failed : Code
  /-- Which run of a staging list it is, a model's own field; and whether its last copy has ended. -/
  ticket : Nat
  ended : Bool
  deriving DecidableEq, Repr

/-- An instance in the launch cache (R139, R140): its header and the context that tags it, and the 128-byte lines that stand there, by
memory key / 128: of the header, the root list, the first root's record, and that root's ENTRY. -/
structure LaunchEntry where
  hdr : Word
  ctx : BitVec 16
  gen : BitVec 8
  lines : List Nat
  deriving DecidableEq, Repr

/-- An entry of the curd directory cache of a tower (R336): its index, its memory key, and the entry. -/
structure DirEntry where
  index : Nat
  key : Nat
  entry : BitVec 256
  deriving DecidableEq, Repr

/-- A combined commutative atomic (R79). -/
structure Combined where
  key : Nat
  op : Fin 11
  y : Word
  deriving DecidableEq, Repr

/-- A completion record of an instance that Rennet has not delivered yet: the RING and HEADER addresses, context, generation, the
record, its refusals, and the clk until which the back-off lasts (R150, R316). -/
structure Offer where
  ring : Word
  hdr : Word
  ctx : BitVec 16
  gen : BitVec 8
  entry : BitVec 256
  naks : Nat
  held : Nat
  deriving DecidableEq, Repr

/-- The array tiers of a tower (05, 18, 21). -/
structure Tiers where
  /-- Physical tier at K positions 0 to 3 (R113). -/
  map : Vector (BitVec 3) 4
  /-- The parity tier; 7 when none (R131). -/
  parity : BitVec 3
  /-- Temperatures in degrees Celsius. -/
  temp : Vector Nat 5
  skip : Option (BitVec 3)
  /-- Pacing by the thermal manager (R126), and by the power manager (R370). -/
  paced : Bool
  powered : Bool
  /-- Drift caps (R423). -/
  cap : Vector Nat 5
  failed : Option (BitVec 3)
  rebuilt : Bool
  rolesChanged : Bool
  /-- K positions that are lost (R408, R426). -/
  lost : BitVec 4
  down : BitVec 5
  /-- Residue mismatches: tier and clk (R419). -/
  residues : List (BitVec 3 × Nat)
  /-- A parity rotation whose copy is made (R373). -/
  rotating : Bool
  deriving DecidableEq, Repr

/-- A result of a curd instruction in flight: the program clock at which it is seen (R343). -/
structure CurdWrite where
  clock : Nat
  lane : Bool
  reg : BitVec 3
  value : BitVec 8192
  deriving DecidableEq, Repr

/-- One curd unit's registers (R343). -/
structure CurdUnit where
  i : Vector Word 8
  w : Vector (BitVec 8192) 8
  fly : List CurdWrite
  deriving DecidableEq, Repr

/-- A curd program that runs (R341 to R347). -/
structure CurdProgram where
  record : Word
  recKey : Nat
  inst : Word
  instKey : Nat
  ctx : BitVec 16
  gen : BitVec 8
  words : List (BitVec 32)
  pc : Nat
  clock : Nat
  lastRow : Option Nat
  refresh : Nat
  fu : Nat
  nu : Nat
  aw : Nat
  args : List Word
  wbase : Nat
  /-- The translations of the window's pages (R342). -/
  pages : List (BitVec 64)
  cflg : BitVec 6
  units : List CurdUnit
  /-- Rows written at a later program clock: clock, memory key, bytes (R345). -/
  writes : List (Nat × Nat × List Byte)
  /-- Blocks of lane rows loaded at a later program clock. -/
  loads : List (Nat × Nat × List (BitVec 32))
  deriving DecidableEq, Repr

/-- A curd query in flight (R324, R338): the push, the fractions of an interpolating one, its consecutive refusals and the
clk until which it is held after one, and the elements that the unit has formed, once accepted. -/
structure Query where
  core : CoreId
  push : Push
  ctx : BitVec 16
  gen : BitVec 8
  frac : Vec
  naks : Nat
  held : Nat
  result : Option (List Vec)
  /-- The continuation that pushed it has left the core: it runs on, and nothing waits for its row (R328). -/
  orphan : Bool
  deriving DecidableEq, Repr

/-- A line that the L2 of a tower holds (R38): the device physical address / 128, and whether it is dirty. Its bytes stand in the
memory of State, which shows each home's value (log 14). -/
structure L2Line where
  line : Nat
  dirty : Bool
  deriving DecidableEq, Repr

/-- One tower. -/
structure Tower where
  /-- The lines of the L2 slices, most recently used first (R38). -/
  l2 : List L2Line
  tiles : List TileEntry
  walked : List WalkAnswer
  retired : BitVec 32
  mapv : BitVec 8
  walker : Walker
  /-- The routine store, by byte (R53). -/
  store : SMap Byte
  rslen : BitVec 17
  handover : Option Handover
  mpool : Word
  ready : List ReadyEntry
  /-- RETRY of Rennet (R150). -/
  retry : Word
  podPos : SMap Nat
  launchCache : List LaunchEntry
  /-- The contexts whose table entries Rennet keeps, the latest first (R139). -/
  ctxKept : List (BitVec 16)
  staging : List Staging
  /-- Staging lists begun, for their tickets. A model's own field. -/
  stagings : Nat
  displaced : List Displaced
  armed : List Armed
  /-- Records sent to another device: tag, header key, record key and address (R181). -/
  forwarded : List (BitVec 16 × Nat × Nat × Word)
  /-- Requests sent, and records of other devices received: the next tag and the next place. A model's own fields. -/
  nextTag : BitVec 16
  foreign : Nat
  susp : List Suspended
  syncs : List SyncWait
  combine : List Combined
  claims : List Nat
  /-- Answers of this tower's walker to range requests of suspended records: record, 2 × index + 1 for a release, status
  (R266). -/
  answers : List (Word × Nat × Code)
  /-- Records that a full ring refused Rennet (R316). -/
  offers : List Offer
  tiers : Tiers
  curd : Option CurdProgram
  queries : List Query
  curdDir : Word
  /-- The directory cache, 64 entries, the latest first (R336). -/
  dirCache : List DirEntry
  /-- The clk until which the row port of a curd unit is taken (R338). -/
  rowPort : SMap Nat
  curdLs : Vector (BitVec 3) 12
  armb : Word
  deriving DecidableEq, Repr

/-! ### The hub -/

/-- A packet: its header (R166) and payload. -/
structure Packet where
  hdr : BitVec 256
  pay : List Byte
  deriving DecidableEq, Repr

/-- A flit on a link (R164): its header, the virtual channel that it goes on (R168), and which 224 bytes of which packet it carries; no
packet in a beacon. -/
structure Flit where
  seq : BitVec 12
  ack : BitVec 12
  wm : BitVec 40
  credits : Word
  chan : Nat
  packet : Option Packet
  part : Nat
  deriving DecidableEq, Repr

/-- A packet that an input port's pool holds until the hub can pass it on (R168): the port, 20 for a packet of this device's own, its
virtual channel, 32 + class for an escape channel, the flit buffers it takes, the clk of its arrival, and whether 0x5011 has been
reported of it. -/
structure InPacket where
  port : Nat
  chan : Nat
  flits : Nat
  since : Nat
  told : Bool
  packet : Packet
  deriving DecidableEq, Repr

/-- One link of the hub: ports 0 to 15, then the on-package links (R164, R429 to R432). -/
structure Port where
  up : Bool
  txSeq : BitVec 12
  rxSeq : BitVec 12
  /-- The retry buffer: flits sent and not acknowledged (R429). -/
  retry : List Flit
  /-- Parts of packets, with their virtual channels, that wait for room in it or for credits. -/
  waiting : List (Packet × Nat × Nat)
  /-- The free flit buffers of the partner's pool, and the buffers freed here since the last flit: dynamic ones in [15:0], the escape
  channel of class k in 8 bits from 16 + 8k on (R164, R168; log 18). -/
  credits : Word
  freed : Word
  /-- Bytes of the packet that a virtual channel has not yet brought whole (R164, R168). -/
  part : List (Nat × List Byte)
  /-- The expected sequence that the last NAK to the partner named, until a flit is accepted (R429). -/
  nak : Option (BitVec 12)
  iw : Word
  hasIw : Bool
  lastW : Word
  /-- Consecutive replays of the flit of a sequence number (R431). -/
  replays : Nat
  replayed : BitVec 12
  lastAccepted : Nat
  lastSent : Nat
  stalled : Bool
  err : Word
  lhop : Word
  deriving DecidableEq, Repr

/-- A circuit packet waiting for its slot, or held by the receiver until its delivery time (R178). -/
structure Circuit where
  slot : Nat
  /-- Pod time of the slot's start. -/
  start : Nat
  due : Word
  /-- It arrived after its delivery time. -/
  late : Bool
  packet : Packet
  deriving DecidableEq, Repr

/-- The signatures of a lockstep instance's frames (R161 to R163): its header's key and what its arming bound. -/
structure Lockstep where
  key : Nat
  ctx : BitVec 16
  gen : BitVec 8
  launch : Launch
  /-- Records not yet signed: SCLK of the gate exit, core, bytes. -/
  records : List (Nat × CoreId × List Byte)
  /-- The frame in progress, and the signatures without their counterpart, by frame. -/
  frame : Nat
  own : List (Nat × Word)
  partner : List (Nat × Word)
  /-- The frame in which the instance ended, once it has. -/
  last : Option Nat
  deriving DecidableEq, Repr

/-- The hub and the management space (07, 18, 22). -/
structure Hub where
  ready : Word
  devid : Word
  domain : Word
  rqtb : Word
  ctxtb : Word
  fwstat : Word
  fq : Vector Word 5
  fqvec : Vector Word 5
  ckill : Word
  htmo : Word
  ctxsel : Word
  invctx : Word
  invsel : Word
  /-- Towers whose walker has not reported the INVSEL invalidation. -/
  invLeft : BitVec 4
  keys : Vector (BitVec 512) 32
  keyst : BitVec 32
  ringv : SMap (BitVec 128)
  attn : BitVec 256
  attDone : Bool
  attRep : List Byte
  digest : BitVec 384
  fwver : BitVec 32
  telemetry : Nat
  chans : Vector (Vector Channel 16) 4
  ports : Vector Port 20
  podTime : Word
  /-- The last slew of pod time, and a count that the next clk omits (R170). -/
  slewClk : Nat
  omitNext : Bool
  /-- RETRY of the hub (R150). -/
  retry : Word
  /-- Ordered packets not yet stamped (R171), and held for delivery (R174). -/
  inject : List Packet
  reorder : List Packet
  /-- STAMP of the ordered packet delivered last (R174, R433). -/
  dmark : Word
  /-- SEQ of each source endpoint and class (R166): 8 × endpoint + class. -/
  seqs : SMap (BitVec 32)
  circuits : List Circuit
  arrived : List Circuit
  /-- Packets for a receive ring, in order of arrival (R179), and whether ordered delivery waits on a full ring. -/
  inbound : List InPacket
  /-- Headers of packets of other devices that a full ring has refused and that are not back yet (R149, R179). -/
  refused : List (BitVec 256)
  ringFull : Bool
  /-- One entry for each lockstep instance, until its last frame has been compared. -/
  lockstep : List Lockstep
  cxlUp : Bool
  /-- MSI-X vectors raised, latest first. -/
  raised : List (BitVec 11)
  /-- Claimed receive queues (R326). -/
  claims : List Nat
  deriving DecidableEq, Repr

/-! ### The device -/

/-- What a forced save holds beyond the bytes of its area, by the area's key (log 58): RES of the boundary whose save or restore
sequence it has interrupted, the withdrawn pushes with the bundles and keys that they came with, and the gathers, whose records
name bundles (R238). -/
structure Aside where
  base : Nat
  res : Option Word
  pushes : List (Push × Nat)
  gidx : List GatherIndex
  rows : List Nat
  live : List LiveGather
  gather : Option Gather
  deriving DecidableEq, Repr

/-- The state of the device. -/
structure State where
  /-- The step in progress comes with this occasion (log 15). -/
  now : Occasion
  /-- The events that are due, in order (log 15). -/
  agenda : List (Instr × Occasion)
  /-- The agent whose turn it is, and whether the engines' events that have become possible go first (log 15). -/
  actor : Actor
  engines : Bool
  /-- The arithmetic clock (log 5). -/
  clk : Nat
  /-- The counter that free values are applied to (log 4). -/
  freeN : Nat
  /-- DRAM of the towers, scratchpads, macro halves and host memory, by the keys of Memory.lean; an unlisted byte reads
  zero (log 1). -/
  mem : List Host.Cell
  /-- Poisoned 8-byte words with their codes (R405, R406), by key / 8; code 0 is no poison. -/
  poison : SMap Code
  /-- Lane space (R334): unit of the device × 2^18 + row × 512 + column, column 256 the guard slot. -/
  lanes : SMap (BitVec 32)
  /-- Lane rows with an uncorrectable error: unit × 2^18 + row × 512 + lane (R405, R416). -/
  badLanes : SMap Bool
  /-- DRAM frames, by key / 2^16, that are reached through an encrypted tile: one more than the key slot (R417). -/
  sealed : SMap Nat
  /-- DRAM frames, by key / 2^16, that a handover has given to a shared range of the device (R58, R59). -/
  migrated : SMap Bool
  cores : Vector Core 128
  clusters : Vector Cluster 32
  /-- The open-group states that stand in save areas: the 512 bytes of R355 name one of them (log 17). -/
  groups : List Group
  /-- What the forced saves that stand in memory leave aside: RES of the boundary whose sequence was interrupted, since the header
  of such a save holds the sequence's next bundle as RES (R353, R356; log 58). -/
  asides : List Aside
  towers : Vector Tower 4
  hub : Hub
  deriving DecidableEq, Repr

/-! ### Reset -/

def Occasion.none : Occasion :=
  { core := 0, tower := 0, unit := 0, addr := 0, value := 0, extra := 0, data := [] }

/-- The register state of R26 before its loads: zero, but p0. -/
def Regs.zero : Regs :=
  { s := Vector.replicate 64 0, p := 1, k := Vector.replicate 8 0, v := Vector.replicate 64 0,
    h := Vector.replicate 32 0, n := Vector.replicate 6 0, bc := 0, nflags := 0, rot := 0, rotNext := .none, xmode := 0, srseed := 0,
    srstr := 0, trapv := 0, tret := 0, targ := 0, statq := 0, statw := 0, ldep := 0,
    lcnt := Vector.replicate 4 0, ladd := Vector.replicate 4 0, msetup := 0, mpin := 0, fly := [], gather := .none }

def Matrix.reset : Matrix :=
  { z := [], zb := [], nb := [], zmap := 0, group := .none, passes := [], promos := [], half := false, swpc := 0,
    swaps := 0, clip := [], trim := [], nextTrim := [], digital := [], fold := 0, seq := 0, lastMap := none, ran := false,
    calReq := false }

/-- RETRY at reset: CAPX 6, BASE 32 (R150). -/
def retryReset : Word := 0x600020

def Core.reset : Core :=
  { regs := Regs.zero, shadow := { regs := Regs.zero, pc := 0 }, gate := [], freed := 0, loads := [], current := .none,
    group := [], loopBuf := .none, pc := 0,
    lastc := 0, returns := [], stats := [], statOvf := false, statSeq := 0, rows := [], gidx := [], live := [], gathers := 0, results := [], replay := [], sendSeq := [], expected := [], quantum := [], l1 := [], binds := Vector.replicate 64 0,
    run := .none, seqMode := .none, scr := Vector.replicate 4 0, res := 0, ypt := 0, lastInst := 0, stopped := false,
    brkNum := 0, stall := .none, displace := .none, preRbank := .none, aff := false, held := 0, hmode := 0,
    flatb := 0, rngt := 0, bindb := 0, cirt := 0, podgb := 0, tmplb := 0, retry := retryReset, mat := Matrix.reset,
    idleSince := 0 }

def Channel.reset : Channel := { queue := [], running := .none, param := 0, seq := 0, binding := 0 }

/-- BANKFMT at reset: SAT 1 (R34). -/
def bankfmtReset : BitVec 32 := 0x4000

def Cluster.reset : Cluster :=
  { fused := false, fuseReq := .none, bankfmt := Vector.replicate 32 bankfmtReset,
    chans := Vector.replicate 16 Channel.reset, retry := retryReset }

def Walker.reset : Walker :=
  { x := Vector.replicate 32 0, pc := 0, mstatus := 0, mtvec := 0, mepc := 0, mcause := 0, mtval := 0,
    running := false, queue := [], cur := .none, nextTag := 0, since := 0 }

/-- Tier map A3 A2 A1 A0 with parity A4 (R113); 40 degrees and caps 10 (log 20). -/
def Tiers.reset : Tiers :=
  { map := #v[3, 2, 1, 0], parity := 4, temp := Vector.replicate 5 40, skip := .none, paced := false, powered := false,
    cap := Vector.replicate 5 10, failed := .none, rebuilt := false, rolesChanged := false, lost := 0, down := 0,
    residues := [], rotating := false }

def Tower.reset : Tower :=
  { l2 := [], tiles := [], walked := [], retired := 0, mapv := 0, walker := Walker.reset, store := [], rslen := 0, handover := .none,
    mpool := 0, ready := [], retry := retryReset, podPos := [], launchCache := [], ctxKept := [], staging := [], stagings := 0, displaced := [], armed := [],
    forwarded := [], nextTag := 0, foreign := 0,
    susp := [], syncs := [], combine := [], claims := [], answers := [], offers := [], tiers := Tiers.reset, curd := .none, queries := [],
    curdDir := 0, dirCache := [], rowPort := [], curdLs := Vector.replicate 12 0, armb := 0 }

/-- A free pool: 1,024 flit buffers, of which each class's escape channel holds eight back (R168). -/
def poolReset : Word := 0x00000808080808080000 + BitVec.ofNat 64 (1024 - 48)

def Port.reset : Port :=
  { up := false, txSeq := 0, rxSeq := 0, retry := [], waiting := [], credits := poolReset, freed := 0, part := [], nak := .none, iw := 0, hasIw := false, lastW := 0, replays := 0, replayed := 0,
    lastAccepted := 0, lastSent := 0, stalled := false, err := 0, lhop := 0 }

/-- DEVID reads ID 0xFFFF and HTMO 0x0001_0000 at reset (R186, R438). -/
def Hub.reset : Hub :=
  { ready := 0, devid := 0xFFFF, domain := 0, rqtb := 0, ctxtb := 0, fwstat := 0, fq := Vector.replicate 5 0,
    fqvec := Vector.replicate 5 0, ckill := 0, htmo := 0x10000, ctxsel := 0, invctx := 0, invsel := 0, invLeft := 0,
    keys := Vector.replicate 32 0, keyst := 0, ringv := [], attn := 0, attDone := false, attRep := [],
    digest := 0, fwver := 0, telemetry := 0,
    chans := Vector.replicate 4 (Vector.replicate 16 Channel.reset), ports := Vector.replicate 20 Port.reset,
    podTime := 0, slewClk := 0, omitNext := false, retry := retryReset, inject := [], reorder := [], dmark := 0, seqs := [],
    circuits := [], arrived := [], inbound := [], refused := [], ringFull := false,
    lockstep := [], cxlUp := false, raised := [], claims := [] }

/-- The device right after reset. -/
def State.reset : State :=
  { now := Occasion.none, agenda := [], actor := .core 0, engines := false, clk := 0, freeN := 0, mem := [], poison := [], lanes := [], badLanes := [], sealed := [],
    migrated := [],
    cores := Vector.replicate 128 Core.reset, clusters := Vector.replicate 32 Cluster.reset, groups := [], asides := [],
    towers := Vector.replicate 4 Tower.reset, hub := Hub.reset }

end Sys2Proof.Machine
end

