-- ==== Sys2Proof/Machine/Memory.lean ====
section
/-! DEFINITION. Memory: the places of the address space (R9, R30, R41), reading and writing bytes and words at their
home, poison (R405, R406), and the L1 caches (R32, R33, R61). -/

namespace Sys2Proof.Machine

/-! ### Places -/

/-- Frames of a tower's stacked DRAM (R41). -/
def dramFrames : Nat := 1179648
/-- Bytes of a tower's stacked DRAM. -/
def dramBytes : Nat := dramFrames * 65536

/-- Device physical address pa of tower t. -/
def dramKey (t : TowerId) (pa : Nat) : Nat := t.val * 2 ^ 40 + pa
/-- Byte off of bank b of cluster x (R30, R47). -/
def scratchKey (x b off : Nat) : Nat := 2 ^ 43 + x * 2 ^ 25 + b * 2 ^ 20 + off
/-- Byte off of a half of core c's window, by K position (R47, R114). -/
def macroKey (c : Nat) (half : Bool) (off : Nat) : Nat := 2 ^ 44 + c * 2 ^ 21 + half.toNat * 2 ^ 20 + off
/-- Host physical address. -/
def hostKey (hpa : Nat) : Nat := 2 ^ 64 + hpa

/-- What an unlisted byte reads as (log 1). -/
def emptyByte : Byte := 0

/-- The memory's canonical form: addresses strictly rising, no entry equal to what an unlisted address reads as. -/
def Memory.wf (m : List Host.Cell) : Bool := swf emptyByte m

/-! ### Bytes at their home -/

/-- One byte of memory. -/
def readByte (s : State) (key : Nat) : Byte := sget emptyByte s.mem key

/-- n bytes from key on. -/
def readBytes (s : State) (key : Nat) : Nat → List Byte
  | 0 => []
  | n + 1 => readByte s key :: readBytes s (key + 1) n

/-- The little-endian number in n bytes. -/
def readNat (s : State) (key n : Nat) : Nat := leNat (readBytes s key n)

/-- The aligned 8-byte word at key. -/
def readWord (s : State) (key : Nat) : Word := BitVec.ofNat 64 (readNat s key 8)

def writeByte (s : State) (key : Nat) (b : Byte) : State := { s with mem := sset emptyByte s.mem key b }

/-- The bytes alone, poison untouched. -/
def writeBytesRaw (s : State) (key : Nat) : List Byte → State
  | [] => s
  | b :: bs => writeBytesRaw (writeByte s key b) (key + 1) bs

/-- The poison of the aligned 8-byte words that lie wholly in [key, key + n) is cleared (R406). -/
def clearPoison (s : State) (key n : Nat) : State :=
  let first := (key + 7) / 8
  let last := (key + n) / 8
  if s.poison.isEmpty then s
  else { s with poison := upTo (last - first) (fun i m => sset 0 m (first + i) 0) s.poison }

/-- Bytes written at their home: a word written whole loses its poison, a word written in part keeps it (R406). -/
def writeBytes (s : State) (key : Nat) (bs : List Byte) : State :=
  clearPoison (writeBytesRaw s key bs) key bs.length

def writeNat (s : State) (key n v : Nat) : State := writeBytes s key (leBytes n v)
def writeWord (s : State) (key : Nat) (w : Word) : State := writeNat s key 8 w.toNat

/-- The first code among the words that [key, key + n) touches, if any is poisoned (R406). -/
def poisonOf (s : State) (key n : Nat) : Option Code :=
  if s.poison.isEmpty then none
  else (s.poison.find? fun e => decide (key / 8 ≤ e.1) && decide (e.1 * 8 < key + n)).map Prod.snd

/-- The words of [key, key + n) are poisoned with code c (R405). -/
def poisonRange (s : State) (key n : Nat) (c : Code) : State :=
  let first := key / 8
  let last := (key + n + 7) / 8
  { s with poison := upTo (last - first) (fun i m => sset 0 m (first + i) c) s.poison }

/-! ### Cores, clusters, towers by index -/

def State.core (s : State) (c : CoreId) : Core := s.cores.get c
def State.setCore (s : State) (c : CoreId) (k : Core) : State := { s with cores := s.cores.set c.val k c.isLt }
def State.tower (s : State) (t : TowerId) : Tower := s.towers.get t
def State.setTower (s : State) (t : TowerId) (w : Tower) : State := { s with towers := s.towers.set t.val w t.isLt }
def State.cluster (s : State) (x : ClusterId) : Cluster := s.clusters.get x
def State.setCluster (s : State) (x : ClusterId) (k : Cluster) : State :=
  { s with clusters := s.clusters.set x.val k x.isLt }

/-- The hub's state changed. -/
def State.mapHub (s : State) (f : Hub → Hub) : State := { s with hub := f s.hub }

/-- The tower of a core (R3). -/
def towerOf (c : CoreId) : TowerId := ⟨c.val / 32, by omega⟩
/-- The cluster of a core (R3). -/
def clusterOf (c : CoreId) : ClusterId := ⟨c.val / 4, by omega⟩
/-- The tower of a cluster. -/
def clusterTower (x : ClusterId) : TowerId := ⟨x.val / 8, by omega⟩
/-- The four cores of a cluster. -/
def clusterCores (x : ClusterId) : List CoreId :=
  [⟨4 * x.val, by omega⟩, ⟨4 * x.val + 1, by omega⟩, ⟨4 * x.val + 2, by omega⟩, ⟨4 * x.val + 3, by omega⟩]
/-- A number taken as a tower, core or cluster. -/
def towerNo (n : Nat) : TowerId := ⟨n % 4, by omega⟩
def coreNo (n : Nat) : CoreId := ⟨n % 128, by omega⟩
def clusterNo (n : Nat) : ClusterId := ⟨n % 32, by omega⟩

/-- The core that the step in progress concerns. -/
def State.me (s : State) : Core := s.core s.now.core
/-- That core replaced. -/
def State.setMe (s : State) (k : Core) : State := s.setCore s.now.core k

/-- An event becomes due after those that are due already. -/
def State.due (s : State) (i : Instr) (o : Occasion) : State := { s with agenda := s.agenda ++ [(i, o)] }
/-- An event becomes due before all others. -/
def State.dueFirst (s : State) (i : Instr) (o : Occasion) : State := { s with agenda := (i, o) :: s.agenda }
/-- An occasion of core c. -/
def onCore (c : CoreId) : Occasion := { Occasion.none with core := c, tower := towerOf c }
/-- An occasion of tower t. -/
def onTower (t : TowerId) : Occasion := { Occasion.none with tower := t }

/-! ### Tile-table entries -/

/-- KIND of R46. -/
def tteKind (e : BitVec 64) : Nat := fld e 60 3
def tteFrame (e : BitVec 64) : Nat := fld e 0 48
def tteWr (e : BitVec 64) : Bool := bit e 51
def tteCache (e : BitVec 64) : Bool := bit e 50

/-- The memory key of byte off of the tile (R47); a macro window is read and written in the shadow halves as they stand
(R37). -/
def tteKey (s : State) (e : BitVec 64) (off : Nat) : Nat :=
  let f := tteFrame e
  match tteKind e with
  | 1 => scratchKey (f / 512 % 32) (f % 32) (f / 32 % 16 * 65536 + off)
  | 2 => dramKey (towerNo (f / 2 ^ 32)) (f % 2 ^ 21 * 65536 + off)
  | 3 => hostKey (f * 65536 + off)
  | _ => macroKey (f % 128) (!(s.core (coreNo f)).mat.half) (f / 128 % 16 * 65536 + off)

/-! ### L2 (R38) and the combining buffers (R79) -/

/-- The new word of an atomic: operation by its major less 8, old word, operand, and s[d] for w.acas (R262). -/
def atomicNew (op : Nat) (old y d : Word) : Word :=
  match op with
  | 0 => old + y
  | 1 => old &&& y
  | 2 => old ||| y
  | 3 => old ^^^ y
  | 4 => if old.slt y then old else y
  | 5 => if old.slt y then y else old
  | 6 => if old.ult y then old else y
  | 7 => if old.ult y then y else old
  | 8 => y
  | 9 => if old = d then y else old
  | _ => old

/-- Two operands of a combinable operation as one (R79). -/
def atomicJoin (op : Nat) (x y : Word) : Word := atomicNew op x y 0

/-- A combined operand is applied at its home (R79). -/
def applyCombined (s : State) (c : Combined) : State := writeWord s c.key (atomicNew c.op.val (readWord s c.key) c.y 0)

/-- Any other access to words of [key, key + n) applies their combined operands first (R79). -/
def flushRange (s : State) (t : TowerId) (key n : Nat) : State :=
  let hit : Combined → Bool := fun c => decide (key < c.key + 8) && decide (c.key < key + n)
  let w := s.tower t
  if w.combine.any hit then
    let s1 := (w.combine.filter hit).foldl applyCombined s
    s1.setTower t { (s1.tower t) with combine := w.combine.filter fun c => !hit c }
  else s

/-- The same for the word at key. -/
def flushWord (s : State) (t : TowerId) (key : Nat) : State := flushRange s t key 8

/-- Every combined operand of a tower is applied (R78, R79). -/
def flushCombined (s : State) (t : TowerId) : State :=
  let s1 := (s.tower t).combine.foldl applyCombined s
  s1.setTower t { (s1.tower t) with combine := [] }

/-- The slice that the hash of R38 gives for device physical address pa. -/
def hashSlice (pa : Nat) : Nat := pa / 2 ^ 7 % 32 ^^^ pa / 2 ^ 16 % 32 ^^^ pa / 2 ^ 21 % 32

/-- The home slice of device physical address pa (R38), under the map of retired slices (R404): the next slice above, modulo 32,
that is not retired. -/
def homeSlice (retired : BitVec 32) (pa : Nat) : Nat :=
  let x := hashSlice pa
  (((List.range 32).map fun i => (x + i) % 32).find? fun i => !bit retired i).getD x

/-- The slice and set of a line of L2 (R38). -/
def l2Place (retired : BitVec 32) (line : Nat) : Nat × Nat := (homeSlice retired (128 * line), 128 * line / 2 ^ 12 % 1024)

/-- A line becomes the most recently used one of its set of its home slice; of a full set the least recently used one is evicted
(R38). -/
def touchSlice (retired : BitVec 32) (l2 : List L2Line) (line : Nat) (dirty : Bool) : List L2Line :=
  let old := l2.any fun x => x.line = line && x.dirty
  let rest := l2.filter fun x => x.line ≠ line
  let same := rest.filter fun x => l2Place retired x.line = l2Place retired line
  { line := line, dirty := dirty || old } ::
    (match (if 16 ≤ same.length then same.getLast? else none) with
     | some v => rest.filter fun x => x.line ≠ v.line
     | none => rest)

/-- Copies of the line that holds key, in the launch caches and the directory caches, are dropped by a store that is performed at its
home (R139, R336). Rennet's own writes of the words that it holds are no such store: they keep its lines as they write them. -/
def Tower.dropCached (w : Tower) (key : Nat) : Tower :=
  { w with launchCache := w.launchCache.map fun e => { e with lines := e.lines.filter fun l => l ≠ key / 128 },
           dirCache := w.dirCache.filter fun e => e.key / 128 ≠ key / 128 }

/-- An access to n bytes at home, within one 128-byte line: a word's combined operands are applied first (R79), and the line of
stacked DRAM stands in L2 afterwards, dirty if it was written (R38), when it leaves the caches that hold it (R139, R336). -/
def touchHome (s : State) (key n : Nat) (dirty : Bool) : State :=
  if key < 2 ^ 42 then
    let t := towerNo (key / 2 ^ 40)
    let s1 := flushRange s t key n
    let s2 := if dirty then { s1 with towers := s1.towers.map fun w => w.dropCached key } else s1
    let w := s2.tower t
    s2.setTower t { w with l2 := touchSlice w.retired w.l2 (key % 2 ^ 40 / 128) dirty }
  else s

/-! ### L1 -/

/-- The set of a line (R32): offset[15:7] XOR tile[8:0] XOR TID[8:0]. -/
def l1Set (tid : BitVec 16) (tile line : Nat) : Nat := (line ^^^ (tile % 512)) ^^^ (tid.toNat % 512)

/-- The core whose L1 holds the line (R33): the core itself, or in a fused cluster the slice offset[8:7] XOR tile[1:0]. -/
def l1Owner (s : State) (c : CoreId) (tile line : Nat) : CoreId :=
  if (s.cluster (clusterOf c)).fused then coreNo (c.val / 4 * 4 + ((line % 4) ^^^ (tile % 4))) else c

/-- Tag match (R32, R50). -/
def L1Line.isAt (l : L1Line) (ctx : BitVec 16) (gen : BitVec 8) (tid : BitVec 16) (tile line : Nat) : Bool :=
  l.ctx = ctx && l.gen = gen && l.tid = tid && l.tile = tile && l.line = line

/-- The dirty bytes of a line as they stand, written at their home (R61); a word of host memory written with poison comes back
as a poisoned completion (R428). -/
def writeBackBytes (s : State) (l : L1Line) : State :=
  if l.dirty = 0 then s
  else
    let s1 := upTo 128 (fun i st => if bit l.dirty i
      then writeByte st (l.home + i) (BitVec.ofNat 8 (fld l.data (8 * i) 8)) else st) (touchHome s l.home 128 true)
    upTo 16 (fun i st =>
      let s2 := if fld l.dirty (8 * i) 8 = 255 then { st with poison := sset 0 st.poison (l.home / 8 + i) 0 } else st
      match l.bad.find? fun e => e.1 = i with
      | some e => if fld l.dirty (8 * i) 8 ≠ 0 then
          { s2 with poison := sset 0 s2.poison (l.home / 8 + i) (if l.home < hostKey 0 then e.2 else 0x6002) } else s2
      | none => s2) s1

/-- The line with nothing dirty. -/
def L1Line.clean (l : L1Line) : L1Line := { l with dirty := 0 }

/-- Whether a line can be written back now: host lines wait for the link (R437). -/
def canWriteBack (s : State) (l : L1Line) : Bool := s.hub.cxlUp || decide (l.home < hostKey 0)

/-- Every line of core c's L1 that p names is written back (R73). -/
def writeBackLines (s : State) (c : CoreId) (p : L1Line → Bool) : State :=
  let k := s.core c
  let s1 := k.l1.foldl (fun st l => if p l && canWriteBack st l then writeBackBytes st l else st) s
  s1.setCore c { k with l1 := k.l1.map fun l => if p l && canWriteBack s l then l.clean else l }

/-- Some core among cs holds a dirty line that p names and that waits for the host link (R437). -/
def waitsForLink (s : State) (cs : List CoreId) (p : L1Line → Bool) : Bool :=
  !s.hub.cxlUp && cs.any fun c => (s.core c).l1.any fun l => p l && l.dirty ≠ 0 && decide (hostKey 0 ≤ l.home)

/-- Every line of core c's L1 that p names is dropped; a dirty one stands there only while it waits for the host link (R437). -/
def dropLines (s : State) (c : CoreId) (p : L1Line → Bool) : State :=
  let k := s.core c
  s.setCore c { k with l1 := k.l1.filter fun l => !(p l && l.dirty = 0) }

/-- The L1s that act for core c: its own, or the four of a fused cluster (R73). -/
def l1Cores (s : State) (c : CoreId) : List CoreId :=
  if (s.cluster (clusterOf c)).fused then clusterCores (clusterOf c) else [c]

/-- The lines of core c's L1s over the 128 bytes at home that hold key are written back and dropped (R77). -/
def dropHome (s : State) (c : CoreId) (key : Nat) : State :=
  let p : L1Line → Bool := fun l => l.home = key / 128 * 128
  (l1Cores s c).foldl (fun st o => dropLines (writeBackLines st o p) o p) s

/-- A byte of a line changes: whatever the line held dirty there is superseded. bad tells whether the word that the byte lies in
has been written whole, and so holds no poison (R406). -/
def L1Line.overwrite (l : L1Line) (i v : Nat) (dirty whole : Bool) : L1Line :=
  { l with data := setFld l.data (8 * i) 8 v, dirty := setBit l.dirty i dirty,
           bad := if whole then l.bad.filter fun e => e.1 ≠ i / 8 else l.bad }

/-- The dirty bytes of m laid over l, a line with the same home: the core's own stores through another handle (R65, R251). -/
def overlay (l m : L1Line) : L1Line :=
  if m.dirty = 0 then l
  else upTo 128 (fun i x => if bit m.dirty i then
      let word := m.bad.filter fun e => e.1 = i / 8
      let whole := fld m.dirty (8 * (i / 8)) 8 = 255
      { x with data := setFld x.data (8 * i) 8 (fld m.data (8 * i) 8),
               bad := if whole || !word.isEmpty then (x.bad.filter fun e => e.1 ≠ i / 8) ++ word else x.bad }
    else x) l

/-- The lines over the 128 bytes at home that core c's L1s hold. -/
def homeLines (s : State) (c : CoreId) (home : Nat) : List L1Line :=
  (l1Cores s c).flatMap fun o => (s.core o).l1.filter fun m => m.home = home

/-- A line as its home holds it, poisoned words marked, with the core's own stores that stand dirty in its L1 under another handle
(R65, R251). -/
def fillLine (s : State) (c : CoreId) (ctx : BitVec 16) (gen : BitVec 8) (tid : BitVec 16) (tile line home : Nat)
    (inv : Bool) : L1Line :=
  (homeLines s c home).foldl overlay
    { ctx := ctx, gen := gen, tid := tid, tile := tile, line := line, home := home,
      data := BitVec.ofNat 1024 (readNat s home 128), dirty := 0, inv := inv,
      bad := (s.poison.filter fun e => decide (home / 8 ≤ e.1) && decide (e.1 < home / 8 + 16)).map
        fun e => (e.1 - home / 8, e.2) }

/-- A store of core c to byte i of a home line reaches the copies that its L1s hold of it under other handles (R65, R251). -/
def updateCopies (s : State) (c : CoreId) (home i v : Nat) (whole : Bool) (own : L1Line → Bool) : State :=
  (l1Cores s c).foldl (fun st o =>
    let k := st.core o
    if k.l1.any fun m => m.home = home && !own m then
      st.setCore o { k with l1 := k.l1.map fun m => if m.home = home && !own m then m.overwrite i v false whole else m }
    else st) s

/-- The line becomes the most recently used one; the least recently used line of a full set is evicted, written back if
dirty (R32). A dirty host line is held while the link is down (R437). -/
def installLine (s : State) (o : CoreId) (l : L1Line) : State :=
  let k := s.core o
  let rest := k.l1.filter fun m => !m.isAt l.ctx l.gen l.tid l.tile l.line
  let set := l1Set l.tid l.tile l.line
  let same := rest.filter fun m => l1Set m.tid m.tile m.line = set
  match (if 16 ≤ same.length then same.getLast? else none).filter fun v => v.dirty = 0 || canWriteBack s v with
  | some v =>
    let s1 := writeBackBytes s v
    s1.setCore o { (s1.core o) with
      l1 := l :: rest.filter fun m => !m.isAt v.ctx v.gen v.tid v.tile v.line }
  | none => s.setCore o { k with l1 := l :: rest }

/-- The line of a place in core c's L1, filled on a miss, most recently used afterwards; an invariant load tags it
(R82). -/
def touchLine (s : State) (c : CoreId) (ctx : BitVec 16) (gen : BitVec 8) (p : Place) (line : Nat) (inv : Bool) :
    L1Line × State :=
  let o := l1Owner s c p.tile line
  match (s.core o).l1.find? fun m => m.isAt ctx gen p.tid p.tile line with
  | some m =>
    let l := { m with inv := m.inv || inv }
    (l, installLine s o l)
  | none =>
    let home := tteKey s p.tte (line * 128)
    let s1 := touchHome s home 128 false
    let l := fillLine s1 c ctx gen p.tid p.tile line home inv
    (l, installLine s1 o l)

/-- A tile of a kind and mode that is held in L1 (R32, R251). -/
def cacheable (e : BitVec 64) : Bool := tteCache e && (tteKind e = 2 || tteKind e = 3)

/-- The width bits at bit offset b of a tile, read by core c in context (ctx, gen): from its L1, or at home (R251), with
the poison met. An aligned element never crosses a line. -/
def loadBits (s : State) (c : CoreId) (ctx : BitVec 16) (gen : BitVec 8) (p : Place) (b width : Nat) (inv : Bool) :
    Nat × Option Code × State :=
  let host := decide (tteKind p.tte = 3) && !s.hub.cxlUp
  if cacheable p.tte then
    let line := b / 1024
    let o := l1Owner s c p.tile line
    if host && ((s.core o).l1.find? fun m => m.isAt ctx gen p.tid p.tile line).isNone then (0, some 0x6001, s)
    else
      let r := touchLine s c ctx gen p line inv
      let bad := r.1.bad.find? fun e => decide (e.1 * 64 < b % 1024 + width) && decide (b % 1024 < e.1 * 64 + 64)
      (fld r.1.data (b % 1024) width, bad.map Prod.snd, r.2)
  else if host then (0, some 0x6001, s)
  else
    let key := tteKey s p.tte (b / 8)
    let n := (b % 8 + width + 7) / 8
    let s1 := touchHome s key n false
    let home := key / 128 * 128
    match homeLines s1 c home with
    | [] => (readNat s1 key n / 2 ^ (b % 8) % 2 ^ width, poisonOf s1 key n, s1)
    | _ =>
      let l := fillLine s1 c ctx gen p.tid p.tile (b / 1024) home inv
      let lo := 8 * (key - home) + b % 8
      let bad := l.bad.find? fun e => decide (e.1 * 64 < lo + width) && decide (lo < e.1 * 64 + 64)
      (fld l.data lo width, bad.map Prod.snd, s1)

/-- One byte of a store performed by core c: into its L1 line, whose byte becomes dirty (R61), or at home, bit by bit
(R251, R255). A store that hits a line tagged invariant clears the tag (R409); the caller makes the record. -/
def storeBits (s : State) (c : CoreId) (ctx : BitVec 16) (gen : BitVec 8) (b : StoreByte) : State :=
  if cacheable b.place.tte then
    let line := b.off / 128
    let o := l1Owner s c b.place.tile line
    let r := touchLine s c ctx gen b.place line false
    let i := b.off % 128
    let old := fld r.1.data (8 * i) 8
    let new := ((BitVec.ofNat 8 old &&& ~~~b.msk) ||| (b.val &&& b.msk)).toNat
    let whole := decide (fld (setBit r.1.dirty i true) (i / 8 * 8) 8 = 255)
    let l := { r.1.overwrite i new true whole with inv := false }
    updateCopies (installLine r.2 o l) c l.home i new whole fun m => m.isAt ctx gen b.place.tid b.place.tile line
  else
    let key := tteKey s b.place.tte b.off
    let s1 := touchHome s key 1 true
    let home := key / 128 * 128
    let old := match homeLines s1 c home with
      | [] => readByte s1 key
      | ls => (ls.foldl (fun (a : Byte) m => if bit m.dirty (key - home) then BitVec.ofNat 8 (fld m.data (8 * (key - home)) 8) else a)
          (readByte s1 key))
    let new := (old &&& ~~~b.msk) ||| (b.val &&& b.msk)
    updateCopies (writeByte s1 key new) c home (key - home) new.toNat false fun _ => false

/-- n bytes of one line written at their home on behalf of core c, whose L1 copies follow (R65, R265). -/
def writeHome (s : State) (c : CoreId) (key n v : Nat) : State :=
  let home := key / 128 * 128
  upTo n (fun i st => updateCopies st c home (key - home + i) (v / 256 ^ i % 256) false fun _ => false)
    (writeNat (touchHome s key n true) key n v)

/-- Whether the byte of the store hits a line tagged invariant in the L1 that serves core c (R409). -/
def hitsInvariant (s : State) (c : CoreId) (ctx : BitVec 16) (gen : BitVec 8) (b : StoreByte) : Bool :=
  cacheable b.place.tte &&
    ((s.core (l1Owner s c b.place.tile (b.off / 128))).l1.any fun m =>
      m.inv && m.isAt ctx gen b.place.tid b.place.tile (b.off / 128))

/-- The aligned words that a store covers whole at home lose their poison (R406). -/
def clearStorePoison (s : State) (bs : List StoreByte) : State :=
  if s.poison.isEmpty then s
  else
    let keys := (bs.filter fun b => !cacheable b.place.tte && b.msk = 255).map fun b => tteKey s b.place.tte b.off
    { s with poison := s.poison.filter fun e => !(List.range 8).all fun i => keys.contains (e.1 * 8 + i) }

/-- A store leaves the gate: every byte is performed in L1 or at home (R61, R214). -/
def performStore (s : State) (c : CoreId) (ctx : BitVec 16) (gen : BitVec 8) (bs : List StoreByte) : State :=
  clearStorePoison (bs.foldl (fun st b => storeBits st c ctx gen b) s) bs

end Sys2Proof.Machine
end

