-- ==== Sys2Proof/Machine/Translate.lean ====
section
/-! DEFINITION. Tensor addressing and translation: descriptors (R42, R43), TileAddress (R45), tile-table entries (R46,
R47), the flat table (R48), tile caches (R49), the context table (R51), shared ranges (R57) and the checks that an access
of each kind makes of its entry (R31, R35, R38, R333, R360, R399, R417). -/

namespace Sys2Proof.Machine

/-! ### Codes of translation -/

/-- How a translation ends. -/
inductive Trans where
  | ok (tte : BitVec 64)
  | fault (c : Code)
  /-- The range is in transit: the access waits for the handover to end (R401). -/
  | transit
  /-- A host-range tile whose page the routine at an entry word must resolve, with its leaf (R57, R58). -/
  | host (rout : BitVec 8) (root va : Word) (leaf : BitVec 64)
  /-- The tile cache misses: the access is held until the walker has answered (R49). -/
  | miss
  deriving DecidableEq, Repr

/-- Under which context and tables an agent translates, and which layout unit of the tower it uses (R49; log 6): 0 to 31 a core's,
32 to 39 a cluster Churn's, 40 to 43 a hub Churn's, 44 the other readers'. -/
structure View where
  tower : TowerId
  unit : Nat
  ctx : BitVec 16
  gen : BitVec 8
  flatb : Word
  rngt : Word
  deriving DecidableEq, Repr

/-! ### Descriptors -/

/-- TTAB of a descriptor (R42). -/
def dTtab (d : BitVec 512) : Word := BitVec.ofNat 64 (fld d 451 61 * 8)
def dTid (d : BitVec 512) : BitVec 16 := BitVec.ofNat 16 (fld d 432 16)
def dEsize (d : BitVec 512) : Nat := fld d 428 4
def dRank (d : BitVec 512) : Nat := fld d 425 3
def dFmt (d : BitVec 512) : Nat := fld d 408 8
/-- TSH of dimension k. The programs of R363 and R364 give descriptors with TSH0 16, which the field of 4 bits holds as 0: where every
field is 0 and ESIZE is 3, only TSH0 16 meets the sum of R43, and it is read so (log 54). -/
def dTsh (d : BitVec 512) (k : Nat) : Nat :=
  if k = 0 && fld d 384 24 = 0 && dEsize d = 3 then 16 else fld d (384 + 4 * k) 4
def dDim (d : BitVec 512) (k : Nat) : Nat := fld d (32 * k) 32

/-- ESIZE of a format, none for raw and for codes not listed (R87). -/
def formatEsize (f : Nat) : Option Nat :=
  match f with
  | 0x01 | 0x10 => some 5
  | 0x02 | 0x03 | 0x11 => some 4
  | 0x04 | 0x05 | 0x06 | 0x07 | 0x09 | 0x12 | 0x15 => some 3
  | 0x08 | 0x13 | 0x16 | 0x34 => some 2
  | 0x14 | 0x17 => some 1
  | 0x20 | 0x21 | 0x22 | 0x30 | 0x31 | 0x32 | 0x33 | 0x35 => some 3
  | _ => none

/-- Number of tiles of a descriptor (R43). -/
def dTiles (d : BitVec 512) : Nat := upTo (dRank d) (fun k n => n * ceilShift (dDim d k) (dTsh d k)) 1

/-- The checks of R43, with the reserved fields of R42: R43 does not list a reserved bit that is not zero among the broken conditions,
and it is taken as one (log 59). -/
def descriptorOk (d : BitVec 512) : Bool :=
  let r := dRank d
  dTid d ≠ 0 && decide (1 ≤ r) && decide (r ≤ 6)
    && ((List.range 6).all fun k => if k < r then decide (1 ≤ dDim d k) else dDim d k = 1 && dTsh d k = 0)
    && dTsh d 0 + dTsh d 1 + dTsh d 2 + dTsh d 3 + dTsh d 4 + dTsh d 5 + dEsize d = 19
    && decide (1 ≤ dEsize d) && decide (dEsize d ≤ 6)
    && (dFmt d = 0 || formatEsize (dFmt d) = some (dEsize d))
    && decide (dTiles d ≤ 2 ^ 24)
    && fld d 448 3 = 0 && fld d 416 9 = 0 && fld d 192 192 = 0

/-- TileAddress (R45): tile number and bit offset, none where a coordinate lies outside its dimension. -/
def tileAddress (d : BitVec 512) (c : Nat → Nat) : Option (Nat × Nat) :=
  let r := upTo (dRank d)
    (fun k (acc : Option (Nat × Nat × Nat × Nat)) =>
      match acc with
      | none => none
      | some (tile, span, eoff, sh) =>
        let x := c k
        if dDim d k ≤ x then none
        else some (tile + x / 2 ^ dTsh d k * span, span * ceilShift (dDim d k) (dTsh d k),
                   eoff + x % 2 ^ dTsh d k * 2 ^ sh, sh + dTsh d k))
    (some (0, 1, 0, 0))
  r.map fun a => (a.1, a.2.2.1 * 2 ^ dEsize d)

/-! ### The context table -/

/-- The address of context tag T's entry (R51, R186). -/
def ctxEntryKey (s : State) (tag : BitVec 16) : Nat := dramKey 0 (fld s.hub.ctxtb 24 40 * 2 ^ 24 + 256 * tag.toNat)

/-- An 8-byte word of the entry, by its lowest bit. -/
def ctxWord (s : State) (tag : BitVec 16) (lo : Nat) : Word := readWord s (ctxEntryKey s tag + lo / 8)

/-- GEN of the entry: the tag's current generation (R50, R51). -/
def ctxGen (s : State) (tag : BitVec 16) : BitVec 8 := readByte s (ctxEntryKey s tag)
/-- V of the entry. -/
def ctxValid (s : State) (tag : BitVec 16) : Bool := bit (ctxWord s tag 0) 8
/-- DBG of the entry (R241). -/
def ctxDebug (s : State) (tag : BitVec 16) : Bool := bit (ctxWord s tag 0) 9
/-- PTW of the entry: the context's partition. -/
def ctxTowers (s : State) (tag : BitVec 16) : BitVec 4 := BitVec.ofNat 4 (fld (ctxWord s tag 0) 16 4)
/-- The context is current: its entry is valid and names this generation (R50, R51). -/
def ctxCurrent (s : State) (tag : BitVec 16) (gen : BitVec 8) : Bool := ctxValid s tag && ctxGen s tag = gen

/-- The lowest tower of the partition (R58). -/
def lowTower (s : State) (tag : BitVec 16) : TowerId :=
  match (List.finRange 4).find? fun t => bit (ctxTowers s tag) t.val with
  | some t => t
  | none => 0

/-- Whether the entry breaks R51: PTW 0, or an address field that breaks its alignment. -/
def ctxBroken (s : State) (tag : BitVec 16) : Bool :=
  ctxTowers s tag = 0 || fld (ctxWord s tag 128) 0 15 ≠ 0 || fld (ctxWord s tag 192) 0 9 ≠ 0
    || fld (ctxWord s tag 256) 0 11 ≠ 0 || fld (ctxWord s tag 320) 0 11 ≠ 0 || fld (ctxWord s tag 384) 0 13 ≠ 0
    || fld (ctxWord s tag 448) 0 15 ≠ 0

/-- The view of an agent of tower t in a context, by the context's entry. -/
def ctxView (s : State) (t : TowerId) (tag : BitVec 16) (gen : BitVec 8) : View :=
  { tower := t, unit := 44, ctx := tag, gen := gen, flatb := ctxWord s tag 128, rngt := ctxWord s tag 192 }

/-- The view of a running core: the control registers loaded at its pick-up (R26). -/
def coreView (s : State) (c : CoreId) : View :=
  let k := s.core c
  match k.run with
  | some r => { tower := towerOf c, unit := c.val % 32, ctx := r.ctx, gen := r.gen, flatb := k.flatb, rngt := k.rngt }
  | none => { tower := towerOf c, unit := c.val % 32, ctx := 0, gen := 0, flatb := k.flatb, rngt := k.rngt }

/-! ### Shared ranges -/

/-- Entry i of the range table (R57). -/
def rangeEntryKey (s : State) (v : View) (i : Nat) : Nat := dramKey (lowTower s v.ctx) (v.rngt.toNat + 16 * i)
def rangeEntry (s : State) (v : View) (i : Nat) : BitVec 128 := BitVec.ofNat 128 (readNat s (rangeEntryKey s v i) 16)
def rValid (e : BitVec 128) : Bool := bit e 52
def rOwn (e : BitVec 128) : Nat := fld e 54 2
def rMigr (e : BitVec 128) : Bool := bit e 53
def rBase (e : BitVec 128) : Nat := fld e 80 48
def rLen (e : BitVec 128) : Nat := fld e 56 24
def rRout (e : BitVec 128) : BitVec 8 := BitVec.ofNat 8 (fld e 44 8)
def rHptb (e : BitVec 128) : Nat := fld e 0 44
/-- The host physical address of the root of the range's host page table. -/
def rRoot (e : BitVec 128) : Word := BitVec.ofNat 64 (rHptb e * 4096)

/-- The valid entries that cover 64 KiB page p. -/
def rangesAt (s : State) (v : View) (p : Nat) : List (Nat × BitVec 128) :=
  if ctxValid s v.ctx then
    ((List.range 32).map fun i => (i, rangeEntry s v i)).filter fun e =>
      rValid e.2 && decide (rBase e.2 ≤ p) && decide (p < rBase e.2 + rLen e.2)
  else []

/-- A handover of the entry is in progress (R57, R401). -/
def handoverOf (s : State) (v : View) (i : Nat) : Bool :=
  match (s.tower (lowTower s v.ctx)).handover with
  | some h => h.index = i && h.req.ctx = v.ctx && h.req.gen = v.gen
  | none => false

/-- What the range table says of page p (R57, R401). -/
def rangeCheck (s : State) (v : View) (p : Nat) : Trans ⊕ Option (BitVec 128) :=
  match rangesAt s v p with
  | [] => .inr none
  | [(i, e)] =>
    match rOwn e with
    | 0 => .inr (some e)
    | 1 => .inl (.fault 0x1101)
    | 2 => .inl (if handoverOf s v i then .transit else .fault 0x1101)
    | _ => .inl (.fault 0x1103)
  | _ => .inl (.fault 0x1103)

/-! ### The walks -/

/-- A table word that the walker reads; a poisoned one fails the request with the class's generic code (log 21). -/
def tableWord (s : State) (key : Nat) : Option (BitVec 64) :=
  match poisonOf s key 8 with
  | some _ => none
  | none => some (readWord s key)

/-- OWN of an entry that an access uses, be it a leaf or a link (R46). -/
def ownFault (e : BitVec 64) : Option Code :=
  match fld e 58 2 with
  | 0 => none
  | 3 => some 0x1203
  | _ => some 0x1101

/-- The levels of the flat table that remain to be walked, from the table at pa down (R46, R48). A table that lies beyond the
tower's DRAM (R41, R47) fails the walk with 0x1203 (log 59). -/
def flatLevels (s : State) (t : TowerId) (a : Word) : Nat → Nat → Trans
  | 0, pa =>
    if dramBytes < pa + 32768 then .fault 0x1203
    else match tableWord s (dramKey t (pa + 8 * fld a 16 12)) with
    | none => .fault 0x1001
    | some e => .ok e
  | k + 1, pa =>
    if dramBytes < pa + 32768 then .fault 0x1203
    else match tableWord s (dramKey t (pa + 8 * fld a (16 + 12 * (k + 1)) 12)) with
    | none => .fault 0x1001
    | some e =>
      if !bit e 63 || tteKind e ≠ 6 then .fault 0x1002
      else match ownFault e with
        | some x => .fault x
        | none => flatLevels s t a k (tteFrame e * 65536)

/-- The walk of the flat view at address a (R48, R57). A leaf of KIND 3 in a range that does not migrate names a host page that the
range's routine must resolve, once the leaf's own OWN lets the access proceed (R46, R58). -/
def flatWalk (s : State) (v : View) (a : Word) : Trans :=
  match rangeCheck s v (fld a 16 48) with
  | .inl t => t
  | .inr r =>
    match flatLevels s v.tower a 3 v.flatb.toNat with
    | .ok e =>
      match r with
      | some re =>
        if bit e 63 && tteKind e = 3 && !rMigr re then
          match ownFault e with
          | some x => .fault x
          | none => .host (rRout re) (rRoot re) a e
        else .ok e
      | none => .ok e
    | t => t

/-- A hit in the tile cache of the view's layout unit (R49). -/
def tileHit (s : State) (v : View) (tid : BitVec 16) (tile : Nat) : Option (BitVec 64) :=
  ((s.tower v.tower).tiles.find? fun e => e.unit = v.unit && e.ctx = v.ctx && e.gen = v.gen && e.tid = tid && e.tile = tile).map
    TileEntry.tte

/-- The frame of an encrypted tile is noted with its key slot (R417). -/
def noteSealed (s : State) (e : BitVec 64) : State :=
  if bit e 57 && tteKind e = 2 then { s with sealed := sset 0 s.sealed (tteKey s e 0 / 65536) (fld e 52 5 + 1) } else s

/-- An entry is installed in the tile cache of the view's layout unit, most recently used; 256 entries stand (R49; log 6). -/
def installTile (s0 : State) (v : View) (tid : BitVec 16) (tile : Nat) (e : BitVec 64) : State :=
  let s := noteSealed s0 e
  let w := s.tower v.tower
  let rest := w.tiles.filter fun x => !(x.unit = v.unit && x.ctx = v.ctx && x.gen = v.gen && x.tid = tid && x.tile = tile)
  s.setTower v.tower { w with
    tiles := { unit := v.unit, ctx := v.ctx, gen := v.gen, tid := tid, tile := tile, tte := e } ::
      ((rest.filter fun x => x.unit = v.unit).take 255 ++ rest.filter fun x => x.unit ≠ v.unit) }

/-- An entry whose V is 0 (R46), whose KIND or FRAME R47 does not give, or whose OWN stops the access (R46). -/
def tteFault (e : BitVec 64) : Option Code :=
  let f := tteFrame e
  if !bit e 63 then some 0x1202
  else if !(match tteKind e with
      | 1 => decide (f < 2 ^ 14)
      | 2 => decide (f < 2 ^ 34) && f / 2 ^ 21 % 2 ^ 11 = 0 && decide (f % 2 ^ 21 < dramFrames)
      | 3 => true
      | 4 => decide (f < 2 ^ 11) && decide (f / 128 % 16 < 12)
      | _ => false) || fld e 48 2 ≠ 0 then some 0x1203
  else ownFault e

/-- Frame f of tower t is withheld as lane space (R332, R333). -/
def laneFrame (s : State) (t : TowerId) (f : Nat) : Bool :=
  let die := f / 98304
  let lsz := ((s.tower t).curdLs.toList.getD die 0).toNat
  let kib := if lsz = 0 then 0 else 32 * 2 ^ lsz
  decide (98304 * (die + 1) - 4 * kib * 32 ≤ f)

/-- The checks that every access makes of its entry (R46, R47, R333, R417). -/
def entryFault (s : State) (e : BitVec 64) : Option Code :=
  match tteFault e with
  | some c => some c
  | none =>
    if tteKind e = 2 && laneFrame s (towerNo (tteFrame e / 2 ^ 32)) (tteFrame e % 2 ^ 21) then some 0x1208
    else if bit e 57 && !bit s.hub.keyst (fld e 52 5) then some 0x120B
    else none

/-- The translation of one tile of the flat view (tid 0) or of a tensor: a tile-cache hit, or the walk, whose valid
answer is installed (R46, R48, R49, R54). -/
def resolveFlat (s : State) (v : View) (tile : Nat) : Trans × State :=
  match tileHit s v 0 tile with
  | some e => (.ok e, s)
  | none =>
    match flatWalk s v (BitVec.ofNat 64 (tile * 65536)) with
    | .ok e => (.ok e, if bit e 63 then installTile s v 0 tile e else s)
    | t => (t, s)

/-- The address where the walker reads an 8-byte word of the flat view: a DRAM frame of its tower, whose entry passes the checks of
every access (R55, R333; log 21). R46 does not say in which space TTAB lies: it is taken as an address of the flat view (log 21). -/
def walkerKey (s : State) (v : View) (a : Word) : Except Trans Nat :=
  match flatWalk s v a with
  | .ok e =>
    match entryFault s e with
    | some c => .error (.fault c)
    | none =>
      if tteKind e = 2 && fld e 32 2 = v.tower.val then .ok (tteKey s e (fld a 0 16)) else .error (.fault 0x1204)
  | .host _ _ _ _ => .error (.fault 0x1204)
  | t => .error t

/-- The walk of a tile of the tensor whose tile table stands at ttab (R46). -/
def tensorWalk (s : State) (v : View) (ttab : Word) (tile : Nat) : Trans :=
  match walkerKey s v (ttab + BitVec.ofNat 64 (8 * tile)) with
  | .error t => t
  | .ok key => match tableWord s key with
    | none => .fault 0x1001
    | some e => .ok e

/-! ### Checks of an entry -/

/-- What an L-, W- or X-slot access may reach (R31): its cluster's banks, its tower's DRAM, host ranges. -/
def reaches (c : CoreId) (e : BitVec 64) : Bool :=
  match tteKind e with
  | 1 => tteFrame e / 512 % 32 = (clusterOf c).val
  | 2 => tteFrame e / 2 ^ 32 % 4 = (towerOf c).val
  | 3 => true
  | _ => false

/-- A bank outside the pre-emptor's reserve partition (R360). -/
def outsideReserve (rb : Option (BitVec 32)) (e : BitVec 64) : Bool :=
  match rb with
  | some m => tteKind e = 1 && !bit m (tteFrame e % 32)
  | none => false

/-- BANKFMT of the bank that an entry of KIND 1 names (R34). -/
def entryBankfmt (s : State) (e : BitVec 64) : BitVec 32 :=
  ((s.cluster (clusterNo (tteFrame e / 512))).bankfmt.toList).getD (tteFrame e % 32) bankfmtReset

/-- The bank that an entry names has been lost with its tier (R408). -/
def lostBank (s : State) (e : BitVec 64) : Bool :=
  tteKind e = 1 && bit (s.tower (clusterTower (clusterNo (tteFrame e / 512)))).tiers.lost (tteFrame e % 32 / 8)

/-- The checks of an L-, W- or X-slot access of core c (R31, R35, R159, R249, R360, R390). fmt is the handle's format,
none through h0; write asks for WR. -/
def accessFault (s : State) (c : CoreId) (e : BitVec 64) (fmt : Option Nat) (write : Bool) : Option Code :=
  match entryFault s e with
  | some x => some x
  | none =>
    let r := (s.core c).run
    if !reaches c e then some 0x1204
    else if (match r with | some r => r.launch.det && tteKind e ≠ 1 | none => false) then some 0x0310
    else if write && !tteWr e then some 0x1205
    else if (match r with | some r => outsideReserve r.preemptor e | none => false) then some 0x120A
    else match fmt with
      | some f =>
        if tteKind e = 1 && fld (entryBankfmt s e) 0 8 ≠ 0 && fld (entryBankfmt s e) 0 8 ≠ f then some 0x1206 else none
      | none => none

/-- The checks of an object that is performed at an L2 home of the core's tower (R38). -/
def homeFault (s : State) (t : TowerId) (e : BitVec 64) (write : Bool) : Option Code :=
  match entryFault s e with
  | some x => some x
  | none =>
    if !(tteKind e = 2 && tteFrame e / 2 ^ 32 % 4 = t.val) then some 0x1102
    else if write && !tteWr e then some 0x1205
    else none

/-- The on-package link of tower t to the hub is up (R367, R431). -/
def towerLinked (s : State) (t : TowerId) : Bool := (s.hub.ports.toList.getD (16 + t.val) Port.reset).up

/-! ### The answer of a translation -/

/-- The answer of translation and checks: an entry, a code, or a range in transit (R401). -/
inductive Reach where
  | ok (tte : BitVec 64)
  | fault (c : Code)
  | transit
  /-- The walker has not answered yet, or the tower's on-package link is down: the access is held (R49, R431). -/
  | miss
  deriving DecidableEq, Repr

/-- The entry that a host page's own entry gives for a leaf of a range that does not migrate: a write needs WR of both (R46, R58). -/
def hostEntry (leaf e : BitVec 64) : BitVec 64 := if tteWr leaf then e else setBit e 51 false

/-- A host-range tile is resolved by the routine of its range (R57; log 11); a page without a mapping fails with 0x1005. -/
def reachOf (t : Trans) : Reach :=
  match t with
  | .ok e => .ok e
  | .fault x => .fault x
  | .transit => .transit
  | .miss => .miss
  | .host rout root va leaf =>
    let e := Config.hostWalk rout root va
    if bit e 63 then .ok (hostEntry leaf e) else .fault 0x1005

/-! ### Misses (R49, R54) -/

/-- Two requests of one layout unit for one tile. -/
def WalkReq.sameTile (a b : WalkReq) : Bool :=
  a.kind ≤ 2 && b.kind ≤ 2 && a.unit = b.unit && a.ctx = b.ctx && a.gen = b.gen && a.tid = b.tid && a.tile = b.tile

/-- A request joins the queue of the walker of tower t under the next tag (R53, R54). -/
def State.askWalker (s : State) (t : TowerId) (r : WalkReq) : State :=
  let w := s.tower t
  let k := w.walker
  (s.setTower t { w with walker := { k with queue := k.queue ++ [{ r with tag := k.nextTag }], nextTag := k.nextTag + 1 } })

/-- A layout unit sends one request for a missing tile (R53). -/
def sendMiss (s : State) (v : View) (r : WalkReq) : State :=
  let k := (s.tower v.tower).walker
  if (k.queue ++ k.cur.toList).any (WalkReq.sameTile r) then s else s.askWalker v.tower r

/-- The walker's answer that stands for a held access of the view's layout unit to a tile (R49, R55). -/
def walkAnswer (s : State) (v : View) (tid : BitVec 16) (tile : Nat) : Option WalkAnswer :=
  (s.tower v.tower).walked.find? fun x => x.unit = v.unit && x.ctx = v.ctx && x.gen = v.gen && x.tid = tid && x.tile = tile

/-- The answers that stand for a layout unit of tower t go, once its held access has been replayed or is given up. -/
def dropWalked (s : State) (t : TowerId) (unit : Nat) : State :=
  let w := s.tower t
  if w.walked.any fun x => x.unit = unit then s.setTower t { w with walked := w.walked.filter fun x => x.unit ≠ unit } else s

/-- A request of a view's layout unit. -/
def missRequest (v : View) (core : Option CoreId) (kind : Nat) (a2 : Word) (tile acc : Nat) (tid : BitVec 16) : WalkReq :=
  { kind := kind, record := 0, ctx := v.ctx, gen := v.gen, a2 := a2, a3 := if kind = 0 then BitVec.ofNat 64 tile else 0, acc := acc,
    tag := 0, tid := tid, core := core, dst := 0, entry := kind, unit := v.unit, tile := tile, leaf := 0 }

/-- The translation of a tile of the flat view through the tile cache: a hit; the walker's failure; a range in transit (R401); or a
miss, which sends a request and holds the access (R49). -/
def lookupFlat (s : State) (v : View) (core : Option CoreId) (acc tile : Nat) : Trans × State :=
  match tileHit s v 0 tile with
  | some e => (.ok e, s)
  | none => match walkAnswer s v 0 tile with
    | some x => (if x.code = 0 then .ok x.tte else .fault x.code, s)
    | none => match rangeCheck s v tile with
      | .inl .transit => (.transit, s)
      | _ => (.miss, sendMiss s v (missRequest v core 1 (BitVec.ofNat 64 (tile * 65536)) tile acc 0))

/-- The same for a tile of a tensor (R46, R49). -/
def lookupTensor (s : State) (v : View) (core : Option CoreId) (acc : Nat) (d : BitVec 512) (tile : Nat) : Trans × State :=
  match tileHit s v (dTid d) tile with
  | some e => (.ok e, s)
  | none => match walkAnswer s v (dTid d) tile with
    | some x => (if x.code = 0 then .ok x.tte else .fault x.code, s)
    | none => match walkerKey s v (dTtab d + BitVec.ofNat 64 (8 * tile)) with
      | .error .transit => (.transit, s)
      | _ => (.miss, sendMiss s v (missRequest v core 0 (dTtab d) tile acc (dTid d)))

/-! ### Bytes of the flat view, read by hardware -/

/-- Bytes of the flat view at an address, read at home by the hardware on behalf of a context. -/
def flatKeyOf (s : State) (v : View) (a : Word) : Except Code Nat × State :=
  let r := resolveFlat s v (fld a 16 48)
  (match reachOf r.1 with
   | .ok e =>
     match entryFault s e with
     | some x => .error x
     | none =>
       if lostBank s e then .error 0x2111
       else if tteKind e = 3 && !s.hub.cxlUp then .error 0x6001
       else .ok (tteKey s e (fld a 0 16))
   | .fault x => .error x
   | .transit | .miss => .error 0x1006, r.2)

/-- A number of n bytes at a flat address that does not cross a tile. -/
def flatRead (s : State) (v : View) (a : Word) (n : Nat) : Except Code Nat :=
  match (flatKeyOf s v a).1 with
  | .error x => .error x
  | .ok key => match poisonOf s key n with
    | some x => .error x
    | none => .ok (readNat s key n)

end Sys2Proof.Machine
end

