-- ==== Sys2Proof/Machine/Formats.lean ====
section
/-! DEFINITION. Number formats and their arithmetic (04): decoding (R87 to R93), rounding (R95, R96), the SR generator
(R97), conversions (R98, R99), MX and SA quantisation (R100, R101), the shared adder (R104 to R107) and ReduceTree
(R109). -/

namespace Sys2Proof.Machine

/-! ### Exact values -/

/-- A value between a decode and a rounding (R94): every finite one that arises is man × 2^exp, with its sign. -/
inductive Num where
  | nan
  | inf (neg : Bool)
  | fin (neg : Bool) (man : Nat) (exp : Int)
  deriving DecidableEq, Repr

/-- Flags in the order of NFLAGS[5:0] (R102). -/
abbrev Flags := BitVec 6
def fNV : Flags := 1
def fDZ : Flags := 2
def fOF : Flags := 4
def fUF : Flags := 8
def fNX : Flags := 16
def fSAT : Flags := 32

def Num.ofInt (x : Int) : Num := .fin (decide (x < 0)) x.natAbs 0
def Num.isZero : Num → Bool
  | .fin _ m _ => m = 0
  | _ => false
def Num.neg : Num → Num
  | .nan => .nan
  | .inf s => .inf !s
  | .fin s m e => .fin (!s) m e
def Num.abs : Num → Num
  | .nan => .nan
  | .inf _ => .inf false
  | .fin _ m e => .fin false m e
/-- Times 2^k. -/
def Num.scale (k : Int) : Num → Num
  | .fin s m e => .fin s m (e + k)
  | x => x
/-- Floor(Log2(|x|)) of a finite non-zero value. -/
def Num.log2 : Num → Int
  | .fin _ m e => (Nat.log2 m : Int) + e
  | _ => 0
/-- The signed mantissa of a finite value at exponent e0, at most its own. -/
def Num.at (e0 : Int) : Num → Int
  | .fin s m e => let v : Int := (m * 2 ^ (e - e0).toNat : Nat); if s then -v else v
  | _ => 0
def Num.expo : Num → Int
  | .fin _ _ e => e
  | _ => 0
/-- a < b on finite values and infinities; −0 = +0. -/
def Num.lt (a b : Num) : Bool :=
  match a, b with
  | .nan, _ => false
  | _, .nan => false
  | .inf true, .inf true => false
  | .inf true, _ => true
  | .inf false, _ => false
  | _, .inf s => !s
  | x, y => let e := min x.expo y.expo; decide (x.at e < y.at e)

/-! ### Float formats -/

/-- Layout of R89. -/
structure FloatFmt where
  e : Nat
  m : Nat
  bias : Int
  /-- Infinity and NaN at the all-ones exponent. -/
  ieee : Bool
  /-- S.1111.111 is NaN (E4M3). -/
  nanTop : Bool
  deriving DecidableEq, Repr

def fp32 : FloatFmt := { e := 8, m := 23, bias := 127, ieee := true, nanTop := false }
def bf16 : FloatFmt := { e := 8, m := 7, bias := 127, ieee := true, nanTop := false }
def fp16 : FloatFmt := { e := 5, m := 10, bias := 15, ieee := true, nanTop := false }
def e4m3 : FloatFmt := { e := 4, m := 3, bias := 7, ieee := false, nanTop := true }
def e5m2 : FloatFmt := { e := 5, m := 2, bias := 15, ieee := true, nanTop := false }
def e3m2 : FloatFmt := { e := 3, m := 2, bias := 3, ieee := false, nanTop := false }
def e2m3 : FloatFmt := { e := 2, m := 3, bias := 1, ieee := false, nanTop := false }
def e2m1 : FloatFmt := { e := 2, m := 1, bias := 1, ieee := false, nanTop := false }

def FloatFmt.width (f : FloatFmt) : Nat := 1 + f.e + f.m
def FloatFmt.emin (f : FloatFmt) : Int := 1 - f.bias
/-- Code of +∞ of an ieee format. -/
def FloatFmt.infCode (f : FloatFmt) : Nat := (2 ^ f.e - 1) * 2 ^ f.m
/-- Code of the largest finite magnitude. -/
def FloatFmt.maxCode (f : FloatFmt) : Nat :=
  if f.ieee then f.infCode - 1 else if f.nanTop then 2 ^ (f.e + f.m) - 2 else 2 ^ (f.e + f.m) - 1
/-- The canonical NaN (R89). -/
def FloatFmt.nanCode (f : FloatFmt) : Nat := if f.ieee then f.infCode + 2 ^ (f.m - 1) else 2 ^ (f.e + f.m) - 1
def FloatFmt.hasNan (f : FloatFmt) : Bool := f.ieee || f.nanTop
/-- A magnitude code with a sign. -/
def FloatFmt.signed (f : FloatFmt) (neg : Bool) (c : Nat) : Nat := if neg then 2 ^ (f.e + f.m) + c else c

/-- Decode of R89. -/
def FloatFmt.decode (f : FloatFmt) (x : Nat) : Num :=
  let c := x % 2 ^ (f.e + f.m)
  let neg := decide (x / 2 ^ (f.e + f.m) % 2 = 1)
  let ex := c / 2 ^ f.m
  let ma := c % 2 ^ f.m
  if f.ieee && ex = 2 ^ f.e - 1 then (if ma = 0 then .inf neg else .nan)
  else if f.nanTop && c = 2 ^ (f.e + f.m) - 1 then .nan
  else if ex = 0 then .fin neg ma (f.emin - f.m)
  else .fin neg (2 ^ f.m + ma) ((ex : Int) - f.bias - f.m)

/-! ### Rounding -/

/-- RoundMag (R95): a = man × 2^exp as a whole number of units 2^q, and whether anything was discarded. -/
def roundMag (man : Nat) (exp q : Int) (rm : Nat) (neg : Bool) (rnd : BitVec 32) : Nat × Bool :=
  if q ≤ exp then (man * 2 ^ (exp - q).toNat, false)
  else
    let d := 2 ^ (q - exp).toNat
    let lo := man / d
    let r := man % d
    let up := match rm with
      | 0 => decide (d < 2 * r) || (2 * r = d && lo % 2 = 1)
      | 1 => false
      | 2 => decide (0 < r) && !neg
      | 3 => decide (0 < r) && neg
      | 4 => decide (d ≤ 2 * r)
      | _ => decide (2 ^ 32 ≤ r * 2 ^ 32 / d + rnd.toNat)
    (if up then lo + 1 else lo, decide (0 < r))

/-- OverflowInto (R96). -/
def FloatFmt.overflow (f : FloatFmt) (neg : Bool) (rm : Nat) (sat : Bool) : Nat × Flags :=
  if f.ieee then
    if sat then (f.signed neg f.maxCode, fSAT)
    else if rm = 0 || rm = 4 || rm = 5 || (rm = 2 && !neg) || (rm = 3 && neg) then (f.signed neg f.infCode, 0)
    else (f.signed neg f.maxCode, 0)
  else if f.nanTop && !sat then (f.nanCode, 0)
  else (f.signed neg f.maxCode, fSAT)

/-- InfInto (R98). -/
def FloatFmt.ofInf (f : FloatFmt) (neg sat : Bool) : Nat × Flags :=
  if f.ieee then (f.signed neg f.infCode, 0)
  else if f.nanTop then (if sat then (f.signed neg f.maxCode, fOF ||| fSAT) else (f.nanCode, fOF))
  else (f.signed neg f.maxCode, fOF ||| fSAT)

/-- A value is not zero and lies below the smallest normal number (R96). -/
def FloatFmt.isTiny (f : FloatFmt) (x : Num) : Bool :=
  match x with
  | .fin _ man exp => man ≠ 0 && decide ((Nat.log2 man : Int) + exp < f.emin)
  | _ => false

/-- Round (R96): the code and the flags it raises. -/
def FloatFmt.round (f : FloatFmt) (x : Num) (rm : Nat) (sat : Bool) (rnd : BitVec 32) : Nat × Flags :=
  match x with
  | .nan => if f.hasNan then (f.nanCode, 0) else (0, fNV)
  | .inf neg => f.ofInf neg sat
  | .fin neg man exp =>
    if man = 0 then (f.signed neg 0, 0)
    else
      let lg := (Nat.log2 man : Int) + exp
      let q := max lg f.emin - f.m
      let r := roundMag man exp q rm neg rnd
      let c := (q + f.m + f.bias - 1).toNat * 2 ^ f.m + r.1
      let nx := if r.2 then fNX else 0
      let uf := if r.2 && lg < f.emin then fUF else 0
      if f.maxCode < c then
        let o := f.overflow neg rm sat
        (o.1, nx ||| uf ||| fOF ||| fNX ||| o.2)
      else (f.signed neg c, nx ||| uf)

/-! ### The SR generator (R97) -/

def mix64 (x0 : Word) : Word :=
  let x := x0 ^^^ (x0 >>> 32)
  let x := x * 0x9E6D51C3A7B24F35
  let x := x ^^^ (x >>> 29)
  let x := x * 0xD1B54A327C9E0E8B
  x ^^^ (x >>> 32)

/-- SrBits over six coordinates (R97). -/
def srBits (seed dom : Word) (c : Nat → Word) : BitVec 32 :=
  let h := upTo 6 (fun d h => mix64 (h ^^^ c d ^^^ (BitVec.ofNat 64 d <<< 56))) (mix64 (seed ^^^ dom))
  BitVec.ofNat 32 (h.toNat / 2 ^ 32)

/-- The random bits of a register result: lane, with SRSTR's bit 63 forced to 1 (R97). -/
def srLane (seed str : Word) (ln : Nat) : BitVec 32 :=
  srBits seed (setBit str 63 true) fun d => if d = 0 then BitVec.ofNat 64 ln else 0

/-- The random bits of a tensor element (R97). -/
def srElement (seed : Word) (tid : BitVec 16) (c : Nat → Nat) : BitVec 32 :=
  srBits seed (tid.setWidth 64) fun d => BitVec.ofNat 64 (c d)

/-! ### Formats by code (R87) -/

inductive FmtKind where
  | raw | float (f : FloatFmt) | e8m0 | sint (n : Nat) | uint (n : Nat) | tern | mxint | sa
  deriving DecidableEq, Repr

def fmtKind (c : Nat) : FmtKind :=
  match c with
  | 0x01 => .float fp32 | 0x02 => .float bf16 | 0x03 => .float fp16
  | 0x04 | 0x30 => .float e4m3 | 0x05 | 0x31 => .float e5m2
  | 0x06 | 0x32 => .float e3m2 | 0x07 | 0x33 => .float e2m3 | 0x08 | 0x34 => .float e2m1
  | 0x09 => .e8m0
  | 0x10 => .sint 32 | 0x11 => .sint 16 | 0x12 => .sint 8 | 0x13 => .sint 4 | 0x14 => .sint 2
  | 0x15 => .uint 8 | 0x16 => .uint 4 | 0x17 => .tern
  | 0x35 => .mxint
  | 0x20 | 0x21 | 0x22 => .sa
  | _ => .raw

/-- Stored width in bits of a format that is not raw. -/
def fmtBits (c : Nat) : Nat := 2 ^ (formatEsize c).getD 3

/-- The value of an E8M0 code (R90). -/
def decodeE8m0 (x : Nat) : Num := if x % 256 = 255 then .nan else .fin false 1 ((x % 256 : Nat) - 127)

/-- Decode with the flag of a ternary 0b10 (R91); an MX element under scale 2^0 (R98). -/
def decodeFmt (c x : Nat) : Num × Flags :=
  match fmtKind c with
  | .float f => (f.decode x, 0)
  | .e8m0 => (decodeE8m0 x, 0)
  | .sint n => (Num.ofInt (sextNat n x), 0)
  | .uint n => (Num.ofInt (x % 2 ^ n : Nat), 0)
  | .tern => match x % 4 with
    | 0 => (Num.ofInt 0, 0)
    | 1 => (Num.ofInt 1, 0)
    | 2 => (Num.ofInt (-1), fNV)
    | _ => (Num.ofInt (-1), 0)
  | .mxint => ((Num.ofInt (sextNat 8 x)).scale (-6), 0)
  | .raw | .sa => (Num.ofInt (x : Nat), 0)

/-! ### Integer encoders (R99) -/

/-- A whole number as a code of n bits. -/
def intCode (n : Nat) (v : Int) : Nat := (BitVec.ofInt n v).toNat

/-- Integer from float: rounded, then clamped to [lo, hi]; a clamp raises NV and SAT, in quantisation SAT and NX where
inexact; a negative value is beyond an unsigned range however it rounds (R99). -/
def intEncode (n : Nat) (lo hi : Int) (x : Num) (rm : Nat) (rnd : BitVec 32) (quant : Bool) : Nat × Flags :=
  match x with
  | .nan => (0, fNV)
  | .inf neg => (intCode n (if neg then lo else hi), if quant then fOF ||| fSAT else fNV ||| fSAT)
  | .fin neg man exp =>
    let r := roundMag man exp 0 rm neg rnd
    let v : Int := if neg then -(r.1 : Int) else r.1
    let nx := if r.2 then fNX else 0
    if v < lo || (lo = 0 && neg && man ≠ 0) then (intCode n lo, nx ||| (if quant then fSAT else fNV ||| fSAT))
    else if hi < v then (intCode n hi, nx ||| (if quant then fSAT else fNV ||| fSAT))
    else (intCode n v, nx)

/-- Integer from integer (R99). -/
def intFromInt (n : Nat) (lo hi v : Int) (sat : Bool) : Nat × Flags :=
  if lo ≤ v && v ≤ hi then (intCode n v, 0)
  else if sat then (intCode n (if v < lo then lo else hi), fSAT)
  else (intCode n v, 0)

def isIntKind : FmtKind → Bool
  | .sint _ | .uint _ | .tern => true
  | _ => false

/-- The whole number of a value decoded from an integer format. -/
def Num.toInt : Num → Int
  | .fin s m e => let v : Int := (m * 2 ^ e.toNat : Nat); if s then -v else v
  | _ => 0

/-- Encode into format b of a value decoded from format a (R98, R99). -/
def encodeFmt (a b : Nat) (x : Num) (rm : Nat) (sat : Bool) (rnd : BitVec 32) : Nat × Flags :=
  let fromInt := isIntKind (fmtKind a)
  match fmtKind b with
  | .float f => f.round x rm sat rnd
  | .e8m0 => match x with
    | .nan => (255, 0)
    | .inf _ => (255, fNV)
    | .fin neg man exp =>
      if neg || man = 0 then (255, fNV)
      else
        let lg := (Nat.log2 man : Int) + exp
        let e := max (-127) (min 127 lg)
        (((e + 127).toNat), if man = 2 ^ Nat.log2 man && e = lg then 0 else fNX)
  | .sint n =>
    let lo : Int := -(2 ^ (n - 1) : Nat)
    let hi : Int := (2 ^ (n - 1) : Nat) - 1
    if fromInt then intFromInt n lo hi x.toInt sat else intEncode n lo hi x rm rnd false
  | .uint n =>
    let hi : Int := (2 ^ n : Nat) - 1
    if fromInt then intFromInt n 0 hi x.toInt sat else intEncode n 0 hi x rm rnd false
  | .tern => match x with
    | .nan => (0, fNV)
    | .inf neg => (if neg then 3 else 1, fNV ||| fSAT)
    | .fin neg man exp =>
      let r := roundMag man exp 0 rm neg rnd
      let nx := if r.2 then fNX else 0
      if 1 < r.1 then (if neg then 3 else 1, nx ||| fSAT)
      else (if r.1 = 0 then 0 else if neg then 3 else 1, nx)
  | .mxint =>
    intEncode 8 (-128) 127 (x.scale 6) rm rnd false
  | .raw | .sa => (x.toInt.toNat, 0)

/-- A conversion between two formats (R98): the bits alone where one is raw (R99). -/
def convertFmt (a b x : Nat) (rm : Nat) (sat : Bool) (rnd : BitVec 32) : Nat × Flags :=
  if a = 0 || b = 0 then (x, 0)
  else
    let d := decodeFmt a x
    let e := encodeFmt a b d.1 rm sat rnd
    (e.1, d.2 ||| e.2)

/-! ### MX and SA quantisation -/

/-- emaxe of an MX element format (R100). -/
def mxEmax (c : Nat) : Int :=
  match c with
  | 0x30 => 8 | 0x31 => 15 | 0x32 => 4 | 0x33 => 2 | 0x34 => 2 | _ => 0

/-- The block maximum: an infinity counts as 2^128 (R100). -/
def blockMax (xs : List Num) : Num :=
  xs.foldl (fun m x =>
    let a := match x with
      | .inf _ => Num.fin false 1 128
      | y => y.abs
    if m.lt a then a else m) (.fin false 0 0)

/-- MxQuant (R100): the scale, the element codes, the flags. In the format code, 0x20 to 0x22 mean SA quantisation with
P planes (R101): emaxe P − 2 and whole codes clamped to ±(2^(P − 1) − 1). -/
def mxQuant (fmt : Nat) (xs : List Num) (rm : Nat) (rnd : Nat → BitVec 32) : Nat × List Nat × Flags :=
  if xs.contains .nan then (255, xs.map fun _ => 0, fNV)
  else
    let m := blockMax xs
    if m.isZero then
      (0, xs.map (fun x => match fmtKind fmt, x with
        | .float f, .fin neg _ _ => f.signed neg 0
        | _, _ => 0), 0)
    else
      let p : Nat := match fmt with | 0x20 => 8 | 0x21 => 4 | 0x22 => 2 | _ => 0
      let emax : Int := if p = 0 then mxEmax fmt else (p : Int) - 2
      let se := max (-127) (min 127 (m.log2 - emax))
      let es := (xs.zip (List.range xs.length)).map fun y =>
        let x := y.1
        let r := rnd y.2
        match fmtKind fmt with
        | .float f => match x with
          | .inf neg => (f.signed neg f.maxCode, fOF ||| fSAT)
          | _ => f.round (x.scale (-se)) rm true r
        | _ =>
          let n := if p = 0 then 8 else p
          let hi : Int := (2 ^ (n - 1) : Nat) - 1
          let y := if p = 0 then x.scale (6 - se) else x.scale (-se)
          intEncode n (-hi) hi y rm r true
      ((se + 127).toNat, es.map Prod.fst, es.foldl (fun acc e => acc ||| e.2) 0)

/-! ### The shared adder -/

/-- a × b + c, exact, with the special cases and flags of R104; the sign of an exact zero depends on the mode. -/
def fmaNum (a b c : Num) (rm : Nat) : Num × Flags :=
  match a, b, c with
  | .nan, _, _ | _, .nan, _ => (.nan, 0)
  | a, b, c =>
    let p : Option Num := match a, b with
      | .inf s, y => if y.isZero then none else some (.inf (s ^^ (match y with | .inf t => t | .fin t _ _ => t | .nan => false)))
      | x, .inf t => if x.isZero then none else some (.inf (t ^^ (match x with | .fin u _ _ => u | _ => false)))
      | .fin s m e, .fin t n f => some (.fin (s ^^ t) (m * n) (e + f))
      | _, _ => none
    match p with
    | none => (.nan, fNV)
    | some p => match p, c with
      | _, .nan => (.nan, 0)
      | .inf s, .inf t => if s = t then (.inf s, 0) else (.nan, fNV)
      | .inf s, _ => (.inf s, 0)
      | _, .inf t => (.inf t, 0)
      | x, y =>
        let e := min x.expo y.expo
        let v := x.at e + y.at e
        let sgn : Num → Bool := fun z => match z with | .fin s _ _ => s | _ => false
        if v = 0 then
          if x.isZero && y.isZero && sgn x = sgn y then (.fin (sgn x) 0 0, 0) else (.fin (decide (rm = 3)) 0 0, 0)
        else (.fin (decide (v < 0)) v.natAbs e, 0)

/-- The FMA of a format: operands by code, one rounding (R104, R106). The NaN of 0 × ∞ raises NV, even when c is NaN. -/
def fmaFmt (src dst : FloatFmt) (a b c : Nat) (rm : Nat) (rnd : BitVec 32) : Nat × Flags :=
  let r := fmaNum (src.decode a) (src.decode b) (src.decode c) rm
  let o := dst.round r.1 rm false rnd
  (o.1, r.2 ||| o.2)

def fma32 (a b c : Nat) (rm : Nat) : Nat × Flags := fmaFmt fp32 fp32 a b c rm 0
def add32 (a b : Nat) (rm : Nat) : Nat × Flags := fma32 a 0x3F800000 b rm

/-- FPromote (R105). -/
def fPromote (acc sw : BitVec 32) (ea : Byte) (narrow : Int) : BitVec 32 × Flags :=
  if ea = 255 then (0x7FC00000, fNV)
  else
    let mul := (fp32.decode sw.toNat).scale ((ea.toNat : Int) - 127)
    let r := fmaNum mul (Num.ofInt narrow) (fp32.decode acc.toNat) 0
    let o := fp32.round r.1 0 false 0
    (BitVec.ofNat 32 o.1, r.2 ||| o.2)

/-- SatAdd32 (R107): the sum and whether it was clamped. -/
def satAdd (n : Nat) (x y : Int) : Int × Bool :=
  let hi : Int := (2 ^ (n - 1) : Nat) - 1
  let lo : Int := -(2 ^ (n - 1) : Nat)
  let v := x + y
  if v < lo then (lo, true) else if hi < v then (hi, true) else (v, false)

/-- FMax and FMin on codes of a format: NaN to the canonical NaN, −0 below +0 (R109). -/
def fMaxMin (f : FloatFmt) (isMax : Bool) (a b : Nat) : Nat :=
  match f.decode a, f.decode b with
  | .nan, _ => f.nanCode
  | _, .nan => f.nanCode
  | x, y =>
    let neg : Nat → Bool := fun c => decide (c / 2 ^ (f.e + f.m) % 2 = 1)
    let less := x.lt y || (!y.lt x && neg a && !neg b)
    if less = isMax then b else a

/-- One level of ReduceTree: adjacent pairs (R109). -/
def reducePairs (op : Nat → Nat → Nat × Flags) : List Nat → List Nat × Flags
  | a :: b :: xs =>
    let r := op a b
    let q := reducePairs op xs
    (r.1 :: q.1, r.2 ||| q.2)
  | xs => (xs, 0)

/-- ReduceTree over 2^k values (R109). -/
def reduceTree (op : Nat → Nat → Nat × Flags) : Nat → List Nat → Nat × Flags
  | 0, xs => (xs.headD 0, 0)
  | k + 1, xs =>
    let r := reducePairs op xs
    let q := reduceTree op k r.1
    (q.1, r.2 ||| q.2)

end Sys2Proof.Machine
end

