-- ==== Sys2Proof/Machine/Registers.lean ====
section
/-! DEFINITION. Reading and writing the registers of a core: constants s0 and p0 (R191), rotation (R209), results in
flight (R205, R206), the broadcast port (R208), guards (R192) and what a group that breaks R203 may see (R382). -/

namespace Sys2Proof.Machine

/-! ### Physical registers -/

/-- VB and PB of ROT (R209). -/
def rotVB (rot : Word) : Nat := fld rot 8 5
def rotPB (rot : Word) : Nat := fld rot 0 3

/-- Logical v(32 + i) names physical v(32 + (i + VB) mod 32) (R209). -/
def vphys (rot : Word) (n : BitVec 6) : BitVec 6 :=
  if n.toNat < 32 then n else BitVec.ofNat 6 (32 + (n.toNat - 32 + rotVB rot) % 32)

/-- Logical p(8 + i) names physical p(8 + (i + PB) mod 8) (R209). -/
def pphys (rot : Word) (n : BitVec 4) : BitVec 4 :=
  if n.toNat < 8 then n else BitVec.ofNat 4 (8 + (n.toNat - 8 + rotPB rot) % 8)

/-- A one-bit predicate as a register value. -/
def ofBool (b : Bool) : Vec := if b then 1 else 0

/-- What a register holds once its latest write has landed. -/
def Regs.base (r : Regs) : RegRef → Vec
  | .s n => (r.s.get n.toFin).setWidth 4096
  | .p n => ofBool (r.p.getLsbD n.toNat)
  | .v n => r.v.get n.toFin
  | .k n => (r.k.get n.toFin).setWidth 4096

/-- A write to s0 or p0 is discarded (R191). -/
def RegRef.constant : RegRef → Bool
  | .s n => n = 0
  | .p n => n = 0
  | _ => false

/-- The register holds v. -/
def Regs.put (r : Regs) (ref : RegRef) (v : Vec) : Regs :=
  match ref with
  | .s n => if n = 0 then r else { r with s := r.s.set n.toNat (v.setWidth 64) n.isLt }
  | .p n => if n = 0 then r else { r with p := setBit r.p n.toNat (v.getLsbD 0) }
  | .v n => { r with v := r.v.set n.toNat v n.isLt }
  | .k n => { r with k := r.k.set n.toNat (v.setWidth 512) n.isLt }

/-- A number that tells registers apart, for the choices of R382. -/
def RegRef.code : RegRef → Nat
  | .s n => n.toNat
  | .v n => 64 + n.toNat
  | .p n => 128 + n.toNat
  | .k n => 144 + n.toNat

/-! ### Results in flight -/

/-- The latest result in flight for ref from a slot other than x: such a read would have waited for it (R206). -/
def Regs.pending (r : Regs) (x : Fin 8) (ref : RegRef) : Option Vec :=
  ((r.fly.filter fun f => f.reg = some ref && f.slot ≠ x).getLast?).map InFlight.value

/-- What slot x sees of ref in program order: results of other slots at once, its own only when landed (R205, R206). -/
def Regs.seen (r : Regs) (x : Fin 8) (ref : RegRef) : Vec := (r.pending x ref).getD (r.base ref)

/-- A choice of the state's counter for a register (R382; log 4). -/
def racePick (n : Nat) (ref : RegRef) : Bool := Config.raceChoice (256 * n + ref.code)

/-- What slot x reads of ref. Where the group in progress has written it from another slot, the read sees the whole value
before that write or the whole value written (R382). -/
def Core.read (k : Core) (n : Nat) (x : Fin 8) (ref : RegRef) : Vec :=
  match k.group.find? fun g => g.reg = ref && g.slot ≠ x with
  | some g => if racePick n ref then k.regs.seen x ref else g.old
  | none => k.regs.seen x ref

/-- Results in flight for ref land, the latest standing (R206). -/
def Regs.landAll (r : Regs) (ref : RegRef) : Regs :=
  let v := ((r.fly.filter fun f => f.reg = some ref).getLast?).map InFlight.value
  let r1 := { r with fly := r.fly.map fun f => if f.reg = some ref then { f with reg := none } else f }
  match v with
  | some v => r1.put ref v
  | none => r1

/-- Results in flight for ref from slots other than x land: a write of slot x waits for them (R206). -/
def Regs.landOthers (r : Regs) (x : Fin 8) (ref : RegRef) : Regs :=
  match r.pending x ref with
  | none => r
  | some v =>
    { (r.put ref v) with
      fly := r.fly.map fun f => if f.reg = some ref && f.slot ≠ x then { f with reg := none } else f }

/-- Entries of the results in flight that a later one, visible within n entries, hides for good: a read sees the latest
write in program order that it may see, whatever the order of landing (R205, R208). -/
def hideEarlier (n : Nat) : List InFlight → List InFlight
  | [] => []
  | f :: rest =>
    let hidden := rest.any fun g => decide (g.rem ≤ n) && g.reg.isSome && decide (g.reg = f.reg)
    let bcHidden := rest.any fun g => decide (g.rem ≤ n) && g.bc
    { f with reg := if hidden then none else f.reg, bc := f.bc && !bcHidden } :: hideEarlier n rest

/-- Results that an entry n places on may see land, in program order (R205). -/
def Regs.landWithin (r : Regs) (n : Nat) : Regs :=
  let fly := hideEarlier n r.fly
  let due := fly.filter fun f => decide (f.rem ≤ n)
  let r1 := due.foldl (fun q f =>
    let q1 := match f.reg with
      | some ref => q.put ref f.value
      | none => q
    if f.bc then { q1 with bc := f.value.setWidth 64 } else q1) r
  { r1 with fly := fly.filter fun f => decide (n < f.rem) && (f.reg.isSome || f.bc) }

/-- Results whose distance has run out land. -/
def Regs.landDue (r : Regs) : Regs := r.landWithin 0

/-- One entry more has passed in every slot queue (R205). -/
def Regs.pass (r : Regs) : Regs := { r with fly := r.fly.map fun f => { f with rem := f.rem - 1 } }

/-- bc as the V, X, M and E slots read it: the latest BCAST result (R208). -/
def Regs.bcValue (r : Regs) : Word :=
  match (r.fly.filter fun f => f.bc).getLast? with
  | some f => f.value.setWidth 64
  | none => r.bc

/-- Where the group has written ref from another slot, the register ends with one of the two values (R382). -/
def Core.settle (k : Core) (n : Nat) (x : Fin 8) (ref : RegRef) (v : Vec) : Vec :=
  match k.group.find? fun g => g.reg = ref && g.slot ≠ x with
  | some _ => if racePick n ref then v else k.regs.seen x ref
  | none => v

/-- The group in progress notes a write of slot x to ref. -/
def Core.noteWrite (k : Core) (x : Fin 8) (ref : RegRef) : Core :=
  { k with group := { slot := x, reg := ref, old := k.regs.seen x ref } :: k.group }

/-- A write of a slot without exposed latency: C, L, W, M, E (R206). -/
def Core.writeNow (k : Core) (n : Nat) (x : Fin 8) (ref : RegRef) (v : Vec) : Core :=
  if ref.constant then k
  else
    let v' := k.settle n x ref v
    let k1 := k.noteWrite x ref
    { k1 with regs := (k1.regs.landAll ref).put ref v' }

/-- A write of slot A, V or X with latency lat (R204, R205); bc set when the result drives the broadcast port. -/
def Core.writeLater (k : Core) (n : Nat) (x : Fin 8) (ref : RegRef) (v : Vec) (lat : Nat) (bc : Bool) : Core :=
  if ref.constant then
    if bc then { k with regs := { k.regs with fly := k.regs.fly ++
      [{ slot := x, reg := none, value := v, rem := lat, bc := true }] } } else k
  else
    let v' := k.settle n x ref v
    let k1 := k.noteWrite x ref
    let r := k1.regs.landOthers x ref
    { k1 with regs := { r with fly := r.fly ++ [{ slot := x, reg := some ref, value := v', rem := lat, bc := bc }] } }

/-! ### Operand reads by the step's core -/

/-- Scalar register n as slot x reads it: s0 reads zero (R191). -/
def State.rdS (s : State) (x : Fin 8) (n : BitVec 6) : Word :=
  if n = 0 then 0 else (s.me.read s.freeN x (.s n)).setWidth 64

/-- A scalar source field of the V, X, M and E slots: 63 names bc (R191, R208). -/
def State.rdSB (s : State) (x : Fin 8) (n : BitVec 6) : Word :=
  if n = 63 then s.me.regs.bcValue else s.rdS x n

/-- Vector register, by its logical number. -/
def State.rdV (s : State) (x : Fin 8) (n : BitVec 6) : Vec :=
  s.me.read s.freeN x (.v (vphys s.me.regs.rot n))

/-- Predicate, by its logical number: p0 reads 1. -/
def State.rdP (s : State) (x : Fin 8) (n : BitVec 4) : Bool :=
  n = 0 || (s.me.read s.freeN x (.p (pphys s.me.regs.rot n))).getLsbD 0

/-- Mask register. -/
def State.rdK (s : State) (x : Fin 8) (n : BitVec 3) : Mask := (s.me.read s.freeN x (.k n)).setWidth 512

/-- Handle register (R248). -/
def State.rdH (s : State) (n : BitVec 5) : BitVec 704 := s.me.regs.h.get n.toFin

/-- The scalar guard (R192). -/
def State.guard (s : State) (x : Fin 8) (g : BitVec 4) : Bool := s.rdP x g

/-- The vector guard: whether element e of E takes effect (R192, R267). -/
def State.laneOn (s : State) (x : Fin 8) (g : BitVec 4) (count e : Nat) : Bool :=
  if g = 0 then true
  else if 8 ≤ g.toNat then s.rdP x g
  else (s.rdK x (g.setWidth 3)).getLsbD (e * 512 / count)

/-- A guard of p8 to p15 that is false suppresses the whole instruction (R192). -/
def State.vectorGuard (s : State) (x : Fin 8) (g : BitVec 4) : Bool :=
  if 8 ≤ g.toNat then s.rdP x g else true

/-! ### Writes by the step's core -/

def State.wrS (s : State) (x : Fin 8) (n : BitVec 6) (v : Word) : State :=
  s.setMe (s.me.writeNow s.freeN x (.s n) (v.setWidth 4096))

def State.wrV (s : State) (x : Fin 8) (n : BitVec 6) (v : Vec) : State :=
  s.setMe (s.me.writeNow s.freeN x (.v (vphys s.me.regs.rot n)) v)

/-- Scalar d with latency lat; bc when the A slot of a BCAST bundle drives the port. -/
def State.laterS (s : State) (x : Fin 8) (n : BitVec 6) (v : Word) (lat : Nat) (bc : Bool) : State :=
  s.setMe (s.me.writeLater s.freeN x (.s n) (v.setWidth 4096) lat bc)

def State.laterP (s : State) (x : Fin 8) (n : BitVec 4) (v : Bool) (lat : Nat) (bc : Bool) : State :=
  s.setMe (s.me.writeLater s.freeN x (.p (if n = 0 then 0 else pphys s.me.regs.rot n)) (ofBool v) lat bc)

def State.laterV (s : State) (x : Fin 8) (n : BitVec 6) (v : Vec) (lat : Nat) : State :=
  s.setMe (s.me.writeLater s.freeN x (.v (vphys s.me.regs.rot n)) v lat false)

def State.laterK (s : State) (x : Fin 8) (n : BitVec 3) (v : Mask) (lat : Nat) : State :=
  s.setMe (s.me.writeLater s.freeN x (.k n) (v.setWidth 4096) lat false)

/-- The register state of the step's core is changed. -/
def State.mapRegs (s : State) (f : Regs → Regs) : State := s.setMe { s.me with regs := f s.me.regs }

end Sys2Proof.Machine
end

