-- ==== Sys2Proof/Machine/Rings.lean ====
section
/-! DEFINITION. Rings and reports: completion rings (R316), fault queues and their records (R392), statistics records
(R238), MSI-X vectors (R186), and the faults of instances (R394). -/

namespace Sys2Proof.Machine

/-! ### Completion rings -/

/-- The hub raises a vector (R186). -/
def raise (s : State) (vec : Nat) : State :=
  (s.mapHub fun h => { h with raised := BitVec.ofNat 11 vec :: h.raised })

/-- The vectors of the valid RINGV bindings that name the header at key (R186). -/
def ringVectors (s : State) (key : Nat) : List Nat :=
  (s.hub.ringv.filter fun e => bit e.2 0 && dramKey (towerNo (fld e.2 80 2)) (fld e.2 5 59 * 32) = key).map
    fun e => fld e.2 64 11

/-- How a ring takes a record (R316). -/
inductive RingResult where
  | taken (s : State)
  | full (s : State)
  | noSlots
  /-- The slot cannot be written. -/
  | unusable

/-- The offset from its header of the slot that a ring writes next (R316). -/
def ringNext (s : State) (key : Nat) : Nat := 32 + 32 * (readNat s (key + 4) 4 % 2 ^ (readNat s (key + 16) 1 % 16))

/-- A record of 32 bytes is offered to the ring whose header is at key and whose next slot is at slot: the slot first, then
TAILC; a full ring refuses it and advances FULLC; a header with NLOG 0 drops it (R316). -/
def ringPut (s : State) (key : Nat) (slot : Option Nat) (entry : BitVec 256) : RingResult :=
  let headc := readNat s key 4
  let tailc := readNat s (key + 4) 4
  let nlog := readNat s (key + 16) 1 % 16
  if nlog = 0 then .noSlots
  else if (tailc + 2 ^ 32 - headc) % 2 ^ 32 < 2 ^ nlog then
    match slot with
    | none => .unusable
    | some a => .taken (writeNat (writeNat s a 32 entry.toNat) key 8 (headc + (tailc + 1) % 2 ^ 32 * 2 ^ 32))
  else .full (writeNat s (key + 12) 4 (readNat s (key + 12) 4 + 1))

/-! ### Fault queues -/

/-- A record of a fault queue (R392). -/
def faultEntry (s : State) (code : Code) (ctx : BitVec 16) (gen : BitVec 8) (src : Nat) (addr info : Word) :
    BitVec 256 :=
  s.hub.podTime ++ info ++ addr ++ code ++ ctx ++ gen ++ BitVec.ofNat 8 src ++ (0 : BitVec 15) ++ (1 : BitVec 1)

/-- The memory key of fault queue i's header: of tower i, and of the hub at i = 4 in tower 0 (R392; log 22). -/
def faultQueueKey (s : State) (i : Nat) : Nat := dramKey (towerNo i) (s.hub.fq.toList.getD i 0).toNat

/-- A record is appended to fault queue i; a full queue drops it and advances FULLC; the vector bound to the queue is
raised when TAILC advances (R392, R186). -/
def faultRecord (s : State) (i : Nat) (code : Code) (ctx : BitVec 16) (gen : BitVec 8) (src : Nat)
    (addr info : Word) : State :=
  let v := s.hub.fqvec.toList.getD i 0
  let key := faultQueueKey s i
  match ringPut s key (some (key + ringNext s key)) (faultEntry s code ctx gen src addr info) with
  | .taken s1 => if bit v 11 then raise s1 (fld v 0 11) else s1
  | .full s1 => s1
  | .noSlots | .unusable => s

/-- A record of the hub's fault queue, detected by the hub or the host port (R392, R428). -/
def hubRecord (s : State) (code : Code) (info : Word) : State := faultRecord s 4 code 0 0 136 0 info

/-! ### Statistics records -/

/-- A record of R238 is appended to core c's queue: at most 32 stand, one that finds the queue full is dropped and sets
OVF; SEQ counts both. -/
def statRecord (s : State) (c : CoreId) (src : Nat) (code : Code) (addr : Word) (pay : BitVec 128) : State :=
  let k := s.core c
  let r : BitVec 256 := pay ++ code ++ BitVec.ofNat 8 src ++ (0 : BitVec 8) ++ k.statSeq ++ addr
  let k1 := { k with statSeq := k.statSeq + 1 }
  s.setCore c (if k.stats.length < 32 then { k1 with stats := k.stats ++ [r] } else { k1 with statOvf := true })

/-- A record for every core of a tower: thermal and power events, SRC 6, ADDR 0 (R238, R418). -/
def towerStat (s : State) (t : TowerId) (code : Code) : State :=
  (List.finRange 128).foldl (fun st c => if towerOf c = t then statRecord st c 6 code 0 0 else st) s

/-- SLOG as it reads: 9 to 15 read as 8 (R239). -/
def slogRead (w : Word) : Nat := min 8 (fld w 8 4)

/-- STATQ as it reads: LVL and OVF with the rest (R239). -/
def statqValue (k : Core) : Word :=
  setFld (setFld (setBit (setFld k.regs.statq 0 7 0) 6 k.statOvf) 0 6 k.stats.length) 8 4 (slogRead k.regs.statq)

/-! ### Records and instances -/

/-- STATE of a node record at key (R13, R14). -/
def recordState (s : State) (key : Nat) : Nat := fld (readWord s (key + 8)) 28 4
/-- Word 1 of a record with STATE, OWNV, OWNER replaced. -/
def setRecordState (s : State) (key st : Nat) (ownv : Bool) (owner : Nat) : State :=
  let w := readWord s (key + 8)
  writeWord s (key + 8) (setFld (setBit (setFld w 28 4 st) 39 ownv) 32 7 owner)
/-- STATE alone, with OWNV cleared (R27). -/
def leaveRecord (s : State) (key st : Nat) : State :=
  let w := readWord s (key + 8)
  writeWord s (key + 8) (setBit (setFld w 28 4 st) 39 false)
/-- FAULT of a record (R13). -/
def setRecordFault (s : State) (key : Nat) (c : Code) : State := writeNat s (key + 14) 2 c.toNat
def recordFault (s : State) (key : Nat) : Nat := readNat s (key + 14) 2

/-- STATE of an instance header at key (R19). -/
def headerState (s : State) (key : Nat) : Nat := fld (readWord s key) 60 4
def setHeaderState (s : State) (key st : Nat) : State := writeWord s key (setFld (readWord s key) 60 4 st)
def headerRemain (s : State) (key : Nat) : Nat := fld (readWord s key) 44 16
def setHeaderRemain (s : State) (key n : Nat) : State := writeWord s key (setFld (readWord s key) 44 16 n)
def headerFault (s : State) (key : Nat) : Nat := readNat s (key + 40) 2
def setHeaderFault (s : State) (key : Nat) (c : Code) : State := writeNat s (key + 40) 2 c.toNat
def headerCtx (s : State) (key : Nat) : BitVec 16 := BitVec.ofNat 16 (readNat s (key + 8) 2)
def headerGen (s : State) (key : Nat) : BitVec 8 := readByte s (key + 10)
def headerRing (s : State) (key : Nat) : Word := BitVec.ofNat 64 (fld (readWord s (key + 24)) 5 59 * 32)
def headerArmcnt (s : State) (key : Nat) : Nat := readNat s (key + 12) 4

/-- The instance faults: FAULT ← code if it is zero, STATE ← 2 while it is armed, and one fault-queue record (R394). -/
def faultInstance (s : State) (home : Nat) (hdrKey : Nat) (code : Code) (ctx : BitVec 16) (gen : BitVec 8)
    (src : Nat) (addr info : Word) : State :=
  let s1 := if headerFault s hdrKey = 0 then setHeaderFault s hdrKey code else s
  let s2 := if headerState s1 hdrKey = 1 then setHeaderState s1 hdrKey 2 else s1
  faultRecord s2 home code ctx gen src addr info

/-- A node faults: STATE ← 5, FAULT ← code, OWNV ← 0 in its record, then its instance (R384, R394). -/
def faultNode (s : State) (home : Nat) (recKey hdrKey : Nat) (code : Code) (ctx : BitVec 16) (gen : BitVec 8)
    (src : Nat) (rec info : Word) : State :=
  let s1 := setRecordFault (leaveRecord s recKey 5) recKey code
  faultInstance s1 home hdrKey code ctx gen src rec info

end Sys2Proof.Machine
end

