-- ==== Sys2Proof/Machine/Objects.lean ====
section
/-! DEFINITION. The words that live at L2 homes: transaction barriers (R84, R85), sync objects (R66, R70 to R72) and the
operations of atomics (R262), with the combining buffer (R79). -/

namespace Sys2Proof.Machine

/-! ### Barriers -/

def barPend (w : Word) : Nat := fld w 0 32
def barArrv (w : Word) : Nat := fld w 32 12
def barErr (w : Word) : Bool := bit w 54
def barOpen (w : Word) : Bool := bit w 55
def barPhase (w : Word) : Nat := fld w 56 8

/-- An open barrier with nothing left to expect completes its phase (R85). -/
def barSettle (w : Word) : Word :=
  if barPend w = 0 && barArrv w = 0 then setFld (setBit w 55 false) 56 8 (barPhase w + 1) else w

/-- Arm with b bytes and a arrivals: none when the barrier is open (R85). -/
def barArm (w : Word) (b a : Nat) : Option Word :=
  if barOpen w then none
  else some (barSettle (setFld (setFld (setBit (setBit w 55 true) 54 false) 32 12 a) 0 32 b))

/-- What an expect, a completion or an arrival does to the word, none when it finds the barrier closed (R85). -/
def barExpect (w : Word) (e : Nat) : Option Word :=
  if !barOpen w then none
  else some (barSettle (if barPend w + e < 2 ^ 32 then setFld w 0 32 (barPend w + e) else setBit w 54 true))
def barBytes (w : Word) (n : Nat) : Option Word :=
  if !barOpen w then none
  else some (barSettle (if n ≤ barPend w then setFld w 0 32 (barPend w - n) else setBit (setFld w 0 32 0) 54 true))
def barArrive (w : Word) : Option Word :=
  if !barOpen w then none
  else some (barSettle (if barArrv w = 0 then setBit w 54 true else setFld w 32 12 (barArrv w - 1)))

/-- ERR set by a copy that failed, in the word as the decrement left it, whether or not the phase has completed: the
copy's bytes count first (R314). -/
def barFail (w : Word) : Word := setBit w 54 true

/-- The result of an operation on the barrier at key is written. A closed barrier (0x4021, SRC src) and an operation that
sets ERR, be it set already (0x4020, SRC of the tower), are reported to the queue of the barrier's tower with the word before
(R392, R412, R414). f gets the word without ERR. -/
def barrierApply (s : State) (key : Nat) (f : Word → Option Word) (ctx : BitVec 16) (gen : BitVec 8) (src : Nat)
    (addr : Word) : State :=
  let w := readWord s key
  let t := key / 2 ^ 40
  match f (setBit w 54 false) with
  | none => faultRecord s t 0x4021 ctx gen src addr w
  | some x =>
    let s1 := writeWord s key (setBit x 54 (barErr x || barErr w))
    if barErr x then faultRecord s1 t 0x4020 ctx gen (132 + t) addr w else s1

/-! ### Atomics -/

/-- A commutative atomic reaches its slice: joined with the same operation on its word, or buffered after any other
operation on the word has been applied; a full buffer is applied first (R79). -/
def offerCombined (s : State) (t : TowerId) (key : Nat) (op : Fin 11) (y : Word) : State :=
  let w := s.tower t
  match w.combine.find? fun c => c.key = key with
  | some c =>
    if c.op = op then
      s.setTower t { w with combine := w.combine.map fun d =>
        if d.key = key then { d with y := atomicJoin op.val d.y y } else d }
    else
      let s1 := flushWord s t key
      s1.setTower t { (s1.tower t) with combine := (s1.tower t).combine ++ [{ key := key, op := op, y := y }] }
  | none =>
    let s1 := if 16 ≤ w.combine.length then flushCombined s t else s
    s1.setTower t { (s1.tower t) with combine := (s1.tower t).combine ++ [{ key := key, op := op, y := y }] }

/-! ### Sync objects -/

def syncXh (w : Word) : Bool := bit w 63
def syncShr (w : Word) : Nat := fld w 48 15
def syncCtx (w : Word) : BitVec 16 := BitVec.ofNat 16 (fld w 32 16)
def syncGen (w : Word) : BitVec 8 := BitVec.ofNat 8 (fld w 24 8)
def syncEpoch (w : Word) : Nat := fld w 0 24
def syncHeld (w : Word) : Bool := syncXh w || decide (0 < syncShr w)

/-- A grant: XH or SHR, with the acquirer's tag and generation (R69). -/
def syncGrant (w : Word) (excl : Bool) (ctx : BitVec 16) (gen : BitVec 8) : Word :=
  let w1 := if excl then setBit w 63 true else setFld w 48 15 (syncShr w + 1)
  setFld (setFld w1 32 16 ctx.toNat) 24 8 gen.toNat

/-- A release of one hold (R70). -/
def syncRelease (w : Word) (excl : Bool) : Word :=
  if excl then setFld (setBit w 63 false) 0 24 (syncEpoch w + 1) else setFld w 48 15 (syncShr w - 1)

/-- Stale holders are cleared, EPOCH unchanged (R72). -/
def syncClear (w : Word) : Word := setFld (setBit w 63 false) 48 15 0

/-- Compatibility of an acquire with the word (R71). -/
def syncCompatible (w : Word) (excl : Bool) : Bool :=
  if excl then !syncXh w && syncShr w = 0 else !syncXh w && decide (syncShr w < 32767)

/-- The holders' context has been killed or wrapped since (R72). -/
def syncStale (s : State) (w : Word) : Bool := syncHeld w && ctxGen s (syncCtx w) ≠ syncGen w

/-! ### Receive queues -/

/-- Entry q of the receive-queue table (R179), a device physical address in tower 0 (R186). -/
def recvKey (s : State) (q : Nat) : Nat := dramKey 0 (fld s.hub.rqtb 13 51 * 8192 + 32 * q)

/-! ### The region binding table (R67) -/

def bSync (e : BitVec 256) : Word := BitVec.ofNat 64 (fld e 195 61 * 8)
def bValid (e : BitVec 256) : Bool := bit e 192
def bTid (e : BitVec 256) : BitVec 16 := BitVec.ofNat 16 (fld e 176 16)
def bFirst (e : BitVec 256) : Nat := fld e 64 64
def bLast (e : BitVec 256) : Nat := fld e 0 64

/-- A line lies in the region of a binding entry (R67). -/
def inRegion (e : BitVec 256) (l : L1Line) : Bool :=
  if bTid e = 0 then
    l.tid = 0 && decide (bFirst e ≤ l.tile * 65536 + l.line * 128 + 127)
      && decide (l.tile * 65536 + l.line * 128 ≤ bLast e)
  else l.tid = bTid e && decide (bFirst e ≤ l.tile) && decide (l.tile ≤ bLast e)

end Sys2Proof.Machine
end

