-- ==== Sys2Proof/Machine/Packets.lean ====
section
/-! DEFINITION. Gengilon packets (R166) and their way out: sequence numbers, the watermark of an output (R173), flits and
retry buffers (R164, R429). -/

namespace Sys2Proof.Machine

/-! ### Headers (R166) -/

def pStamp (h : BitVec 256) : Word := BitVec.ofNat 64 (fld h 192 64)
def pSeq (h : BitVec 256) : Nat := fld h 160 32
def pDst (h : BitVec 256) : Nat := fld h 144 16
def pSrc (h : BitVec 256) : Nat := fld h 128 16
def pDrq (h : BitVec 256) : Nat := fld h 120 8
def pSep (h : BitVec 256) : Nat := fld h 112 8
def pCls (h : BitVec 256) : Nat := fld h 109 3
def pUnit (h : BitVec 256) : Bool := bit h 104
def pLen (h : BitVec 256) : Nat := fld h 96 8
def pTag (h : BitVec 256) : BitVec 16 := BitVec.ofNat 16 (fld h 80 16)
def pCtx (h : BitVec 256) : BitVec 16 := BitVec.ofNat 16 (fld h 64 16)
def pGen (h : BitVec 256) : BitVec 8 := BitVec.ofNat 8 (fld h 56 8)

/-- The fields that a sender chooses. -/
structure Send where
  dst : Nat
  drq : Nat
  unit : Bool
  sep : Nat
  cls : Nat
  len : Nat
  tag : BitVec 16
  ctx : BitVec 16
  gen : BitVec 8
  deriving DecidableEq, Repr

def mkHeader (p : Send) (stamp : Word) (seq : BitVec 32) (src : Nat) : BitVec 256 :=
  stamp ++ seq ++ BitVec.ofNat 16 p.dst ++ BitVec.ofNat 16 src ++ BitVec.ofNat 8 p.drq ++ BitVec.ofNat 8 p.sep
    ++ BitVec.ofNat 3 p.cls ++ (0 : BitVec 4) ++ BitVec.ofBool p.unit ++ BitVec.ofNat 8 p.len ++ p.tag ++ p.ctx ++ p.gen
    ++ (0 : BitVec 56)

/-- The identifier of this device (R165). -/
def ownId (s : State) : Nat := fld s.hub.devid 0 16

/-- A packet of the device, with the next SEQ of its endpoint and class (R166). -/
def newPacket (s : State) (p : Send) (pay : List Byte) : Packet × State :=
  let i := 8 * p.sep + p.cls
  let n := sget 0 s.hub.seqs i
  ({ hdr := mkHeader p 0 n (ownId s), pay := pay },
    (s.mapHub fun h => { h with seqs := sset 0 h.seqs i (n + 1) }))

def Packet.stamped (p : Packet) (t : Word) : Packet := { p with hdr := setFld p.hdr 192 64 t.toNat }
def Packet.isOrdered (p : Packet) : Bool := pCls p.hdr = 2

/-! ### Links -/

def State.port (s : State) (x : Nat) : Port := s.hub.ports.toList.getD x Port.reset
def State.setPort (s : State) (x : Nat) (p : Port) : State :=
  (s.mapHub fun h => { h with ports := h.ports.setIfInBounds x p })

/-- The ports of the ordered domain (R172). -/
def domainPorts (s : State) : List Nat := (List.range 16).filter fun x => bit s.hub.domain x

/-- The watermarks of the domain's input ports (R173): those of the mask, and the on-package links, which always belong to the domain.
An on-package link that has brought no watermark yet holds nothing back (log 18). -/
def inputMarks (s : State) : List Word :=
  (domainPorts s ++ [16, 17, 18, 19].filter fun x => (s.port x).hasIw).map fun x => (s.port x).iw

/-- The least of a list of pod times. -/
def minTime (t : Word) (ts : List Word) : Word := ts.foldl (fun a b => if b.ult a then b else a) t

/-- The stamps of the ordered packets that are held for output o (R173). -/
def heldStamps (p : Port) : List Word :=
  ((p.retry.filterMap Flit.packet ++ p.waiting.map Prod.fst).filter Packet.isOrdered).map fun q => pStamp q.hdr

/-- W(o) (R173): never below the last one sent, and not above it while pod time is lost (R434). -/
def watermark (s : State) (o : Nat) : Word :=
  let p := s.port o
  let w := minTime (minTime s.hub.podTime (inputMarks s)) (heldStamps p)
  if !bit s.hub.ready 47 || w.ult p.lastW then p.lastW else w

/-! ### Virtual channels and credits (R168) -/

/-- The place of a virtual channel's count in a word of credits: bit offset and width. -/
def creditField (chan : Nat) : Nat × Nat := if chan < 32 then (0, 16) else (16 + 8 * (chan - 32), 8)
def creditsOf (w : Word) (chan : Nat) : Nat := fld w (creditField chan).1 (creditField chan).2
def setCredits (w : Word) (chan n : Nat) : Word := setFld w (creditField chan).1 (creditField chan).2 n

/-- Credits of b joined to those of a, count by count. -/
def addCredits (a b : Word) : Word :=
  [0, 32, 33, 34, 35, 36, 37].foldl (fun w c => setCredits w c (creditsOf w c + creditsOf b c)) a

/-- Two packets of one flow, whose order is kept (R169). -/
def sameFlow (p q : Packet) : Bool :=
  pSrc p.hdr = pSrc q.hdr && pSep p.hdr = pSep q.hdr && pDst p.hdr = pDst q.hdr && pDrq p.hdr = pDrq q.hdr
    && pUnit p.hdr = pUnit q.hdr && pCls p.hdr = pCls q.hdr

/-- The packets that output p holds, with their virtual channels. -/
def heldPackets (p : Port) : List (Packet × Nat) :=
  (p.retry.filterMap fun f => f.packet.map fun x => (x, f.chan)) ++ p.waiting.map fun w => (w.1, w.2.2)

/-- The channel of output p that still holds an earlier packet of q's flow (R169). -/
def flowChannel (p : Port) (q : Packet) : Option Nat := ((heldPackets p).find? fun x => sameFlow x.1 q).map Prod.snd

/-- A free dynamic channel of output p (R168). -/
def dynamicChannel (p : Port) : Option Nat :=
  if 0 < creditsOf p.credits 0 then (List.range 32).find? fun c => !(heldPackets p).any fun x => x.2 = c else none

/-- The virtual channel of a packet at output p: that of its flow, else a free dynamic one, else its class's escape channel (R168,
R169). -/
def channelFor (p : Port) (q : Packet) : Nat :=
  ((flowChannel p q).or (dynamicChannel p)).getD (32 + pCls q.hdr)

/-- The port on which a packet leaves this device by its route, and the one of the pod's spanning tree (R168; log 18). -/
def routeOf (q : Packet) : Nat := (Config.route (BitVec.ofNat 16 (pDst q.hdr))).val
def treeOf (q : Packet) : Nat := (Config.treeRoute (BitVec.ofNat 16 (pDst q.hdr))).val

/-- The port and the channel of a packet: where its flow stands already (R169), else on its route in a dynamic channel, else on the
spanning tree in its class's escape channel (R168). -/
def wayOut (s : State) (q : Packet) : Nat × Nat :=
  match flowChannel (s.port (routeOf q)) q, flowChannel (s.port (treeOf q)) q, dynamicChannel (s.port (routeOf q)) with
  | some c, _, _ => (routeOf q, c)
  | none, some c, _ => (treeOf q, c)
  | none, none, some c => (routeOf q, c)
  | none, none, none => (treeOf q, 32 + pCls q.hdr)

/-- A flit leaves on output o and stands in its retry buffer (R164, R429): part of a packet on a channel, or a beacon. It acknowledges
what has been accepted and returns the buffers that have been freed. -/
def sendFlit (s : State) (o : Nat) (q : Option Packet) (part chan : Nat) : State :=
  let w := watermark s o
  let p := s.port o
  s.setPort o { p with retry := p.retry ++ [{ seq := p.txSeq, ack := p.rxSeq - 1, wm := w.setWidth 40, credits := p.freed, chan := chan,
                                              packet := q, part := part }],
                       txSeq := p.txSeq + 1, lastW := w, lastSent := s.clk, freed := 0,
                       credits := if q.isSome then setCredits p.credits chan (creditsOf p.credits chan - 1) else p.credits }

/-- What waits enters the retry buffer of 256 flits as far as it has room and the partner's pool has buffers (R168, R429). -/
def drainWaiting (o : Nat) : Nat → State → State
  | 0, s => s
  | n + 1, s =>
    let p := s.port o
    match p.waiting with
    | [] => s
    | q :: qs => if 256 ≤ p.retry.length || creditsOf p.credits q.2.2 = 0 then s
      else drainWaiting o n (sendFlit (s.setPort o { p with waiting := qs }) o (some q.1) q.2.1 q.2.2)

/-- The flits of a packet: 224 bytes of it in each (R164). -/
def packetFlits (q : Packet) : Nat := (32 + q.pay.length + 223) / 224
def packetParts (q : Packet) (chan : Nat) : List (Packet × Nat × Nat) := (List.range (packetFlits q)).map fun i => (q, i, chan)

/-- A packet goes out on o in a channel, after what waits there. -/
def transmitOn (s : State) (o chan : Nat) (q : Packet) : State :=
  let p := s.port o
  drainWaiting o 256 (s.setPort o { p with waiting := p.waiting ++ packetParts q chan })

/-- A copy of a broadcast goes out on o (R172). -/
def transmit (s : State) (o : Nat) (q : Packet) : State := transmitOn s o (channelFor (s.port o) q) q

/-- A packet goes out on its way (R168). -/
def sendOut (s : State) (q : Packet) : State := transmitOn s (wayOut s q).1 (wayOut s q).2 q

/-- A circuit packet goes out before every other class, after the circuit packets that wait there (R169, R178). -/
def transmitFirst (s : State) (q : Packet) : State :=
  let o := (wayOut s q).1
  let p := s.port o
  let circuit : Packet × Nat × Nat → Bool := fun x => pCls x.1.hdr = 5
  drainWaiting o 256 (s.setPort o { p with
    waiting := p.waiting.takeWhile circuit ++ packetParts q (wayOut s q).2 ++ p.waiting.dropWhile circuit })

/-- A packet that the hub has taken from port x, or this device's own (port 20), stands in the port's pool until it is passed on. -/
def enterPool (s : State) (x chan : Nat) (q : Packet) : State :=
  (s.mapHub fun h => { h with inbound := h.inbound ++ [{ port := x, chan := chan, flits := packetFlits q, since := s.clk, told := false,
                                                          packet := q }] })

/-- A packet of an unordered class goes to its device: to this one, or out on the port of its route (R168; log 18). -/
def sendPacket (s : State) (q : Packet) : State :=
  if pDst q.hdr = ownId s then enterPool s 20 0 q else sendOut s q

end Sys2Proof.Machine
end

