-- ==== Sys2Proof/Machine/Pipeline.lean ====
section
/-! DEFINITION. The pipeline of a core: a bundle between entry and commit (R211, R212), full releases and acquires (R73),
the quantum buffer (R80), the restart gate and its marks (R213, R214), and the replay windows (R149). -/

namespace Sys2Proof.Machine

/-- How a meaning answers. -/
abbrev Out := Host.Outcome State Fault Refusal

/-! ### The bundle in progress -/

def Core.mapCurrent (k : Core) (f : Current → Current) : Core := { k with current := k.current.map f }

/-- Slot x of the bundle in progress faults with a code and its INFO (R383). -/
def State.slotFaultI (s : State) (x : Fin 8) (code : Code) (info : Word) : State :=
  s.setMe (s.me.mapCurrent fun c => { c with faults := c.faults ++ [(x, code, info)] })

/-- Slot x of the bundle in progress faults (R379). -/
def State.slotFault (s : State) (x : Fin 8) (code : Code) : State := s.slotFaultI x code 0

/-- The entry of slot x cannot issue yet and stays at the head of its queue. -/
def State.reissue (s : State) (x : Fin 8) : State :=
  s.setMe (s.me.mapCurrent fun c => { c with left := x :: c.left })

/-- The next bundle as a taken control transfer chooses it (R225). -/
def State.jump (s : State) (target : Word) : State :=
  s.setMe (s.me.mapCurrent fun c => { c with next := target, taken := true })

/-- The next bundle of a bundle that is not a taken branch out of a body, such as the skip of an empty loop. -/
def State.goTo (s : State) (target : Word) : State :=
  s.setMe (s.me.mapCurrent fun c => { c with next := target })

/-- The address of the bundle in progress. -/
def State.bundlePc (s : State) : Word :=
  match s.me.current with
  | some c => c.pc
  | none => s.me.pc

/-- The A-slot result of the bundle drives the broadcast port (R208). -/
def State.bcast (s : State) : Bool :=
  match s.me.current with
  | some c => c.bundle.bcast
  | none => false

/-- The bundle in progress is a yield point that may suspend: outside sequence mode (R352), with an entry of the
yield-sequence table, which the caller looks up. -/
def State.yieldBit (s : State) : Bool :=
  match s.me.current with
  | some c => c.bundle.yld && s.me.seqMode = .none
  | none => false

/-- A pop of the bundle in progress is noted for R75. -/
def State.notePop (s : State) (p : PopRec) : State :=
  s.setMe (s.me.mapCurrent fun c => { c with pops := c.pops ++ [p] })

def State.setEnding (s : State) (e : Ending) : State :=
  s.setMe (s.me.mapCurrent fun c => { c with ending := e })

/-- The core runs a continuation of a deterministic partition (R156). -/
def detCore (s : State) (c : CoreId) : Bool :=
  match (s.core c).run with
  | some r => r.launch.det
  | none => false

/-- Context tag and generation of the continuation that core c runs. -/
def coreCtx (s : State) (c : CoreId) : BitVec 16 :=
  match (s.core c).run with
  | some r => r.ctx
  | none => 0
def coreGen (s : State) (c : CoreId) : BitVec 8 :=
  match (s.core c).run with
  | some r => r.gen
  | none => 0

/-- The flags that an A-, V- or X-slot instruction raises: an enabled one traps with the lowest code, INFO carrying them
all (R380); otherwise they wait for the commit (R103). -/
def State.raiseFlags (s : State) (x : Fin 8) (f : BitVec 6) : State :=
  let ten : BitVec 6 := BitVec.ofNat 6 (fld s.me.regs.nflags 16 6)
  match (List.range 6).find? fun n => bit f n && bit ten n with
  | some n => s.slotFaultI x (0x0140 + BitVec.ofNat 16 n) (f.setWidth 64)
  | none => s.setMe (s.me.mapCurrent fun c => { c with flags := c.flags ||| f })

/-! ### The quantum buffer -/

/-- A buffered sum is sent to its home as one add (R80). -/
def sendQuantum (c : CoreId) (s : State) (w : QuantumWord) : State :=
  let t := towerNo (w.key / 2 ^ 40)
  let s1 := flushWord (dropHome s c w.key) t w.key
  writeWord s1 w.key (readWord s1 w.key + w.sum)

/-- Every buffered sum of core c is sent (R80). -/
def flushQuantum (s : State) (c : CoreId) : State :=
  let s1 := (s.core c).quantum.foldl (sendQuantum c) s
  s1.setCore c { (s1.core c) with quantum := [] }

/-- A quantum add reaches the buffer, most recently used word first (R80). -/
def addQuantum (s : State) (c : CoreId) (key : Nat) (y : Word) (q : BitVec 4) : State :=
  let k := s.core c
  let old := match k.quantum.find? fun w => w.key = key with
    | some w => w.sum
    | none => 0
  let rest := k.quantum.filter fun w => w.key ≠ key
  let w : QuantumWord := { key := key, sum := old + y, q := q }
  if 2 ^ q.toNat ≤ w.sum.toInt.natAbs then
    let s1 := sendQuantum c s w
    s1.setCore c { (s1.core c) with quantum := rest }
  else
    match (if 8 ≤ rest.length then rest.getLast? else none) with
    | some v =>
      let s1 := sendQuantum c s v
      s1.setCore c { (s1.core c) with quantum := w :: rest.dropLast }
    | none => s.setCore c { k with quantum := w :: rest }

/-! ### Full releases and acquires -/

/-- A full release of core c, whose gate is empty: buffered atomics reach their homes and every dirty line of its L1, or
of the four of a fused cluster, is written back (R73, R78). -/
def fullRelease (s : State) (c : CoreId) : State :=
  let s1 := flushCombined (flushQuantum s c) (towerOf c)
  (l1Cores s c).foldl (fun st o => writeBackLines st o fun _ => true) s1

/-- A full acquire in a context: its lines are written back, and dropped unless they are tagged invariant (R73). -/
def fullAcquire (s : State) (c : CoreId) : State :=
  let mine : L1Line → Bool := fun l => l.ctx = coreCtx s c && l.gen = coreGen s c
  (l1Cores s c).foldl
    (fun st o => dropLines (writeBackLines st o mine) o fun l => mine l && !l.inv) s

/-! ### The restart gate -/

/-- SCLK of the instance that core c runs (R157). -/
def schedClock (s : State) (c : CoreId) : Word :=
  match (s.core c).run with
  | some r => s.hub.podTime - r.launch.t0
  | none => 0

/-- What a store or push of a lockstep pair's core adds to the signature as it leaves the gate (R162). -/
def signExit (s : State) (c : CoreId) (isPush : Bool) (tid : BitVec 16) (tile off : Nat) (data : List Byte) : State :=
  match (s.core c).run with
  | some r =>
    if r.launch.lock then
      let h : BitVec 128 := BitVec.ofNat 32 (schedClock s c).toNat ++ BitVec.ofNat 7 c.val ++ BitVec.ofBool isPush ++ tid
        ++ BitVec.ofNat 24 tile ++ BitVec.ofNat 16 off ++ BitVec.ofNat 16 data.length ++ (0 : BitVec 16)
      (s.mapHub fun b => { b with lockstep := b.lockstep.map fun l => if l.key = r.instKey && l.last.isNone then
          { l with records := l.records ++ [((schedClock s c).toNat, c, leBytes 16 h.toNat ++ data)] } else l })
    else s
  | none => s

/-- The bytes of a push: the instruction word, s[a], s[b] and the vector operand (R357). -/
def pushBytes (p : Push) : List Byte :=
  leBytes 8 p.word.toNat ++ leBytes 8 p.a.toNat ++ leBytes 8 p.b.toNat ++ leBytes 8 0 ++ leBytes 512 p.v.toNat

def pushMajor (p : Push) : Nat := fld p.word 25 6

/-- How the push of an index names its gather. -/
def gatherKey (g : Gather) : Nat := g.chan.toNat + 16 * (g.tmpl.toNat + 256 * g.serial)

/-- The push opens a gather (R319, R321). -/
def opensGather (p : Push) : Bool := pushMajor p = 0x01 && bit p.b 20

/-- The gather that an opening push names, in the context of core c. -/
def namedGather (s : State) (c : CoreId) (p : Push) (key : Nat) : Gather :=
  { tmpl := BitVec.ofNat 8 (key / 16), chan := BitVec.ofNat 4 key, ctx := coreCtx s c, gen := coreGen s c, bundle := p.bundle,
    serial := key / 4096 }

/-- Rows and accepted indices of one gather that remain. -/
def gatherOwed (k : Core) (g : Gather) : Nat × Nat :=
  ((k.rows.filter fun r => r.1 = g.serial).length, (k.gidx.filter fun i => i.gather = g).length)

/-- A closing point of R321 other than the last index closes gather g: what remains of it is discarded with one record (R442). -/
def discardGather (s : State) (c : CoreId) (g : Gather) : State :=
  let k := s.core c
  let n := gatherOwed k g
  let s1 := if n = (0, 0) then s
    else statRecord s c 1 0x4030 g.bundle (BitVec.ofNat 128 (n.1 + n.2 * 2 ^ 16 + g.tmpl.toNat * 2 ^ 32 + g.chan.toNat * 2 ^ 40))
  let k1 := s1.core c
  s1.setCore c { k1 with rows := k1.rows.filter fun r => r.1 ≠ g.serial, gidx := k1.gidx.filter fun i => i.gather ≠ g,
                         live := k1.live.filter fun l => l.gather ≠ g }

/-- The gather of core c closes at e.done or at a suspension: of every gather that is not over, what remains is discarded (R321). -/
def closeGather (s : State) (c : CoreId) : State :=
  let s1 := (s.core c).live.foldl (fun st l => discardGather st c l.gather) s
  let k := s1.core c
  s1.setCore c { k with regs := { k.regs with gather := none } }

/-- A gather that closes of itself and from which nothing more is owed. -/
def gatherOver (k : Core) (l : LiveGather) : Bool :=
  l.closed && gatherOwed k l.gather = (0, 0)
    && !k.replay.any fun e => pushMajor e.push = 0x03 && e.key = gatherKey l.gather

/-- The opening of a gather leaves the gate: one that is still open closes (R321), and the new one begins. -/
def beginGather (s : State) (c : CoreId) (g : Gather) : State :=
  let s1 := ((s.core c).live.filter fun l => !l.closed).foldl (fun st l => discardGather st c l.gather) s
  let k := s1.core c
  s1.setCore c { k with live := k.live.filter (fun l => !gatherOver k l) ++
    [{ gather := g, closed := false, reopened := false, opening := none }] }

/-- What the exit of a push means for the gathers of core c: an opening begins one, a closing index ends the acceptance of its own. -/
def gatherExit (s : State) (c : CoreId) (p : Push) (key : Nat) : State :=
  if opensGather p then beginGather s c (namedGather s c p key)
  else if pushMajor p = 0x03 && bit p.b 0 then
    let k := s.core c
    s.setCore c { k with live := k.live.map fun l => if gatherKey l.gather = key then { l with closed := true } else l }
  else s

/-- The queue a push goes to: a Rennet, a Churn channel or the hub; the others act at their home or unit (R148, R151). -/
def pushDest (c : CoreId) (p : Push) (key : Nat) : Option Dest4 :=
  match pushMajor p with
  | 0x01 =>
    if fld p.b 16 2 = 0 then some { kind := 1, unit := (clusterOf c).val, chan := fld p.b 0 4 }
    else some { kind := 2, unit := fld p.b 18 2, chan := fld p.b 0 4 }
  | 0x03 => some { kind := 1, unit := (clusterOf c).val, chan := key % 16 }
  | 0x18 | 0x19 => some { kind := 3, unit := fld p.a 0 16, chan := fld p.a 16 8 }
  | 0x1A => some { kind := 3, unit := 0xFFFF, chan := fld p.a 0 8 }
  | 0x20 | 0x21 => some { kind := 0, unit := (towerOf c).val, chan := 0 }
  | 0x23 | 0x24 => some { kind := 0, unit := fld p.b 0 2, chan := 0 }
  | _ => none

/-- A destination as one number, for the occasion of an answer. -/
def Dest4.code (d : Dest4) : Nat := d.kind + 4 * d.chan + 1024 * d.unit
def Dest4.ofCode (n : Nat) : Dest4 := { kind := n % 4, chan := n / 4 % 256, unit := n / 1024 }

/-- The channels of the cluster Churns and of the hub Churns. -/
def churnChannels : List Dest4 :=
  ((List.range 32).flatMap fun x => (List.range 16).map fun i => { kind := 1, unit := x, chan := i })
    ++ ((List.range 4).flatMap fun x => (List.range 16).map fun i => { kind := 2, unit := x, chan := i })

/-- The channel of a Churn. -/
def State.churnChan (s : State) (d : Dest4) : Channel :=
  if d.kind = 1 then (s.cluster (clusterNo d.unit)).chans.toList.getD d.chan Channel.reset
  else (s.hub.chans.toList.getD d.unit (Vector.replicate 16 Channel.reset)).toList.getD d.chan Channel.reset

def State.setChurnChan (s : State) (d : Dest4) (ch : Channel) : State :=
  if d.kind = 1 then
    let x := clusterNo d.unit
    s.setCluster x { (s.cluster x) with chans := (s.cluster x).chans.setIfInBounds d.chan ch }
  else
    let v := (s.hub.chans.toList.getD d.unit (Vector.replicate 16 Channel.reset)).setIfInBounds d.chan ch
    (s.mapHub fun h => { h with chans := h.chans.setIfInBounds d.unit v })

/-- The tower on whose behalf a Churn acts: a cluster Churn's own; hub Churns report to the hub. -/
def churnTower (d : Dest4) : TowerId := if d.kind = 1 then clusterTower (clusterNo d.unit) else 0

/-- PTIME of READY (R367): ordered and circuit sends wait for it (R170). -/
def ptimeReady (s : State) : Bool := bit s.hub.ready 47

/-- A receive queue of this device has no slot for another packet, counting those that are on their way to it (R179). -/
def recvFull (s : State) (q : Nat) : Bool :=
  let e : BitVec 256 := BitVec.ofNat 256 (readNat s (recvKey s q) 32)
  let inFlight := (s.hub.inbound.filter fun p => !pUnit p.packet.hdr && pDst p.packet.hdr = ownId s && pDrq p.packet.hdr = q).length
  bit e 128 && decide (2 ^ fld e 160 4 ≤ (fld e 96 32 + 2 ^ 32 - fld e 64 32) % 2 ^ 32 + inFlight)

/-- The reorder buffer holds 2,048 packets (R174, R176). -/
def reorderFull (s : State) : Bool := decide (2048 ≤ s.hub.reorder.length + s.hub.inject.length)

/-- The commands that wait for the Rennet of tower t: arming, priming, spawns, decrements and pod records (R148). -/
def rennetCommands (s : State) (t : TowerId) : Nat :=
  (s.agenda.filter fun e => e.2.tower = t && (e.1 = .garmStore || e.1 = .gprimeStore || e.1 = .spawnAtHomeRennet
    || e.1 = .successorDecrement || e.1 = .podRecordForward)).length

/-- Whether the consumer of a destination has room for a push now (R148): a Rennet, a Churn channel; for a send to this device,
its receive ring or its reorder buffer. -/
def canTake (s : State) (d : Dest4) (p : Push) : Bool :=
  match d.kind with
  | 0 => decide (rennetCommands s (towerNo d.unit) < 256)
  | 1 => decide ((s.churnChan d).queue.length < 16)
  | 2 => decide ((s.churnChan d).queue.length < 64)
  | 3 =>
    if pushMajor p = 0x19 then d.unit ≠ ownId s || !recvFull s d.chan
    else if pushMajor p = 0x18 then (d.unit ≠ ownId s && d.unit ≠ 0xFFFF) || !reorderFull s
    else true
  | _ => true

/-- Ordered and circuit sends wait in the core, without an answer, until pod time is ready (R170). -/
def waitsPodTime (s : State) (p : Push) : Bool := (pushMajor p = 0x18 || pushMajor p = 0x1A) && !ptimeReady s

/-- A push of core c for destination d crosses an on-package link that is down: its own tower's to the hub, and for the Rennet of another
tower that tower's (R431, R436). -/
def waitsLink (s : State) (c : CoreId) (d : Dest4) : Bool :=
  match d.kind with
  | 0 => towerNo d.unit ≠ towerOf c && !(towerLinked s (towerOf c) && towerLinked s (towerNo d.unit))
  | 2 | 3 => !towerLinked s (towerOf c)
  | _ => false

/-- An entry of a window of core c that its sender holds, without an answer (R170, R431). -/
def waitsInCore (s : State) (c : CoreId) (e : ReplayEntry) : Bool := waitsPodTime s e.push || waitsLink s c e.dest

/-- The number that the consumer of d expects next from core k (R149). -/
def expectedSeq (k : Core) (d : Dest4) : BitVec 8 :=
  match k.expected.find? fun e => e.1 = d with
  | some e => e.2
  | none => 0

/-- An entry is a duplicate: its number lies behind the one expected, by no more than a window (R149). -/
def isDuplicate (k : Core) (e : ReplayEntry) : Bool :=
  let n := (expectedSeq k e.dest - e.seq).toNat
  decide (0 < n) && decide (n ≤ 32)

/-- The sender offers the oldest entry of its window for d, and the answer is due (R149): the number expected is taken if there is
room, one behind it is acknowledged again, one ahead of it is refused. The next entry is offered when the answer has arrived
(log 44). -/
def offerWindow (s : State) (c : CoreId) (d : Dest4) : State :=
  let k := s.core c
  match k.replay.find? fun e => e.dest = d with
  | some e =>
    if waitsInCore s c e then s
    else s.due (if isDuplicate k e || (e.seq = expectedSeq k d && canTake s d e.push) then .replayAck else .replayNak)
      { onCore c with unit := d.code }
  | none => s

/-- The next sequence number for d (R149). -/
def nextSeq (k : Core) (d : Dest4) : BitVec 8 :=
  match k.sendSeq.find? fun e => e.1 = d with
  | some e => e.2
  | none => 0

/-- n units of 32 bytes from a flat address on, zeros where the address does not translate. -/
def flatUnits (s : State) (v : View) (a : Word) : Nat → List Byte
  | 0 => []
  | n + 1 => leBytes 32 (match flatRead s v a 32 with | .ok x => x | .error _ => 0) ++ flatUnits s v (a + 32) n

/-- Entry c of the circuit table (R177). -/
def circuitEntry (s : State) (c : CoreId) (slot : Nat) : Except Code Nat :=
  flatRead s (coreView s c) ((s.core c).cirt + BitVec.ofNat 64 (8 * (slot % 256))) 8

/-- What a send takes with it as it leaves the gate (R325). -/
def sendPayload (s : State) (c : CoreId) (p : Push) : List Byte :=
  match pushMajor p with
  | 0x19 => flatUnits s (coreView s c) p.b (fld p.a 32 8)
  | 0x1A => leBytes 8 (match circuitEntry s c (fld p.a 0 8) with | .ok x => x | .error _ => 0)
  | _ => []

/-- A push enters the replay window of its destination as it leaves the gate (R151). -/
def enterWindow (s : State) (c : CoreId) (d : Dest4) (p : Push) (key : Nat) : State :=
  let k := s.core c
  let n := nextSeq k d
  let held := k.replay.any fun e => e.dest = d && e.held.isSome
  let e : ReplayEntry := { dest := d, seq := n, naks := 0, held := none, key := key, push := p,
                           record := (k.run.map Running.record).getD 0, ctx := coreCtx s c, gen := coreGen s c,
                           rbank := k.run.bind Running.preemptor, payload := sendPayload s c p, exit := s.hub.podTime }
  let s1 := s.setCore c { k with replay := k.replay ++ [e],
                                 sendSeq := (d, n + 1) :: k.sendSeq.filter fun q => q.1 ≠ d }
  if held then s1 else offerWindow s1 c d

/-- A window has room for a push (R151). -/
def windowRoom (s : State) (c : CoreId) (d : Dest4) : Bool :=
  let k := s.core c
  decide ((k.replay.filter fun e => e.dest = d).length < 32) && decide (k.replay.length < 64)

/-- INFO of codes of classes 0x10 to 0x12 (R400): TID, access code, slot, handle, tile. -/
def layoutInfo (tid : BitVec 16) (acc slot hnd tile : Nat) : Word :=
  tid ++ BitVec.ofNat 3 acc ++ BitVec.ofNat 3 slot ++ BitVec.ofNat 5 hnd ++ (0 : BitVec 13) ++ BitVec.ofNat 24 tile

/-- A fault of class 0x11 that an instruction finds at its issue without an access: INFO names the slot alone (R399, R400). -/
def State.layoutFault (s : State) (x : Fin 8) (code : Code) : State := s.slotFaultI x code (layoutInfo 0 0 x.val 0 0)

/-- A statistics record of the layout units: SRC 5 with the access's INFO in PAY[191:128] (R400). -/
def layoutRecord (s : State) (c : CoreId) (code : Code) (bundle info : Word) : State :=
  statRecord s c 5 code bundle ((0 : BitVec 64) ++ info)

/-- The records of the lines tagged invariant that a store hits (R409). -/
def invariantRecords (s : State) (c : CoreId) (ctx : BitVec 16) (gen : BitVec 8) (bundle : Word)
    (bs : List StoreByte) : State :=
  match bs.find? fun b => hitsInvariant s c ctx gen b with
  | some b => layoutRecord s c 0x1210 bundle (layoutInfo b.place.tid 1 3 0 b.place.tile)
  | none => s

/-- An entry may leave the gate: a push needs room in its window (R151); a store to a host range needs nothing. -/
def canLeave (s : State) (c : CoreId) (e : GateEntry) : Bool :=
  match e with
  | .push p key => match pushDest c p key with
    | some d => windowRoom s c d
    | none => true
  | _ => true

/-- A gated push without a queue acts at its home or unit (R308, R323, R324). -/
def directPush (s : State) (c : CoreId) (p : Push) (key : Nat) : State :=
  match pushMajor p with
  | 0x09 => s.due .barrierExpect { onCore c with unit := key, addr := p.a, value := p.b }
  | 0x0A => s.due .barrierArrival { onCore c with unit := key, addr := p.a }
  | _ =>
    let t := towerOf c
    let w := s.tower t
    let q : Query := { core := c, push := p, ctx := coreCtx s c, gen := coreGen s c, frac := BitVec.ofNat 4096 key,
                       naks := 0, held := 0, result := none, orphan := false }
    (s.setTower t { w with queries := w.queries ++ [q] }).due .curdQueryAccept (onTower t)

/-- An entry leaves the gate (R214): a store is performed, a commutative atomic is offered to its slice, a quantum add
enters its buffer, and a push, a full release, goes on its way (R73); one that starts a copy sets AFF (R356). -/
def leaveGate (s : State) (c : CoreId) (e : GateEntry) : State :=
  let ctx := coreCtx s c
  let gen := coreGen s c
  match e with
  | .store bundle bs =>
    let s1 := invariantRecords s c ctx gen bundle bs
    let s2 := performStore s1 c ctx gen bs
    match bs with
    | b :: _ => signExit s2 c false b.place.tid b.place.tile b.off (bs.map fun x => x.val)
    | [] => s2
  | .com _ op _ key y => offerCombined (dropHome s c key) (towerNo (key / 2 ^ 40)) key op y
  | .quant _ _ key y q => addQuantum s c key y q
  | .push p key =>
    let s0 := if pushMajor p = 0x01 && !bit p.b 20 then s.setCore c { (s.core c) with aff := true } else gatherExit s c p key
    let s1 := signExit (fullRelease s0 c) c true 0 0 0 (pushBytes p)
    match pushDest c p key with
    | some d => enterWindow s1 c d p key
    | none => directPush s1 c p key

/-- Entries leave in program order until one must wait (R151, R214). -/
def leaveAll (c : CoreId) : List GateEntry → State → State × List GateEntry
  | [], s => (s, [])
  | e :: es, s => if canLeave s c e then leaveAll c es (leaveGate s c e) else (s, e :: es)

/-- GATE_EXIT (R214): the gate of core c empties as far as its windows allow. -/
def emptyGate (s : State) (c : CoreId) : State :=
  let r := leaveAll c (s.core c).gate s
  r.1.setCore c { (r.1.core c) with gate := r.2, freed := r.2.length }

/-- Entries that lie before the restart point leave as room in their windows allows (R151). -/
def emptyFreed (s : State) (c : CoreId) : State :=
  let k := s.core c
  if k.freed = 0 then s
  else
    let r := leaveAll c (k.gate.take k.freed) s
    let n := k.freed - r.2.length
    let k1 := r.1.core c
    r.1.setCore c { (k1.mapCurrent fun q => { q with gateLen := q.gateLen - n }) with
      gate := r.2 ++ k.gate.drop k.freed, freed := r.2.length }

/-- Every entry of the gate of core c can leave now. -/
def gateClears (s : State) (c : CoreId) : Bool := (leaveAll c (s.core c).gate s).2.isEmpty

/-- A gate entry joins the gate of the step's core. -/
def State.enterGate (s : State) (e : GateEntry) : State := s.setMe { s.me with gate := s.me.gate ++ [e] }

/-- Stores and pushes in the gate (R214). -/
def gateStores (k : Core) : Nat := (k.gate.filter fun e => match e with | .push .. => false | _ => true).length
def gatePushes (k : Core) : Nat := (k.gate.filter fun e => match e with | .push .. => true | _ => false).length

/-! ### Grants of sync objects (R69 to R71) -/

/-- Entry i of the core's copy of its region binding table (R265). -/
def bindEntry (k : Core) (i : Nat) : BitVec 256 := k.binds.toList.getD (i % 64) 0

/-- What the grant of an acquire does in its core (R69, R264): the region's dirty lines are written back and its lines
dropped unless tagged invariant, HELD and HMODE are set, and s[d] receives EPOCH. -/
def completeAcquire (s : State) (c : CoreId) (word : Word) : State :=
  let k := s.core c
  match k.stall with
  | some w =>
    let i := w.obj.toNat % 64
    let e := bindEntry k i
    let mine : L1Line → Bool := fun l => l.ctx = coreCtx s c && l.gen = coreGen s c && inRegion e l
    let s1 := (l1Cores s c).foldl
      (fun st d => dropLines (writeBackLines st d mine) d fun l => mine l && !l.inv) s
    let k1 := s1.core c
    let k2 := { k1 with held := setBit k1.held i true, hmode := setBit k1.hmode i (w.arg = 1), stall := none }
    s1.setCore c (k2.writeNow s1.freeN w.slot (.s w.dst) (BitVec.ofNat 4096 (syncEpoch word)))
  | none => s

/-- The waiters of an object, in order of arrival. -/
def syncWaiters (s : State) (t : TowerId) (key : Nat) : List SyncWait :=
  (s.tower t).syncs.filter fun w => w.key = key && !w.granted

/-- One grant of R71 to the head waiter, if it is compatible: a stalled core completes, a suspended record keeps its grant
until its instruction is issued again and is due to wake. -/
def grantHead (s : State) (t : TowerId) (key : Nat) : Option State :=
  match syncWaiters s t key with
  | w :: _ =>
    let word := readWord s key
    if syncCompatible word w.excl then
      let word1 := syncGrant word w.excl w.ctx w.gen
      let s1 := writeWord s key word1
      let q := s1.tower t
      match w.core with
      | some c => some (completeAcquire (s1.setTower t { q with syncs := eraseFirst (fun x => x = w) q.syncs }) c word1)
      | none => some ((s1.setTower t { q with syncs := q.syncs.map fun x => if x = w then { x with granted := true } else x })
          |>.due .wake { onTower t with addr := w.record })
    else none
  | [] => none

/-- Grants from the head on (R71). -/
def grantWaiters (t : TowerId) (key : Nat) : Nat → State → State
  | 0, s => s
  | n + 1, s => match grantHead s t key with
    | some s1 => grantWaiters t key n s1
    | none => s

/-! ### Undoing -/

/-- An element that an uncommitted pop took is presented again (R75, R320, R326). -/
def rePresent (s : State) (c : CoreId) (p : PopRec) : State :=
  let k := s.core c
  match p with
  | .gatherRow n row => s.setCore c { k with rows := (n, row) :: k.rows }
  | .curdRow row => s.setCore c { k with results := row :: k.results }
  | .statRecord r => s.setCore c { k with stats := r :: k.stats }
  | .ring key _ =>
    let t := towerNo (key / 2 ^ 40)
    s.setTower t { (s.tower t) with claims := (s.tower t).claims.filter fun x => x ≠ key }
  | .receive q _ _ => (s.mapHub fun h => { h with claims := h.claims.filter fun x => x ≠ q })

/-- Waiters that p names leave the objects of tower t; the waiters behind them are granted as far as they are compatible (R71). -/
def leaveWaiters (s : State) (t : TowerId) (p : SyncWait → Bool) : State :=
  let w := s.tower t
  let gone := w.syncs.filter p
  gone.foldl (fun st x => grantWaiters t x.key w.syncs.length st)
    (s.setTower t { w with syncs := w.syncs.filter fun x => !p x })

/-- A stalled acquire of core c waits no more at its home: its bundle will issue again (R71, R235). -/
def cancelAcquire (s : State) (c : CoreId) : State :=
  if (s.tower (towerOf c)).syncs.any fun x => x.core = some c then leaveWaiters s (towerOf c) fun x => x.core = some c else s

/-- The uncommitted bundle of core c is undone (R212): registers and queues as before it, its gate entries gone. -/
def undoBundle (s : State) (c : CoreId) : State :=
  match (s.core c).current with
  | none => s
  | some cur =>
    let s0 := dropWalked s (towerOf c) (c.val % 32)
    let s1 := cancelAcquire (cur.pops.reverse.foldl (fun st p => rePresent st c p) s0) c
    let k := s1.core c
    s1.setCore c { k with regs := cur.pre, gate := k.gate.take cur.gateLen, loads := [], current := none,
                          group := cur.preGroup, pc := cur.pc, stall := none }

/-- Rollback to the restart point (R213). -/
def rollback (s : State) (c : CoreId) : State :=
  let s1 := undoBundle s c
  let k := s1.core c
  s1.setCore c { k with regs := k.shadow.regs, gate := k.gate.take k.freed, loads := [], current := none, group := [], pc := k.shadow.pc,
                        stall := none }

/-! ### Marks -/

/-- The boundary of core c: before the bundle in progress, or where the next one will enter. -/
def boundary (k : Core) : Shadow :=
  match k.current with
  | some cur => { regs := cur.pre, pc := cur.pc }
  | none => { regs := k.regs, pc := k.pc }

/-- RESTART_MARK_ESTABLISH (R213): the boundary becomes the restart point, and the entries before it leave the gate. -/
def establishMark (s : State) (c : CoreId) : State :=
  let k := s.core c
  let s1 := emptyGate (s.setCore c { k with shadow := boundary k }) c
  match k.current with
  | some _ =>
    let k1 := s1.core c
    s1.setCore c (k1.mapCurrent fun cur => { cur with gateLen := k1.gate.length })
  | none => s1

end Sys2Proof.Machine
end

