-- ==== Sys2Proof/Machine/CurdTables.lean ====
section
/-! DEFINITION. The tables of the curd units: lane space (R332, R334), the directory (R335, R336), the value of a lookup
(R337), and queries from their acceptance to their results (R324, R338, R339). -/

namespace Sys2Proof.Machine

/-! ### Lane space -/

/-- KiB of lane space in each lane of the units of a die (R332). -/
def laneKib (s : State) (t : TowerId) (die : Nat) : Nat :=
  let lsz := ((s.tower t).curdLs.toList.getD die 0).toNat
  if lsz = 0 then 0 else 32 * 2 ^ lsz

/-- Slot col of a lane row of unit u of tower t; column 256 is the guard slot (R334). -/
def laneKey (t : TowerId) (u row col : Nat) : Nat := (384 * t.val + u) * 2 ^ 18 + row * 512 + col
def readLane (s : State) (t : TowerId) (u row col : Nat) : Nat := (sget 0 s.lanes (laneKey t u row col)).toNat
def writeLane (s : State) (t : TowerId) (u row col v : Nat) : State :=
  { s with lanes := sset 0 s.lanes (laneKey t u row col) (BitVec.ofNat 32 v) }

/-! ### The directory (R335) -/

def tableCtx (e : BitVec 256) : BitVec 16 := BitVec.ofNat 16 (fld e 240 16)
def tableGen (e : BitVec 256) : BitVec 8 := BitVec.ofNat 8 (fld e 232 8)
def tableFu (e : BitVec 256) : Nat := fld e 223 9
def tableNu (e : BitVec 256) : Nat := fld e 214 9
def tableBits (e : BitVec 256) : Nat := 8 * 2 ^ fld e 212 2
def tableFmt (e : BitVec 256) : Nat := fld e 204 8
def tableOob (e : BitVec 256) : Bool := bit e 203
def tableLen (e : BitVec 256) : Nat := fld e 176 16 + 1
def tableRow (e : BitVec 256) : Nat := fld e 151 9
def tableBlocks (e : BitVec 256) : Nat := ceilShift (tableLen e) 8

/-- Entry i of the directory of tower t: as the directory cache holds it, or as it stands in memory (R335, R336). -/
def tableKey (s : State) (t : TowerId) (i : Nat) : Nat := dramKey t (fld (s.tower t).curdDir 17 47 * 2 ^ 17 + 32 * i)
def cachedEntry (s : State) (t : TowerId) (i : Nat) : Option DirEntry := (s.tower t).dirCache.find? fun e => e.index = i
def tableEntry (s : State) (t : TowerId) (i : Nat) : BitVec 256 :=
  match cachedEntry s t i with
  | some e => e.entry
  | none =>
    let key := tableKey s t i
    match poisonOf s key 32 with
    | some _ => 0
    | none => BitVec.ofNat 256 (readNat s key 32)

/-- A miss of entry i reads it through its L2 home and fills the cache (R336). -/
def fillDirectory (s : State) (t : TowerId) (i : Nat) : State :=
  let key := tableKey s t i
  let e : DirEntry := { index := i, key := key, entry := tableEntry s t i }
  let s1 := touchHome s key 32 false
  let w := s1.tower t
  s1.setTower t { w with dirCache := (e :: w.dirCache.filter fun x => x.index ≠ i).take 64 }

/-- The cached entry i becomes the most recently used one. -/
def useDirectory (s : State) (t : TowerId) (i : Nat) : State :=
  match cachedEntry s t i with
  | some e => let w := s.tower t
    s.setTower t { w with dirCache := e :: w.dirCache.filter fun x => x.index ≠ i }
  | none => s

/-- The width in bits of an entry format that R335 lists; none for raw. -/
def tableFmtBits (f : Nat) : Option Nat :=
  match f with
  | 0x04 | 0x05 | 0x12 | 0x15 => some 8
  | 0x02 | 0x03 | 0x11 => some 16
  | 0x01 | 0x10 => some 32
  | _ => none

/-- The entry is valid (R336). -/
def tableValid (s : State) (t : TowerId) (e : BitVec 256) : Bool :=
  let fu := tableFu e
  let nu := tableNu e
  bit e 202 && fld e 192 10 = 0 && fld e 160 16 = 0 && fld e 0 151 = 0
    && decide (1 ≤ nu) && decide (fu + nu ≤ 384) && decide (fld e 212 2 < 3)
    && (tableFmt e = 0 || tableFmtBits (tableFmt e) = some (tableBits e))
    && ((List.range 12).all fun d =>
      decide (fu + nu ≤ 32 * d) || decide (32 * (d + 1) ≤ fu) || decide (tableRow e + tableBlocks e ≤ laneKib s t d))

/-! ### The value of a lookup (R337) -/

/-- Entry x of unit u's copy. -/
def tableAt (s : State) (t : TowerId) (u : Nat) (e : BitVec 256) (x : Nat) : Nat :=
  readLane s t u (tableRow e + x / 256) (x % 256) % 2 ^ tableBits e

/-- The entry after x: from the guard slot at the end of a row. -/
def tableNext (s : State) (t : TowerId) (u : Nat) (e : BitVec 256) (x : Nat) : Nat :=
  if tableLen e ≤ x + 1 then tableAt s t u e x
  else if x % 256 = 255 then readLane s t u (tableRow e + x / 256) 256 % 2 ^ tableBits e
  else tableAt s t u e (x + 1)

/-- An index and its fraction as R337 clamps them; none where the result is zero. -/
def tableIndex (e : BitVec 256) (x f : Nat) : Option (Nat × Nat) :=
  if x < tableLen e then some (x, f) else if tableOob e then none else some (tableLen e - 1, 0)

/-- Interp (R337): the code and whether NV is raised. -/
def interp (fmt bits y0 y1 f : Nat) : Nat × Bool :=
  match fmtKind fmt with
  | .float ff =>
    match ff.decode y0, ff.decode y1 with
    | .nan, _ => (ff.nanCode, false)
    | a, b =>
      if f = 0 then (y0, false)
      else match a, b with
        | _, .nan => (ff.nanCode, false)
        | .inf _, _ => if y0 = y1 then (y0, false) else (ff.nanCode, true)
        | _, .inf _ => if y0 = y1 then (y0, false) else (ff.nanCode, true)
        | a, b =>
          let r := fmaNum ((Num.ofInt f).scale (-8)) b
            (fmaNum ((Num.ofInt (256 - f)).scale (-8)) a (.fin true 0 0) 0).1 0
          ((ff.round r.1 0 true 0).1, false)
  | .uint n => (((y0 % 2 ^ n) * (256 - f) + (y1 % 2 ^ n) * f + 128) / 256, false)
  | _ =>
    let v := (sextNat bits y0 * (256 - f) + sextNat bits y1 * f + 128) / 256
    (intCode bits v, false)

/-- The lane row that an index reads; none where the result is zero. -/
def tableRowOf (e : BitVec 256) (x : Nat) : Option Nat := (tableIndex e x 0).map fun i => tableRow e + i.1 / 256

/-- Lane l of a row cannot be read there, and not from its neighbour either (R416). -/
def laneBad (s : State) (t : TowerId) (u row l : Nat) : Bool := sget false s.badLanes (laneKey t u row l)
def laneLost (s : State) (t : TowerId) (u row l : Nat) : Bool := laneBad s t u row l && laneBad s t u row (l ^^^ 1)

/-- Element l at index x has an unreadable entry, in one replica or in both (R415, R416). -/
def elementBad (s : State) (t : TowerId) (u : Nat) (e : BitVec 256) (x l : Nat) : Bool :=
  match tableRowOf e x with | some r => laneBad s t u r l | none => false
def elementLost (s : State) (t : TowerId) (u : Nat) (e : BitVec 256) (x l : Nat) : Bool :=
  match tableRowOf e x with | some r => laneLost s t u r l | none => false

/-- A lookup without interpolation. -/
def lookUp (s : State) (t : TowerId) (u : Nat) (e : BitVec 256) (x : Nat) : Nat :=
  match tableIndex e x 0 with
  | some (i, _) => tableAt s t u e i
  | none => 0

/-- An interpolating lookup. -/
def lerpUp (s : State) (t : TowerId) (u : Nat) (e : BitVec 256) (x f : Nat) : Nat × Bool :=
  match tableIndex e x f with
  | some (i, g) => interp (tableFmt e) (tableBits e) (tableAt s t u e i) (tableNext s t u e i) g
  | none => (0, false)

/-! ### Queries (R324, R338, R339) -/

/-- The table that a query names. -/
def Query.table (q : Query) : Nat := fld q.push.b 0 64
/-- An interpolating query. -/
def Query.lerps (q : Query) : Bool := pushMajor q.push = 0x11

/-- Why the units refuse a query (R339, R415). -/
def queryRefused (s : State) (t : TowerId) (q : Query) : Option Code :=
  let e := tableEntry s t q.table
  if !bit s.hub.ready (24 + t.val) then some 0x4108
  else if 4096 ≤ q.table || !tableValid s t e then some 0x4101
  else if tableCtx e ≠ q.ctx || tableGen e ≠ q.gen then some 0x4102
  else if q.lerps && tableFmt e = 0 then some 0x4103
  else none

/-- The unit that serves a query (R338). -/
def queryUnit (q : Query) (e : BitVec 256) : Nat := tableFu e + q.core.val % 32 % tableNu e

/-- The 256 values of a query, and whether one raised NV. -/
def queryValues (s : State) (t : TowerId) (q : Query) (e : BitVec 256) : List (Nat × Bool) :=
  let u := queryUnit q e
  (List.range 256).map fun i =>
    let x := lane q.push.v 16 i
    if elementLost s t u e x i then (0, false)
    else if q.lerps then lerpUp s t u e x (lane q.frac 8 i) else (lookUp s t u e x, false)

/-- The records of entries that a query cannot read, or reads from a neighbouring replica (R415). -/
def laneRecords (s : State) (t : TowerId) (q : Query) (e : BitVec 256) : State :=
  let u := queryUnit q e
  let any (f : Nat → Nat → Bool) : Bool := (List.range 256).any fun i => f (lane q.push.v 16 i) i
  if s.badLanes.isEmpty then s
  else
    let s1 := if any fun x i => elementBad s t u e x i && !elementLost s t u e x i
      then statRecord s q.core 2 0x4105 q.push.bundle 0 else s
    if any (elementLost s t u e) then statRecord s1 q.core 2 0x4106 q.push.bundle 0 else s1

/-- Values as queue elements (R324): one, or two for entries of 32 bits. -/
def queryElements (w : Nat) (vs : List Nat) : List Vec :=
  if w = 32 then [lanes 128 32 fun i => vs.getD i 0, lanes 128 32 fun i => vs.getD (128 + i) 0]
  else [lanes 256 w fun i => vs.getD i 0]

/-- A query is answered: its elements, with the record of a refusal or of NV (R339, R415). -/
def answerQuery (s : State) (t : TowerId) (q : Query) : List Vec × State :=
  match queryRefused s t q with
  | some x => ([], statRecord s q.core 2 x q.push.bundle 0)
  | none =>
    let e := tableEntry s t q.table
    let vs := queryValues s t q e
    let s0 := laneRecords s t q e
    let s1 := if vs.any Prod.snd then statRecord s0 q.core 2 0x4104 q.push.bundle 0 else s0
    (queryElements (tableBits e) (vs.map Prod.fst), s1)

/-- The directory is looked at for a query, and its entry is not in the cache (R336, R338). -/
def queryMisses (s : State) (t : TowerId) (q : Query) : Bool :=
  bit s.hub.ready (24 + t.val) && decide (q.table < 4096) && (cachedEntry s t q.table).isNone

/-- A program runs on the unit that the query is for, or its row port is not free within 16 clk (R338). -/
def queryBlocked (s : State) (t : TowerId) (q : Query) : Bool :=
  if (queryRefused s t q).isSome then false
  else
    let u := queryUnit q (tableEntry s t q.table)
    (match (s.tower t).curd with | some p => decide (p.fu ≤ u) && decide (u < p.fu + p.nu) | none => false)
      || decide (s.clk + 16 < sget 0 (s.tower t).rowPort u)

/-- An accepted query takes the row port of its unit for one row cycle (R338). -/
def takePort (s : State) (t : TowerId) (q : Query) : State :=
  if (queryRefused s t q).isSome then s
  else
    let u := queryUnit q (tableEntry s t q.table)
    let w := s.tower t
    s.setTower t { w with rowPort := sset 0 w.rowPort u (max s.clk (sget 0 w.rowPort u) + 40) }

/-- The answered queries of core c at the head of its queries deliver their elements, in issue order (R324); those of a continuation that
has ended deliver them to nobody (R328). -/
def deliverAnswers (s : State) (c : CoreId) : List Query → State
  | [] => s
  | q :: qs =>
    if q.core = c then
      match q.result with
      | some rs =>
        let k := s.core c
        let t := towerOf c
        let w := s.tower t
        let s1 := if q.orphan then s else s.setCore c { k with results := k.results ++ rs }
        deliverAnswers (s1.setTower t { w with queries := eraseFirst (fun x => x = q) w.queries }) c qs
      | none => s
    else deliverAnswers s c qs

/-- At a stop of core c (R351, R354): accepted queries are answered into the result queue; those that the units have not
accepted leave, and are given as pushes. -/
def settleQueries (s : State) (c : CoreId) : State × List (Push × Nat) :=
  let t := towerOf c
  let s1 := deliverAnswers s c (s.tower t).queries
  let w := s1.tower t
  let mine : Query → Bool := fun q => q.core = c && !q.orphan
  (s1.setTower t { w with queries := w.queries.filter fun q => !mine q }, (w.queries.filter mine).map fun q => (q.push, q.frac.toNat))

end Sys2Proof.Machine
end

