-- ==== Sys2Proof/Machine/Passes.lean ====
section
/-! DEFINITION. The folded hybrid matrix engine between the issue of a pass and its results (05): counts and readings
(R116, R117), the chain and the narrow sums (R118), promotion and the bound companion (R120, R121), the fold word
(R131), the records (R132), and the split limits (R125). -/

namespace Sys2Proof.Machine

/-! ### Split limits -/

/-- SMAX of a temperature (R125). -/
def smaxOf (temp : Nat) : Nat :=
  if temp < 85 then 10 else if temp < 95 then 8 else if temp < 105 then 6 else if temp < 112 then 3 else 0

/-- CAL of physical tier p of tower t: bit 5 × t + p of READY (R367). -/
def calReady (s : State) (t : TowerId) (p : Nat) : Bool := bit s.hub.ready (5 * t.val + p)

/-- SMAX of a physical tier: its temperature, its drift cap (R423), 0 while it is not calibrated (R124). -/
def tierSmax (s : State) (t : TowerId) (p : Nat) : Nat :=
  let w := (s.tower t).tiers
  if calReady s t p then min (smaxOf (w.temp.toList.getD p 0)) (w.cap.toList.getD p 0) else 0

/-- The columns of tier p of tower t receive their trims, each core's from its next pass on (R124). -/
def calibrate (s : State) (t : TowerId) (p : Nat) : State :=
  (List.finRange 128).foldl (fun st c =>
    if towerOf c = t then
      let k := st.core c
      st.setCore c { k with mat := { k.mat with nextTrim := upTo 3072 (fun i m =>
        sset 0 m (3072 * p + i) (Config.trim (4096 * (128 * st.freeN + c.val) + i))) k.mat.nextTrim } }
    else st) s

/-- The control register SPLIT of core c (R125). -/
def splitValue (s : State) (c : CoreId) : Word :=
  let t := towerOf c
  let w := (s.tower t).tiers
  let sm := (List.range 5).foldl (fun acc p => acc + tierSmax s t p * 2 ^ (4 * p)) 0
  let sk := match w.skip with | some p => 2 ^ 27 + p.toNat * 2 ^ 24 | none => 0
  BitVec.ofNat 64 (sm + sk + if detCore s c then 2 ^ 23 else 0)

/-! ### Columns and counts -/

/-- The columns of output n with sign and significance (R115). -/
def outputColumns (wfmt n : Nat) : List (Nat × Int × Nat) :=
  match wfmt with
  | 0x12 => (List.range 8).map fun i => (8 * n + i, (if i = 7 then -1 else 1), i)
  | 0x13 => (List.range 4).map fun i => (4 * n + i, (if i = 3 then -1 else 1), i)
  | _ => [(2 * n, 1, 0), (2 * n + 1, -1, 0)]

/-- Outputs of a weight format (R115). -/
def outputCount (wfmt : Nat) : Nat := match wfmt with | 0x12 => 384 | 0x13 => 768 | _ => 1536

/-- The 512 cells of column col at K position t in a half (R114). -/
def columnCells (s : State) (c : CoreId) (half : Bool) (t col : Nat) : Nat :=
  let base := t * 196608 + col / 256 * 16384 + col % 256 / 8
  upTo 512 (fun x acc => acc + (if bit (readByte s (macroKey c.val half (base + 32 * x))) (col % 8) then 2 ^ x else 0)) 0

/-- The count C of R116 between a column's cells and 512 activation bits. -/
def pairCount (cells : Nat) (plane : BitVec 2048) (t : Nat) : Nat :=
  popCount 512 (cells &&& fld plane (512 * t) 512)

/-- An analog reading: the value and whether it clipped (R117); the residual is free (log 9). -/
def analogRead (n count : Nat) : Nat × Bool :=
  let code := (count + (Config.residual n).val + 1) / 4
  if 127 < code then (508, true) else (4 * code, false)

/-- SignA of plane j among pa (R116). -/
def planeSign (pa j : Nat) : Int := if j + 1 = pa then -1 else 1

/-- A clipped conversion: plane index q, row, NB column, physical tier, physical column, weight 2^(i + j). -/
structure ClipNote where
  q : Nat
  m : Nat
  n : Nat
  col : Nat
  tier : BitVec 3
  pcol : Nat
  w : Nat
  deriving DecidableEq, Repr

/-- The contribution T of K position t to (m, n), with its clips (R118). -/
def tierSum (s : State) (c : CoreId) (p : Pass) (m n nbcol t : Nat) : Int × List ClipNote :=
  let tier := p.order.toList.getD t 0
  let array := !bit p.fb t
  let marks := (s.core c).mat.digital
  (outputColumns p.wfmt.toNat n).foldl (fun acc col =>
    let cells := columnCells s c p.half t col.1
    (List.range p.pa).foldl (fun (a : Int × List ClipNote) j =>
      let k := pairCount cells (p.planes.getD (p.pa * m + j) 0) t
      let sg := col.2.1 * planeSign p.pa j
      let wt := 2 ^ (col.2.2 + j)
      if array && decide (col.2.2 + j < p.seff) && !sget false marks (tier.toNat * 3072 + col.1) then
        let r := analogRead ((((s.freeN * 4 + t) * 4096 + col.1) * 16 + m) * 8 + j) k
        (a.1 + sg * (wt : Nat) * (r.1 : Nat),
         if r.2 then a.2 ++ [{ q := m * p.pa + j, m := m, n := n, col := nbcol, tier := tier, pcol := col.1, w := wt }]
         else a.2)
      else (a.1 + sg * (wt : Nat) * (k : Nat), a.2)) acc) (0, [])

/-- What a pass has added when its planes are done: NB, whether a SatAdd32 clamped and where first, the clips. -/
structure PassSums where
  nb : SMap (BitVec 32)
  sat : Option (Nat × Nat)
  clips : List ClipNote
  deriving DecidableEq, Repr

/-- One output of one row: the chain in whey order, then NB (R118). -/
def passOutput (s : State) (c : CoreId) (p : Pass) (m n nbcol : Nat) (acc : PassSums) : PassSums :=
  let r := (List.range 4).foldl (fun (a : Int × Bool × List ClipNote) t =>
    let x := tierSum s c p m n nbcol t
    let y := satAdd 32 a.1 x.1
    (y.1, a.2.1 || y.2, a.2.2 ++ x.2)) (0, false, [])
  let at_ := 1536 * m + nbcol
  let z := satAdd 32 (sget 0 acc.nb at_).toInt r.1
  { nb := sset 0 acc.nb at_ (wrap 32 z.1),
    sat := if acc.sat.isNone && (r.2.1 || z.2) then some (m, n) else acc.sat,
    clips := acc.clips ++ r.2.2 }

/-- The delivered outputs of every row (R118, R293), from NB as it stood at the issue. -/
def passSums (s : State) (c : CoreId) (p : Pass) : PassSums :=
  let ng := 128 * p.ng
  (List.range p.m).foldl (fun acc m => (List.range ng).foldl
    (fun a i => passOutput s c p m (128 * p.obg + i) (128 * p.zcg + i) a) acc) { nb := p.nb, sat := none, clips := [] }

/-- Distinct pairs (m, n) among clips (R424). -/
def clipPairs (cl : List ClipNote) : List (Nat × Nat) := (cl.map fun x => (x.m, x.col)).eraseDups

/-- The first plane by which more than 16 distinct pairs have clipped, if any: a clip storm (R424). -/
def clipStorm (p : Pass) (cl : List ClipNote) : Option Nat :=
  if (clipPairs cl).length ≤ 16 then none
  else (List.range (p.m * p.pa)).find? fun q => decide (16 < (clipPairs (cl.filter fun x => x.q ≤ q)).length)

/-! ### Fold words and records -/

/-- Apair (R121) over Pw weight significances and Pa planes. -/
def apair (wfmt pa seff : Nat) : Nat :=
  (outputColumns wfmt 0).foldl (fun acc col =>
    (List.range pa).foldl (fun a j => if col.2.2 + j < seff then a + 2 ^ (col.2.2 + j) else a) acc) 0

/-- DEPTH of a pass: positions that the arrays compute. -/
def passDepth (p : Pass) : Nat := 4 - popCount 4 p.fb.toNat

/-- ORDER (R131). -/
def passOrder (p : Pass) : Nat := (p.order.toList.foldl (fun acc t => acc * 8 + t.toNat) 0)

/-- The fold word (R131). -/
def foldWord (p : Pass) (clip sat : Bool) : Word :=
  p.seq ++ (0 : BitVec 4) ++ BitVec.ofNat 4 p.seff ++ BitVec.ofNat 4 p.sp ++ BitVec.ofNat 4 p.gpos
    ++ BitVec.ofBool p.det ++ BitVec.ofBool p.early ++ BitVec.ofBool p.promo ++ BitVec.ofBool clip ++ BitVec.ofBool sat
    ++ BitVec.ofBool p.recon ++ p.par ++ BitVec.ofNat 3 (passDepth p) ++ p.fb ++ (0 : BitVec 4)
    ++ BitVec.ofNat 12 (passOrder p)

/-- Payload of a record with SEQ in its low bits: then m, n and a count, or a cause (R132; log 23). -/
def payload (seq : BitVec 16) (b8 b16 b24 : Nat) : BitVec 128 :=
  (0 : BitVec 64) ++ BitVec.ofNat 24 b24 ++ BitVec.ofNat 16 b16 ++ BitVec.ofNat 8 b8 ++ seq

/-! ### Promotion -/

/-- One element's promotion and bound, with the flags it raises (R120, R121). -/
def promoteElement (g : Group) (m i : Nat) (acc : BitVec 32) (b : BitVec 16) (nb : BitVec 32) :
    BitVec 32 × BitVec 16 × Flags :=
  let sw := g.sw.getD i 0
  let ea := g.ea.getD m 0
  let f := fPromote acc sw ea nb.toInt
  let r := f.1
  let e := g.bound + sget 0 g.cx (1536 * m + 128 * g.zcg + i)
  let bad := match fp32.decode r.toNat with | .fin .. => false | _ => true
  if g.sat || bad then (r, 0x7C00, f.2)
  else
    let term := ((fp32.decode sw.toNat).abs.scale ((ea.toNat : Int) - 127))
    let x := fmaNum term (Num.ofInt (e : Nat)) (fp16.decode b.toNat) 2
    (r, BitVec.ofNat 16 (fp16.round x.1 2 false 0).1, f.2)

/-- The flags that a promotion of group g with the narrow sums nb raises (R103, R120). -/
def promoFlags (mat : Matrix) (g : Group) (nb : SMap (BitVec 32)) : Flags :=
  (List.range g.m).foldl (fun acc m => (List.range (128 * g.ng)).foldl (fun f i =>
    let at_ := g.z.toNat * 24576 + 1536 * m + 128 * g.zcg + i
    f ||| (promoteElement g m i (sget 0 mat.z at_) (sget 0 mat.zb at_) (sget 0 nb (1536 * m + 128 * g.zcg + i))).2.2) acc) 0

/-- Flags of a promotion in the payload of a record: PAY[69:64] (R103, R120; log 32). -/
def withFlags (pay : BitVec 128) (f : Flags) : BitVec 128 := pay ||| (f.setWidth 128 <<< 64)

/-- A promotion that has been started is performed, row by row from n = 0 upward (R120). -/
def performPromo (s : State) (c : CoreId) (p : Promo) : State :=
  let g := p.group
  let mat := (s.core c).mat
  let base := g.z.toNat * 24576
  let r := (List.range g.m).foldl (fun (zz : SMap (BitVec 32) × SMap (BitVec 16)) m =>
    (List.range (128 * g.ng)).foldl (fun zb i =>
      let at_ := base + 1536 * m + 128 * g.zcg + i
      let e := promoteElement g m i (sget 0 zb.1 at_) (sget 0 zb.2 at_) (sget 0 p.nb (1536 * m + 128 * g.zcg + i))
      (sset 0 zb.1 at_ e.1, sset 0 zb.2 at_ e.2.1)) zz) (mat.z, mat.zb)
  let zm := (List.range g.ng).foldl (fun acc i => setBit acc (12 * g.z.toNat + g.zcg + i) true) mat.zmap
  s.setCore c { (s.core c) with mat := { mat with z := r.1, zb := r.2, zmap := zm } }

/-- The open group is closed and its promotion started; NB begins again at zero (R119, R299). -/
def startPromo (s : State) (c : CoreId) : State :=
  let k := s.core c
  match k.mat.group with
  | none => s
  | some g =>
    let p : Promo := { group := g, nb := k.mat.nb, seq := k.mat.seq }
    s.setCore c { k with mat := { k.mat with group := none, nb := [], promos := k.mat.promos ++ [p] } }

/-- An early promotion with its record: cause 1 joining mismatch, 2 z access, 3 suspension (R119, R132; log 23). -/
def promoteEarly (s : State) (c : CoreId) (cause : Nat) : State :=
  match (s.core c).mat.group with
  | none => s
  | some g =>
    let mat := (s.core c).mat
    startPromo (statRecord s c 0 0x3012 g.bundle (withFlags (payload mat.seq cause 0 0) (promoFlags mat g mat.nb))) c

/-- Every started promotion is performed, in the order they were started (R292). -/
def performPromos (s : State) (c : CoreId) : State :=
  let s1 := (s.core c).mat.promos.foldl (fun st p => performPromo st c p) s
  s1.setCore c { (s1.core c) with mat := { (s1.core c).mat with promos := [] } }

/-! ### The end of a pass -/

/-- The column flags of the clips are set (R117, R123). -/
def setClips (mat : Matrix) (cl : List ClipNote) : Matrix :=
  { mat with clip := cl.foldl (fun m x => sset false m (x.tier.toNat * 3072 + x.pcol) true) mat.clip }

/-- The clip excess of a pass joins the group's (R121). -/
def addExcess (g : Group) (cl : List ClipNote) : Group :=
  { g with cx := cl.foldl (fun m x => sset 0 m (1536 * x.m + x.col) (sget 0 m (1536 * x.m + x.col) + x.w)) g.cx }

/-- Records of a pass: clips in row order, fold change, saturation, with the flags f of the promotion that it brings (R120, R132). -/
def passRecords (s : State) (c : CoreId) (p : Pass) (r : PassSums) (storm : Bool) (w : Word) (f : Flags) : State :=
  let pairs := if storm then [] else
    (List.range p.m).flatMap fun m => ((r.clips.filter fun x => x.m = m).map fun x => (x.m, x.n)).eraseDups
  let s1 := pairs.foldl (fun st mn =>
    let cx := ((r.clips.filter fun x => x.m = mn.1 && x.n = mn.2).map ClipNote.w).foldl (· + ·) 0
    statRecord st c 0 0x3013 p.bundle (withFlags (payload p.seq mn.1 mn.2 cx) f)) s
  let mapNow : BitVec 15 := BitVec.ofNat 12 (passOrder p) ++ p.par
  let s2 := if p.seff < p.sp || p.fb ≠ 0 || ((s1.core c).mat.lastMap.any fun l => l ≠ mapNow)
    then statRecord s1 c 0 0x3011 p.bundle (withFlags ((0 : BitVec 64) ++ w) f) else s1
  let s3 := match r.sat with
    | some mn => statRecord s2 c 0 0x3014 p.bundle (withFlags (payload p.seq mn.1 mn.2 0) f)
    | none => s2
  s3.setCore c { (s3.core c) with mat := { (s3.core c).mat with lastMap := some mapNow } }

/-- The fold word of a pass lands in s[FDST]: in the registers, in those before the bundle in progress and in the shadow, since a result
in flight at a boundary belongs to it and no rollback crosses a committed run (R213, R305). -/
def Core.landFold (k : Core) (fdst : BitVec 6) (w : Word) : Core :=
  if fdst = 0 then k
  else
    let land (r : Regs) : Regs := (r.landAll (.s fdst)).put (.s fdst) (w.setWidth 4096)
    { k with regs := land k.regs, shadow := { k.shadow with regs := land k.shadow.regs },
             current := k.current.map fun q => { q with pre := land q.pre } }

/-- The pass ends: NB, clip flags, excess and SAT of its group, the fold word in FOLD and s[FDST], CLIPS, the records, and
the promotion of a group that ends with it (R118, R128, R131). A pass that a clip storm restarted at SEFF 0 emits no
clip record and adds nothing to a bound (R424). -/
def finishPass (s : State) (c : CoreId) (p : Pass) (r : PassSums) (storm : Bool) : State :=
  let k := s.core c
  let w := foldWord p (!r.clips.isEmpty) r.sat.isSome
  let g := k.mat.group.map fun g =>
    let g1 := addExcess g r.clips
    { g1 with sat := g1.sat || r.sat.isSome,
              bound := g1.bound + 3 * passDepth p * apair p.wfmt.toNat p.pa p.seff }
  let mat := setClips { k.mat with nb := r.nb, group := g, fold := w,
                                   passes := k.mat.passes.filter fun x => x.seq ≠ p.seq } r.clips
  let s1 := passRecords (s.setCore c ({ k with mat := mat }.landFold p.fdst w)) c p r storm w
    (match p.promo, g with | true, some x => promoFlags k.mat x r.nb | _, _ => 0)
  if p.promo then startPromo s1 c else s1

/-- The column groups that a pass or group delivers into, as ZPOIS (R385, R418). -/
def targetGroups (z : BitVec 4) (zcg ng : Nat) : BitVec 192 :=
  BitVec.ofNat 192 ((2 ^ ng - 1) * 2 ^ (12 * z.toNat + zcg))

/-- The target groups of the passes of core c in flight that have read poison (R387). -/
def poisonedGroups (k : Core) : BitVec 192 :=
  (k.mat.passes.filter Pass.poisoned).foldl (fun acc p => acc ||| targetGroups p.z p.zcg p.ng) 0

/-- The passes of core c in flight run to their end, but for those that have read poison and deliver nothing; started promotions finish
and a pending swap is exchanged (R305, R387). -/
def drainMatrix (s : State) (c : CoreId) : State :=
  let s1 := (s.core c).mat.passes.foldl (fun st p =>
    if p.poisoned then st.setCore c { (st.core c) with mat := { (st.core c).mat with passes := (st.core c).mat.passes.filter fun x => x.seq ≠ p.seq } }
    else finishPass st c p (passSums st c p) false) s
  let s2 := performPromos s1 c
  let k := s2.core c
  let odd := decide (k.mat.swaps % 2 = 1)
  s2.setCore c { k with mat := { k.mat with half := k.mat.half ^^ odd,
                                            swpc := k.mat.swpc + BitVec.ofNat 8 k.mat.swaps, swaps := 0 } }

end Sys2Proof.Machine
end

