-- ==== Sys2Proof/Machine/Ops.lean ====
section
/-! DEFINITION. What the instructions share beyond the pipeline: saving and restoring a continuation (R354 to R357, R361),
taking an exception (R383 to R388) and the return from one (R361), suspension (R27, R351), and control transfers out of
a bundle (R228 to R232). -/

namespace Sys2Proof.Machine

/-! ### Words in memory -/

/-- A list of 8-byte words from key on. -/
def writeWords (s : State) (key : Nat) : List Word → State
  | [] => s
  | w :: ws => writeWords (writeWord s key w) (key + 8) ws

/-- A list of items of n bytes each from key on. -/
def writeItems (s : State) (key n : Nat) : List Nat → State
  | [] => s
  | x :: xs => writeItems (writeNat s key n x) (key + n) n xs

/-- k items of n bytes from key on. -/
def readItems (s : State) (key n k : Nat) : List Nat := (List.range k).map fun i => readNat s (key + n * i) n

/-! ### Loop stack (R228) -/

def loopDepth (r : Regs) : Nat := fld r.ldep 0 3
def lcntRem (w : Word) : Nat := fld w 32 32
def lcntV (w : Word) : Bool := bit w 31
def lcntNst (w : Word) : Bool := bit w 30
def lcntEpd (w : Word) : Nat := fld w 27 3
def lcntCur (w : Word) : Nat := fld w 21 6
def lcntLen (w : Word) : Nat := fld w 12 9
/-- LCNT and LADD of entry i. -/
def loopCnt (r : Regs) (i : Nat) : Word := r.lcnt.toList.getD i 0
def loopAdd (r : Regs) (i : Nat) : Word := r.ladd.toList.getD i 0

def mkLcnt (rem : Nat) (nst : Bool) (epd cur len : Nat) : Word :=
  BitVec.ofNat 32 rem ++ (1 : BitVec 1) ++ BitVec.ofBool nst ++ BitVec.ofNat 3 epd ++ BitVec.ofNat 6 cur
    ++ BitVec.ofNat 9 len ++ (0 : BitVec 12)

/-- An entry is pushed (R229, R231). -/
def Regs.pushLoop (r : Regs) (cnt add : Word) : Regs :=
  let d := loopDepth r
  { r with lcnt := r.lcnt.setIfInBounds d cnt, ladd := r.ladd.setIfInBounds d add,
           ldep := BitVec.ofNat 64 (d + 1) }

/-- The top entry is popped: its V falls with DEPTH (R228). -/
def Regs.popLoop (r : Regs) : Regs :=
  let d := loopDepth r - 1
  { r with lcnt := r.lcnt.setIfInBounds d (setBit (loopCnt r d) 31 false), ldep := BitVec.ofNat 64 d }

/-- A bundle lies in the body of entry i (R228). -/
def inBody (r : Regs) (i : Nat) (pc : Word) : Bool :=
  let first := (loopAdd r i).toNat / 32 * 32
  decide (first ≤ pc.toNat) && decide (pc.toNat < first + 32 * lcntLen (loopCnt r i))

/-- LoopExit (R232): a taken branch from inside the body of the top entry to its outside pops it, and the test repeats. -/
def loopExit (pc target : Word) : Nat → Regs → Regs
  | 0, r => r
  | n + 1, r =>
    let d := loopDepth r
    if 0 < d && inBody r (d - 1) pc && !inBody r (d - 1) target then loopExit pc target n r.popLoop else r

/-- p8 to p15 by their logical numbers; p0 to p7 stay. -/
def setLogicalP (r : Regs) (n : Nat) (b : Bool) : Regs := r.landAll (.p (pphys r.rot (BitVec.ofNat 4 n)))
  |>.put (.p (pphys r.rot (BitVec.ofNat 4 n))) (ofBool b)

/-- VB and PB step back at a loop-back (R210). -/
def Regs.rotate (r : Regs) : Regs :=
  { r with rot := BitVec.ofNat 64 ((rotVB r.rot + 31) % 32 * 256 + (rotPB r.rot + 7) % 8) }

/-- Nest fields (R230). -/
def nestBound (w : Word) : Nat := fld w 0 24
def nestStra (w : Word) : Int := sextNat 20 (fld w 24 20)
def nestStrb (w : Word) : Int := sextNat 20 (fld w 44 20)
def nestReg (r : Regs) (i : Nat) : Word := r.n.toList.getD i 0

/-- The product of the bounds of n0 to n[d] (R231). -/
def nestTotal (r : Regs) (d : Nat) : Nat := upTo (d + 1) (fun x t => t * nestBound (nestReg r x)) 1

/-- The lowest dimension whose index is below BOUND − 1 in iteration i (R231). -/
def nestStep (r : Regs) (d i : Nat) : Nat :=
  match (List.range (d + 1)).find? fun x =>
    let span := upTo x (fun y t => t * nestBound (nestReg r y)) 1
    decide (i / span % nestBound (nestReg r x) + 1 < nestBound (nestReg r x)) with
  | some x => x
  | none => d

/-- A scalar advanced by a stride, as a C-slot write. -/
def Regs.advance (r : Regs) (n : Nat) (k : Int) : Regs :=
  let ref := RegRef.s (BitVec.ofNat 6 n)
  let r1 := r.landAll ref
  r1.put ref (((r1.base ref).setWidth 64 + BitVec.ofInt 64 k).setWidth 4096)

/-- The loop-back point at the last bundle of the top entry's body: the next bundle and the registers (R229, R231). An
outer entry that ends at the same bundle has its own loop-back point there when the inner one has been popped. -/
def loopBack (pc : Word) : Nat → Regs → Word × Regs
  | 0, r => (pc + 32, r)
  | n + 1, r =>
    let d := loopDepth r
    let i := d - 1
    let cnt := loopCnt r i
    let first := BitVec.ofNat 64 ((loopAdd r i).toNat / 32 * 32)
    if d = 0 || pc ≠ first + BitVec.ofNat 64 (32 * (lcntLen cnt - 1)) then (pc + 32, r)
    else if lcntRem cnt = 0 then loopBack pc n r.popLoop
    else
      let rem := lcntRem cnt - 1
      let r1 := { r with lcnt := r.lcnt.setIfInBounds i (setFld cnt 32 32 rem) }
      if lcntNst cnt then
        let e := lcntEpd cnt
        let x := nestStep r e (nestTotal r e - 1 - lcntRem cnt)
        let a := lcntCur cnt
        (first, if a = 0 then r1 else
          (r1.advance a (nestStra (nestReg r x))).advance (a + 1) (nestStrb (nestReg r x)))
      else (first, setLogicalP r1.rotate 8 (decide (lcntEpd cnt ≤ rem)))

/-! ### The save area (R355 to R357) -/

/-- The words of the control block (R357). -/
def controlWords (k : Core) : List Word :=
  let r := k.regs
  [r.nflags, r.rotNext.getD r.rot, r.xmode, r.srseed, r.srstr, r.trapv, r.tret, r.targ, statqValue k, r.statw, k.mat.fold, k.held,
    k.hmode, r.ldep] ++ r.lcnt.toList ++ r.ladd.toList ++ r.n.toList ++ [r.msetup, r.mpin, r.bc, r.p.setWidth 64]
    ++ List.replicate 32 0

/-- What a header says beyond the core's state (R356). -/
structure SaveKind where
  skind : Nat
  res : Word
  ypt : Word
  wkind : Nat
  wobj : Word
  warg : Word
  npush : Nat
  nsnap : Nat
  nbv : Bool
  deriving DecidableEq, Repr

/-- The header above STG (R356): bits [2047:64]. -/
def saveHeader (k : Core) (c : CoreId) (h : SaveKind) : Nat :=
  let seq := match k.seqMode with | .none => (0 : Nat) | .save _ => 1 | .restore => 3
  let scr := (k.scr.toList.zip (List.range 4)).foldl (fun acc x => acc + x.1.toNat * 2 ^ (512 + 64 * x.2)) 0
  h.res.toNat / 32 * 2 ^ 5 + h.ypt.toNat / 32 * 2 ^ 69 + c.val * 2 ^ 128 + k.aff.toNat * 2 ^ 135 + seq * 2 ^ 136
    + h.skind * 2 ^ 140 + h.nsnap * 2 ^ 144 + h.npush * 2 ^ 152 + h.wkind * 2 ^ 160 + h.nbv.toNat * 2 ^ 168
    + h.wobj.toNat * 2 ^ 192 + h.warg.toNat * 2 ^ 256 + k.mat.zmap.toNat * 2 ^ 320 + scr

/-- Header, control block and statistics queue, written at every suspension (R355). -/
def saveCommon (s : State) (c : CoreId) (base : Nat) (h : SaveKind) : State :=
  let k := s.core c
  let s1 := writeNat s (base + 8) 248 (saveHeader k c h)
  let s2 := writeWords s1 (base + 0x100) (controlWords k)
  writeItems s2 (base + 0x1300) 32 (k.stats.map BitVec.toNat)

/-- The tag of a snapshot entry (R357). -/
def snapTag (f : InFlight) : Nat :=
  let rk := match f.reg with
    | some (.s n) => (n.toNat, 0)
    | some (.p n) => (n.toNat, 1)
    | some (.v n) => (n.toNat, 2)
    | some (.k n) => (n.toNat, 3)
    | none => (0, 0)
  f.rem + f.slot.val * 2 ^ 16 + rk.1 * 2 ^ 24 + rk.2 * 2 ^ 30 + f.bc.toNat * 2 ^ 32

/-- A withdrawn push (R357). -/
def pushImage (p : Push) : Nat := p.word.toNat + p.a.toNat * 2 ^ 64 + p.b.toNat * 2 ^ 128 + p.v.toNat * 2 ^ 256

/-- The gather whose words stand in the save area (R443): that of the oldest accepted index, else the latest that is not over. -/
def savedGather (k : Core) : Option LiveGather :=
  match k.gidx with
  | i :: _ => k.live.find? fun l => l.gather = i.gather
  | [] => (k.live.filter fun l => !gatherOver k l).getLast?

/-- The gather words of R443: word 0, the indices, word 65. -/
def gatherWords (k : Core) : List Word :=
  let l := savedGather k
  let w0 := (match l with
      | some x => x.gather.tmpl.toNat * 2 ^ 8 + x.gather.chan.toNat + (!x.closed).toNat * 2 ^ 31
      | none => 0)
    + k.gidx.length % 128 * 2 ^ 23 + (k.gidx.any GatherIndex.last).toNat * 2 ^ 30
  let idx := k.gidx.map fun e => e.index.setWidth 64
  [BitVec.ofNat 64 w0] ++ idx ++ List.replicate (64 - idx.length) 0
    ++ [BitVec.ofNat 64 (k.results.length * 2 ^ 8 + k.rows.length)]

/-- z groups and companions that ZMAP marks, streamed (R355). -/
def saveZ (s : State) (c : CoreId) (base : Nat) : State :=
  let mat := (s.core c).mat
  (List.range 192).foldl (fun st i =>
    if bit mat.zmap i then
      (List.range 16).foldl (fun st2 m =>
        (List.range 128).foldl (fun st3 j =>
          let col := 128 * (i % 12) + j
          let at_ := 24576 * (i / 12) + 1536 * m + col
          let off := 98304 * (i / 12) + 6144 * m + 4 * col
          writeNat (writeNat st3 (base + 0x40000 + off) 4 (sget 0 mat.z at_).toNat) (base + 0x1C0000 + off / 2) 2
            (sget 0 mat.zb at_).toNat) st2) st
    else st) s

/-- NB and the open group's 512 bytes, which name the group among those that stand in save areas (log 17). -/
def saveGroup (s : State) (c : CoreId) (base : Nat) (g : Group) : State :=
  let nb := (s.core c).mat.nb
  let s1 := writeNat { s with groups := s.groups ++ [g] } (base + 0x27800) 512 (s.groups.length + 1)
  (List.range 16).foldl (fun st m => (List.range 1536).foldl (fun st2 n =>
    writeNat st2 (base + 0x28000 + 6144 * m + 4 * n) 4 (sget 0 nb (1536 * m + n)).toNat) st) s1

/-- What a forced save leaves aside is kept (R238, R352, R353; log 58). -/
def keepAside (s : State) (base : Nat) (k : Core) (pushes : List (Push × Nat)) : State :=
  let x : Aside := { base := base, res := if k.seqMode = .none then none else some k.res, pushes := pushes, gidx := k.gidx,
                     rows := k.rows.map Prod.fst, live := k.live, gather := k.regs.gather }
  { s with asides := x :: s.asides.filter fun e => e.base ≠ base }

/-- The forced part (R355), with the pushes that were withdrawn. A result that the slot's next entry sees has landed by the
stop; the others stand in the snapshot buffer with their distance (R354, R357; log 5). -/
def saveForced (s : State) (c : CoreId) (base : Nat) (h : SaveKind) (pushes : List (Push × Nat)) : State :=
  let k := s.core c
  let r := k.regs.landWithin 1
  let s1 := saveCommon ((keepAside s base k pushes).setCore c { k with regs := r }) c base { h with npush := pushes.length, nsnap := r.fly.length, nbv := k.mat.group.isSome }
  let s2 := writeWords s1 (base + 0x300) r.s.toList
  let s3 := writeItems s2 (base + 0x500) 64 (r.k.toList.map BitVec.toNat)
  let s4 := (List.range 31).foldl (fun st i =>
    let hd := r.h.toList.getD (i + 1) 0
    writeNat (writeNat st (base + 0x700 + 96 * (i + 1)) 88 hd.toNat) (base + 0x700 + 96 * (i + 1) + 88) 8 0) s3
  let s5 := writeWords s4 (base + 0x1700) (gatherWords k)
  let s6 := writeItems s5 (base + 0x2000) 512 (r.v.toList.map BitVec.toNat)
  let s7 := writeItems s6 (base + 0xA000) 544 (r.fly.map fun f => snapTag f + f.value.toNat * 2 ^ 256)
  let s8 := writeItems s7 (base + 0x12800) 544 (pushes.map fun p => pushImage p.1)
  let s9 := writeItems s8 (base + 0x23800) 512 (k.results.map BitVec.toNat)
  let s10 := writeItems s9 (base + 0x25800) 512 (k.rows.map fun r => r.2.toNat)
  let s11 := match k.mat.group with
    | some g => saveGroup s10 c base g
    | none => s10
  saveZ s11 c base

/-! ### Leaving a core -/

/-- The core is idle (R27): nothing of the continuation is left in it; queries that it has pushed run on (R328). -/
def goIdle (s : State) (c : CoreId) : State :=
  let k := s.core c
  let w := (dropWalked s (towerOf c) (c.val % 32)).tower (towerOf c)
  (s.setTower (towerOf c) { w with queries := w.queries.map fun q => if q.core = c then { q with orphan := true } else q }).setCore c { k with
    run := none, current := none, gate := [], freed := 0, loads := [], group := [], returns := [], loopBuf := none, stall := none, seqMode := .none,
    rows := [], gidx := [], live := [], results := [], stats := [], statOvf := false, displace := none,
    stopped := false, aff := false, held := 0, hmode := 0, regs := { k.regs with fly := [], gather := none },
    mat := { k.mat with group := none, nb := [], passes := [], promos := [], zmap := 0, calReq := false, ran := false },
    lastc := 0, idleSince := s.clk, lastInst := match k.run with | some r => r.inst | none => k.lastInst }

/-- The core is idle after a suspension: where a displacement request has brought it, the next continuation is a
pre-emptor under RBANK of this one's instance (R360). -/
def goIdleDisplaced (s : State) (c : CoreId) : State :=
  let k := s.core c
  let s1 := goIdle s c
  s1.setCore c { (s1.core c) with preRbank := if k.displace.isSome then k.run.map fun r => r.launch.rbank else none }

/-- The gathers of core c after pushes have been withdrawn: one whose opening is among them has not begun, and one whose last index is
among them still accepts (R354, R443). -/
def withdrawGathers (live : List LiveGather) (ps : List (Push × Nat)) : List LiveGather :=
  let names (p : Push → Bool) (l : LiveGather) : Bool := ps.any fun x => p x.1 && x.2 = gatherKey l.gather
  (live.filter fun l => !names opensGather l).map fun l =>
    if names (fun p => pushMajor p = 0x03 && bit p.b 0) l then { l with closed := false } else l

/-- At a forced stop (R354): stores and atomics in the gate are performed; accepted queries are answered; the pushes that
are not accepted, in the windows, at the curd units or in the gate, are withdrawn in program order, each with its key. -/
def drainGate (s : State) (c : CoreId) : State × List (Push × Nat) :=
  let k := s.core c
  let own : ReplayEntry → Bool := fun e => match k.run with
    | some r => e.record = r.record && e.ctx = r.ctx && e.gen = r.gen
    | none => false
  let queued := (k.replay.filter own).map fun e => (e.push, e.key)
  let s1 := k.gate.foldl (fun st e => match e with | .push .. => st | _ => leaveGate st c e) s
  let mine := k.gate.filterMap fun e => match e with | .push p key => some (p, key) | _ => none
  let q := settleQueries s1 c
  let k1 := q.1.core c
  -- a window begins again at its first withdrawn number
  let seqs := k1.sendSeq.map fun e =>
    match k.replay.find? fun x => x.dest = e.1 && own x with
    | some x => (e.1, x.seq)
    | none => e
  (q.1.setCore c { k1 with gate := [], freed := 0, replay := k1.replay.filter fun e => !own e, sendSeq := seqs,
                           live := withdrawGathers k1.live (queued ++ mine) }, queued ++ q.2 ++ mine)

/-! ### Taking an exception -/

/-- What a fault reports (R384, R385). -/
structure FaultInfo where
  kind : Nat
  code : Code
  faults : List (Fin 8 × Code × Word)
  info : Word
  fbun : Word
  rstrt : Bool
  spois : Word
  vpois : Word
  zpois : BitVec 192
  nbp : Bool
  deriving DecidableEq, Repr

/-- A fault without poisoned parts. -/
def FaultInfo.plain (kind : Nat) (code : Code) (info fbun : Word) : FaultInfo :=
  { kind := kind, code := code, faults := [], info := info, fbun := fbun, rstrt := true, spois := 0, vpois := 0,
    zpois := 0, nbp := false }

/-- The fault frame (R385). -/
def faultFrame (s : State) (c : CoreId) (f : FaultInfo) : Nat :=
  let smask := f.faults.foldl (fun acc x => acc ||| 2 ^ x.1.val) 0
  let scode := (List.finRange 8).foldl (fun acc x =>
    match f.faults.find? fun y => y.1 = x with
    | some y => acc + y.2.1.toNat * 2 ^ (256 + 16 * x.val)
    | none => acc) 0
  f.nbp.toNat * 2 ^ 98 + f.rstrt.toNat * 2 ^ 99 + f.kind * 2 ^ 100 + smask * 2 ^ 104 + f.code.toNat * 2 ^ 112
    + f.fbun.toNat / 32 * 2 ^ 133 + (s.core c).lastc.toNat / 32 * 2 ^ 197 + scode + s.hub.podTime.toNat * 2 ^ 384
    + f.info.toNat * 2 ^ 448 + f.spois.toNat * 2 ^ 512 + f.vpois.toNat * 2 ^ 576 + f.zpois.toNat * 2 ^ 640

/-- Poisoned values are saved as zero (R385). -/
def clearPoisoned (k : Core) (f : FaultInfo) : Core :=
  let r := k.regs
  let ss := Vector.ofFn fun i : Fin 64 => if i.val ≠ 0 && bit f.spois i.val then 0 else r.s.get i
  let vv := Vector.ofFn fun i : Fin 64 => if bit f.vpois i.val then 0 else r.v.get i
  let keepZ : Nat → Bool := fun at_ => !bit f.zpois (12 * (at_ / 24576) + at_ % 1536 / 128)
  { k with regs := { r with s := ss, v := vv },
           mat := { k.mat with z := if f.zpois = 0 then k.mat.z else k.mat.z.filter fun e => keepZ e.1,
                               zb := if f.zpois = 0 then k.mat.zb else k.mat.zb.filter fun e => keepZ e.1,
                               nb := if f.nbp then [] else k.mat.nb } }

/-- INFO of the fault-queue record: the layout of R400 for translation faults, FBUN otherwise (R392, R400). -/
def queueInfo (f : FaultInfo) : Word := if fld f.code 12 4 = 1 then f.info else f.fbun

/-- The header of a forced save (R356): inside a save sequence the wait that the sequence serves stays in it. -/
def forcedKind (s : State) (c : CoreId) (base : Nat) (res : Word) : SaveKind :=
  let h : BitVec 2048 := BitVec.ofNat 2048 (readNat s base 256)
  let keep := match (s.core c).seqMode with | .save _ => true | _ => false
  { skind := 1, res := res, ypt := (s.core c).ypt, wkind := if keep then fld h 224 8 else 0,
    wobj := if keep then BitVec.ofNat 64 (fld h 256 64) else 0, warg := if keep then BitVec.ofNat 64 (fld h 320 64) else 0,
    npush := 0, nsnap := 0, nbv := false }

/-- TAKING AN EXCEPTION (R383, R384): the continuation, whose registers stand at the boundary that FKIND gives, is saved
as a forced pre-emption saves it with RES the boundary's bundle; the fault frame is written; Rennet writes STATE, FAULT
and OWNV in the record and holds the instance (R394); the core is idle. Passes that have read poison add their groups. -/
def endWithFault (s : State) (c : CoreId) (f0 : FaultInfo) : State :=
  match (s.core c).run with
  | none => goIdle s c
  | some r =>
    let lost := poisonedGroups (s.core c)
    let f := { f0 with zpois := f0.zpois ||| lost, nbp := f0.nbp || decide (lost ≠ 0) }
    let res := (s.core c).pc
    let s1 := drainMatrix s c
    let d := drainGate s1 c
    let s2 := fullRelease d.1 c
    let s3 := s2.setCore c (clearPoisoned (s2.core c) f)
    let s4 := saveForced s3 c r.saveKey (forcedKind s3 c r.saveKey res) d.2
    let s5 := writeNat s4 (r.saveKey + 0x1B00) 256 (faultFrame s4 c f)
    let s6 := faultNode s5 r.home.val r.recKey r.instKey f.code r.ctx r.gen c.val r.record (queueInfo f)
    goIdleDisplaced s6 c

/-- FORCED PRE-EMPTION (R353, R354): the uncommitted bundle is undone, the continuation is saved in full with RES the
boundary's bundle, and its record waits for the write-back of the core's dirty lines (R359). -/
def forcedStop (s : State) (c : CoreId) : State :=
  match (s.core c).run with
  | none => s
  | some r =>
    let s1 := undoBundle s c
    let res := (s1.core c).pc
    let d := drainGate (drainMatrix s1 c) c
    let s2 := flushQuantum d.1 c
    let s3 := saveForced s2 c r.saveKey (forcedKind s2 c r.saveKey res) d.2
    let aff := (s3.core c).aff
    let s4 := goIdleDisplaced s3 c
    s4.setTower (towerOf c) { (s4.tower (towerOf c)) with
      displaced := (s4.tower (towerOf c)).displaced ++ [{ core := c, run := r, aff := aff }] }

/-- The other cores of the deterministic partition that core c belongs to (R156). -/
def partitionCores (s : State) (c : CoreId) : List CoreId :=
  match (s.core c).run with
  | some r =>
    if r.launch.det then
      (List.finRange 128).filter fun d => d ≠ c && (match (s.core d).run with
        | some q => q.launch.det && q.instKey = r.instKey
        | none => false)
    else []
  | none => []

/-- PARTITION_STOP (R388): core d, at its last committed bundle, ends with FKIND 3 and 0x0330. -/
def partitionStop (s : State) (d : CoreId) : State :=
  let s1 := undoBundle s d
  endWithFault s1 d (FaultInfo.plain 3 0x0330 0 (s1.core d).lastc)

/-- A fault of any kind on a core of a deterministic partition stops the others (R388). -/
def takeFault (s : State) (c : CoreId) (f : FaultInfo) : State :=
  let others := partitionCores s c
  others.foldl partitionStop (endWithFault s c f)

/-- A precise fault of the bundle in progress (FKIND 0): the bundle is undone, CODE is that of the lowest-numbered
faulting slot (R212, R383). -/
def takePrecise (s : State) (c : CoreId) : State :=
  match (s.core c).current with
  | none => s
  | some cur =>
    let lowest := (List.finRange 8).findSome? fun x => cur.faults.find? fun y => y.1 = x
    match lowest with
    | none => s
    | some y => takeFault (undoBundle s c) c
        { (FaultInfo.plain 0 y.2.1 y.2.2 cur.pc) with faults := cur.faults }

/-- A refused rollback (FKIND 1): an access found a code of class 0x10 to 0x12; the continuation ends at the restart
point (R213, R383, R399). -/
def takeRefused (s : State) (c : CoreId) (x : Fin 8) (code : Code) (info : Word) : State :=
  let fbun := match (s.core c).current with | some cur => cur.pc | none => (s.core c).pc
  takeFault (rollback s c) c { (FaultInfo.plain 1 code info fbun) with faults := [(x, code, info)] }

/-- An engine fault (FKIND 2): after the last committed bundle (R387). -/
def takeEngine (s : State) (c : CoreId) (f : FaultInfo) : State := takeFault (undoBundle s c) c { f with kind := 2 }

/-- A range in transit (R401): the core rolls back, appends its record, and the access waits for the handover's end. -/
def waitTransit (s : State) (c : CoreId) (x : Fin 8) (info : Word) : State :=
  let pc := match (s.core c).current with | some cur => cur.pc | none => (s.core c).pc
  let s1 := layoutRecord (rollback s c) c 0x1006 pc info
  s1.setCore c { (s1.core c) with stall := some { kind := 7, obj := 0, arg := 0, key := 0, slot := x, dst := 0 } }

end Sys2Proof.Machine
end

