-- ==== Sys2Proof/Machine/Restore.lean ====
section
/-! DEFINITION. Suspension at a yield point (R351) and the return to a continuation: the control block and the forced part
of a save area read back (R352, R361). -/

namespace Sys2Proof.Machine

/-! ### The yield-sequence table (R223) -/

/-- What the table says of a YIELD bundle: SAVE and REST. -/
structure YieldEntry where
  save : Word
  rest : Word
  deriving DecidableEq, Repr

/-- The entry of the table at YSEQ whose YPT is the bundle (R223). -/
def yieldEntry (s : State) (v : View) (yseq pc : Word) : Option YieldEntry :=
  if yseq = 0 then none
  else
    match flatRead s v yseq 2 with
    | .error _ => none
    | .ok count =>
      (List.range count).findSome? fun i =>
        match flatRead s v (yseq + BitVec.ofNat 64 (32 * (i + 1))) 32 with
        | .error _ => none
        | .ok e => if e % 2 ^ 64 = pc.toNat then
            some { save := BitVec.ofNat 64 (e / 2 ^ 64), rest := BitVec.ofNat 64 (e / 2 ^ 128) } else none

/-- The yield point of the bundle at pc for the continuation of core c (R349, R391). -/
def coreYield (s : State) (c : CoreId) (pc : Word) : Option YieldEntry :=
  match (s.core c).run with
  | some r => yieldEntry s (coreView s c) r.yseq pc
  | none => none

/-! ### The yield path (R351) -/

/-- Results in flight land: a YIELD bundle issues after every earlier write has landed (R350). -/
def landEverything (r : Regs) : Regs :=
  let q : Regs := { r with fly := r.fly.map fun f => { f with rem := 0 } }
  q.landDue

/-- Every register of a core's register state at a suspension: what is in flight has landed, and a ROT that was written applies, since
the suspension ends the group (R202, R210, R350). -/
def Regs.settled (r : Regs) : Regs :=
  let q := landEverything r
  { q with rot := q.rotNext.getD q.rot, rotNext := none }

/-- s60 to s63. -/
def Regs.scratch (r : Regs) : Vector Word 4 := Vector.ofFn fun i : Fin 4 => r.s.toList.getD (60 + i.val) 0

/-- s60 to s63 written; a result in flight for one of them is over. -/
def Regs.setScratch (r : Regs) (x : Vector Word 4) : Regs :=
  (List.finRange 4).foldl (fun q i =>
    let ref := RegRef.s (BitVec.ofNat 6 (60 + i.val))
    (q.landAll ref).put ref ((x.get i).setWidth 4096)) r

/-- What s60 to s63 hold as a sequence begins: the yield part, and zeros (R351, R352). -/
def yieldPart (saveFlat : Word) : Vector Word 4 := #v[saveFlat + 0x280000, 0, 0, 0]

/-- A suspension prepared by the program, where the gate is empty and no pass is in flight: quiescing, the hardware save, and the
start of the save sequence (R351). The registers stand at the boundary; st is the STATE that the sequence's end writes, h the
header's kind and wait. -/
def startYield (s : State) (c : CoreId) (e : YieldEntry) (st : BitVec 4) (h : SaveKind) : State :=
  match (s.core c).run with
  | none => s
  | some r =>
    let s1 := fullRelease (closeGather (performPromos (promoteEarly (drainMatrix s c) c 3) c) c) c
    let k1 := s1.core c
    let regs := k1.regs.settled
    let s2 := saveCommon (s1.setCore c { k1 with scr := regs.scratch, regs := regs }) c r.saveKey h
    let regs2 := regs.setScratch (yieldPart r.saveFlat)
    s2.setCore c { (s2.core c) with regs := regs2, seqMode := .save st, res := h.res, ypt := h.ypt, pc := e.save, current := none,
                                    stall := none, group := [], shadow := { regs := regs2, pc := e.save } }

/-- A core has come to rest: its gate is empty and no pass is in flight (R351). -/
def atRest (s : State) (c : CoreId) : Bool := (s.core c).gate.isEmpty && (s.core c).mat.passes.isEmpty

/-- c.halt of a restore sequence (R352): s60 to s63 are reloaded and issue continues at RES. -/
def endRestore (s : State) (c : CoreId) : State :=
  let k := s.core c
  let regs := k.regs.setScratch k.scr
  s.setCore c { k with regs := regs, seqMode := .none, pc := k.res, current := none, shadow := { regs := regs, pc := k.res } }

/-! ### Reading a save area back -/

/-- Fields of a header (R356). -/
structure SaveHead where
  res : Word
  ypt : Word
  core : Nat
  aff : Bool
  inseq : Bool
  rseq : Bool
  skind : Nat
  nsnap : Nat
  npush : Nat
  wkind : Nat
  nbv : Bool
  wobj : Word
  warg : Word
  zmap : BitVec 192
  scr : Vector Word 4
  deriving DecidableEq, Repr

def readHead (s : State) (base : Nat) : SaveHead :=
  let h : BitVec 2048 := BitVec.ofNat 2048 (readNat s base 256)
  { res := BitVec.ofNat 64 (fld h 69 59 * 32), ypt := BitVec.ofNat 64 (fld h 133 59 * 32), core := fld h 192 7,
    aff := bit h 199, inseq := bit h 200, rseq := bit h 201, skind := fld h 204 4, nsnap := fld h 208 7,
    npush := fld h 216 8, wkind := fld h 224 8, nbv := bit h 232, wobj := BitVec.ofNat 64 (fld h 256 64),
    warg := BitVec.ofNat 64 (fld h 320 64), zmap := BitVec.ofNat 192 (fld h 384 192),
    scr := Vector.ofFn fun i : Fin 4 => BitVec.ofNat 64 (fld h (576 + 64 * i.val) 64) }

/-- The bytes of a save area that a resumption reads, as offset and length: header, control block and statistics queue, and for
a forced save every part that the header marks (R352, R355, R361). -/
def resumptionReads (s : State) (base : Nat) (h : SaveHead) : List (Nat × Nat) :=
  let w65 := readWord s (base + 0x1700 + 8 * 65)
  [(0, 0x300), (0x1300, 0x400)] ++ if h.skind ≠ 1 then [] else
    [(0x300, 0x1000), (0x1700, 0x210), (0x2000, 0x8000), (0xA000, 544 * h.nsnap), (0x12800, 544 * h.npush),
     (0x23800, 512 * fld w65 8 5), (0x25800, 512 * fld w65 0 5)]
    ++ (if h.nbv then [(0x27800, 0x18800)] else [])
    ++ ((List.range 192).filter fun i => bit h.zmap i).flatMap fun i => (List.range 16).flatMap fun m =>
      let off := 98304 * (i / 12) + 6144 * m + 512 * (i % 12)
      [(0x40000 + off, 512), (0x1C0000 + off / 2, 256)]

/-- One of them cannot be read (R391). -/
def resumptionFails (s : State) (base : Nat) (h : SaveHead) : Bool :=
  !s.poison.isEmpty && (resumptionReads s base h).any fun x => x.2 ≠ 0 && (poisonOf s (base + x.1) x.2).isSome

/-! ### The end of a save sequence -/

/-- Curd result elements that the save sequence has not popped are discarded with one record (R351). -/
def discardResults (s : State) (c : CoreId) : State :=
  let s1 := deliverAnswers s c (s.tower (towerOf c)).queries
  let n := (s1.core c).results.length
  if n = 0 then s1 else statRecord s1 c 2 0x4107 (s1.core c).ypt (BitVec.ofNat 128 n)

/-- The header, STATQ, STATW and the statistics queue as they stand at the end of a save sequence: what step 3 of R351 has
written, unless a forced save has interrupted the sequence or records have come and gone (R355, R356; log 58). -/
def saveEnd (s : State) (c : CoreId) (base : Nat) (st : BitVec 4) : State :=
  let k := s.core c
  let h := readHead s base
  let kind : SaveKind := { skind := if st = 3 then 3 else 2, res := k.res, ypt := k.ypt, wkind := h.wkind, wobj := h.wobj,
                           warg := h.warg, npush := 0, nsnap := 0, nbv := false }
  let s1 := writeNat s (base + 8) 248 (saveHeader { k with seqMode := .none } c kind)
  let s2 := writeWords s1 (base + 0x100 + 8 * 8) [statqValue k, k.regs.statw]
  writeItems s2 (base + 0x1300) 32 (k.stats.map BitVec.toNat)

/-- c.halt of a save sequence, whose gate is empty (R351): the record is written with the sequence's STATE and the core is idle. A record in
state 3 waits with its object; one in state 4 joins the tail of its queue, which the caller sees to. -/
def endSave (s : State) (c : CoreId) (st : BitVec 4) : State :=
  match (s.core c).run with
  | none => goIdle s c
  | some r =>
    let s1 := discardResults (fullRelease s c) c
    goIdleDisplaced (leaveRecord (saveEnd s1 c r.saveKey st) r.recKey st.toNat) c

/-! ### The return to a continuation -/

/-- The control block read into a core (R357). -/
def readControl (s : State) (base : Nat) (k : Core) : Core :=
  let w : Nat → Word := fun i => readWord s (base + 0x100 + 8 * i)
  let r := k.regs
  { k with
    regs := { r with
      nflags := w 0, rot := w 1, rotNext := none, xmode := w 2, srseed := w 3, srstr := w 4, trapv := w 5, tret := w 6, targ := w 7,
      statq := setFld (w 8) 0 7 0, statw := w 9, ldep := w 13,
      lcnt := Vector.ofFn fun i : Fin 4 => w (14 + i.val), ladd := Vector.ofFn fun i : Fin 4 => w (18 + i.val),
      n := Vector.ofFn fun i : Fin 6 => w (22 + i.val), msetup := w 28, mpin := w 29, bc := w 30,
      p := (w 31).setWidth 16 ||| 1 },
    held := w 11, hmode := w 12, mat := { k.mat with fold := w 10 }, statOvf := bit (w 8) 6,
    stats := (readItems s (base + 0x1300) 32 (min 32 (fld (w 8) 0 6))).map (BitVec.ofNat 256) }

/-- A snapshot entry (R357). -/
def readSnap (x : Nat) : InFlight :=
  let n := x / 2 ^ 24 % 64
  let ref : RegRef := match x / 2 ^ 30 % 4 with
    | 0 => .s (BitVec.ofNat 6 n)
    | 1 => .p (BitVec.ofNat 4 n)
    | 2 => .v (BitVec.ofNat 6 n)
    | _ => .k (BitVec.ofNat 3 n)
  { slot := ⟨x / 2 ^ 16 % 8, by omega⟩, reg := some ref, value := BitVec.ofNat 4096 (x / 2 ^ 256), rem := x % 2 ^ 16,
    bc := decide (x / 2 ^ 32 % 2 = 1) }

/-- A withdrawn push (R357). -/
def readPush (x : Nat) : Push :=
  { word := BitVec.ofNat 32 x, a := BitVec.ofNat 64 (x / 2 ^ 64), b := BitVec.ofNat 64 (x / 2 ^ 128),
    v := BitVec.ofNat 4096 (x / 2 ^ 256), bundle := 0 }

/-- z and companions of the groups that ZMAP marks; the other groups are zero (R361). -/
def readZ (s : State) (base : Nat) (zmap : BitVec 192) : SMap (BitVec 32) × SMap (BitVec 16) :=
  (List.range 192).foldl (fun acc i =>
    if bit zmap i then
      (List.range 16).foldl (fun a2 m => (List.range 128).foldl (fun (a3 : SMap (BitVec 32) × SMap (BitVec 16)) j =>
        let at_ := 24576 * (i / 12) + 1536 * m + 128 * (i % 12) + j
        let off := 98304 * (i / 12) + 6144 * m + 4 * (128 * (i % 12) + j)
        (sset 0 a3.1 at_ (BitVec.ofNat 32 (readNat s (base + 0x40000 + off) 4)),
         sset 0 a3.2 at_ (BitVec.ofNat 16 (readNat s (base + 0x1C0000 + off / 2) 2))) ) a2) acc
    else acc) ([], [])

def readNb (s : State) (base : Nat) : SMap (BitVec 32) :=
  (List.range 16).foldl (fun acc m => (List.range 1536).foldl (fun a n =>
    sset 0 a (1536 * m + n) (BitVec.ofNat 32 (readNat s (base + 0x28000 + 6144 * m + 4 * n) 4))) acc) []

/-- A group that an edited open-group state gives: nothing is known of it (R355; log 17). -/
def undefinedGroup (n : Nat) : Group :=
  let w : Nat → Nat := fun i => (Config.undefinedGroup (256 * n + i)).toNat
  { z := BitVec.ofNat 4 (w 0), m := 1 + w 1 % 16, wfmt := BitVec.ofNat 8 (w 2), afmt := BitVec.ofNat 8 (w 3),
    p := 1 + w 4 % 16, wsh := BitVec.ofNat 5 (w 5), wrow := BitVec.ofNat 32 (w 6), zcg := w 7 % 12, obg := w 8 % 12,
    ng := 1 + w 9 % (12 - w 7 % 12), ea := (List.range 16).map fun i => BitVec.ofNat 8 (w (10 + i)),
    sw := (List.range 1536).map fun i => BitVec.ofNat 32 (w (256 + i)), passes := w 30 % 16, bound := w 31, cx := [],
    sat := decide (w 32 % 2 = 1), bundle := BitVec.ofNat 64 (w 33) }

/-- The open group that the 512 bytes name (log 17). -/
def readGroup (s : State) (base : Nat) : Group :=
  let n := readNat s (base + 0x27800) 512
  if n = 0 then undefinedGroup s.freeN else (s.groups[n - 1]?).getD (undefinedGroup s.freeN)

/-- The gather and its indices as the words of the save area give them (R443), with serial n; nothing names their bundles. -/
def readGather (s : State) (base : Nat) (ctx : BitVec 16) (gen : BitVec 8) (n : Nat) : Option LiveGather × List GatherIndex :=
  let w := readWord s (base + 0x1700)
  let g : Gather := { tmpl := BitVec.ofNat 8 (fld w 8 8), chan := BitVec.ofNat 4 (fld w 0 4), ctx := ctx, gen := gen,
                      bundle := 0, serial := n }
  let count := min 64 (fld w 23 7)
  let idx := (List.range count).map fun i =>
    { gather := g, bundle := 0, index := BitVec.ofNat 32 (readNat s (base + 0x1700 + 8 * (i + 1)) 4),
      last := bit w 30 && decide (i + 1 = count) }
  (if bit w 31 || count ≠ 0 then some { gather := g, closed := !bit w 31, reopened := true, opening := none } else none, idx)

/-- A continuation's gathers and withdrawn pushes as a resumption finds them: serials of the core that resumes it. -/
structure Resumed where
  live : List LiveGather
  gidx : List GatherIndex
  rows : List Nat
  gather : Option Gather
  pushes : List (Push × Nat)
  deriving DecidableEq, Repr

/-- A gather under the serials of a core that has opened n. -/
def Gather.renumber (n : Nat) (g : Gather) : Gather := { g with serial := g.serial + n }

/-- The key of a withdrawn push as the core that has opened n gathers offers it again: indices and openings name their gather, an expect or
arrival its object as it translates now (R307). -/
def resumedKey (s : State) (c : CoreId) (n : Nat) (p : Push) (key : Nat) : Nat :=
  if pushMajor p = 0x03 || opensGather p then key + 4096 * n
  else if pushMajor p = 0x09 || pushMajor p = 0x0A then
    match (flatKeyOf s (coreView s c) p.a).1 with | .ok x => x | .error _ => key
  else key

/-- What the save has left aside, where the area still holds what it belongs to. -/
def resumeAside (s : State) (c : CoreId) (x : Aside) : Resumed :=
  let n := (s.core c).gathers
  { live := x.live.map fun l => { l with gather := l.gather.renumber n, reopened := true, opening := none },
    gidx := x.gidx.map fun i => { i with gather := i.gather.renumber n }, rows := x.rows.map fun i => i + n,
    gather := x.gather.map (Gather.renumber n), pushes := x.pushes.map fun p => (p.1, resumedKey s c n p.1 p.2) }

/-- The withdrawn pushes of an area that was edited, from the saved gather on: an opening begins the next one, an index belongs to the
last that was opened. -/
def resumePushes (s : State) (c : CoreId) (frac : Push → Nat) : Option Gather → Nat → List Push → List (Push × Nat) × Option Gather
  | g, _, [] => ([], g)
  | g, n, p :: ps =>
    let g1 : Gather := { tmpl := BitVec.ofNat 8 (fld p.b 8 8), chan := BitVec.ofNat 4 (fld p.b 0 4), ctx := coreCtx s c,
                         gen := coreGen s c, bundle := 0, serial := n + 1 }
    let now := if opensGather p then some g1 else g
    let key := if opensGather p || pushMajor p = 0x03 then (now.map gatherKey).getD 0
      else if pushMajor p = 0x11 then frac p else resumedKey s c 0 p 0
    let r := resumePushes s c frac (if pushMajor p = 0x03 && bit p.b 0 then none else now) (n + 1) ps
    ((p, key) :: r.1, r.2)

/-- Gathers and withdrawn pushes of the save at base (R361, R443): as left aside where the area still holds them, and otherwise as the
area says. -/
def resumed (s : State) (c : CoreId) (base npush grows : Nat) (frac : Push → Nat) : Resumed :=
  let n := (s.core c).gathers
  let g := readGather s base (coreCtx s c) (coreGen s c) (n + 1)
  let images := readItems s (base + 0x12800) 544 npush
  let plain : Resumed :=
    let ps := resumePushes s c frac ((g.1.filter fun l => !l.closed).map LiveGather.gather) (n + 1) (images.map readPush)
    { live := g.1.toList, gidx := g.2, rows := List.replicate grows (n + 1), gather := ps.2, pushes := ps.1 }
  match s.asides.find? fun x => x.base = base with
  | some x =>
    let shape (l : LiveGather) : BitVec 8 × BitVec 4 × Bool := (l.gather.tmpl, l.gather.chan, l.closed)
    let same := x.pushes.map (fun p => pushImage p.1) = images && x.gidx.map GatherIndex.index = g.2.map GatherIndex.index
      && x.rows.length = grows
      && (savedGather { s.core c with gidx := x.gidx, live := x.live, replay := [], rows := x.rows.map fun i => (i, 0) }).map shape = g.1.map shape
    if same then resumeAside s c x else plain
  | none => plain

/-- The bundle at which issue goes on after the sequence that a save has interrupted (R352; log 58). -/
def sequenceReturn (s : State) (base : Nat) (h : SaveHead) : Word :=
  ((s.asides.find? fun e => e.base = base).bind Aside.res).getD h.ypt

/-- RESUMPTION of a forcibly pre-empted or faulted continuation (R361): every part that the header marks is read back,
the pushes that were withdrawn are offered again after the gather's indices, and issue continues at RES. -/
def restoreForced (s : State) (c : CoreId) (base : Nat) (h : SaveHead) : State :=
  let k := readControl s base (s.core c)
  let w65 := readWord s (base + 0x1700 + 8 * 65)
  let regs := { k.regs with
    s := Vector.ofFn fun i : Fin 64 => if i.val = 0 then 0 else readWord s (base + 0x300 + 8 * i.val),
    k := Vector.ofFn fun i : Fin 8 => BitVec.ofNat 512 (readNat s (base + 0x500 + 64 * i.val) 64),
    h := Vector.ofFn fun i : Fin 32 => if i.val = 0 then 0 else
      BitVec.ofNat 704 (readNat s (base + 0x700 + 96 * i.val) 88),
    v := Vector.ofFn fun i : Fin 64 => BitVec.ofNat 4096 (readNat s (base + 0x2000 + 512 * i.val) 512),
    fly := (readItems s (base + 0xA000) 544 (min 64 h.nsnap)).map readSnap }
  let z := readZ s base h.zmap
  let rows := (readItems s (base + 0x25800) 512 (min 16 (fld w65 0 5))).map (BitVec.ofNat 4096)
  let g := resumed s c base (min 128 h.npush) rows.length fun p =>
    (regs.v.toList.getD (vphys regs.rot (BitVec.ofNat 6 (fld p.word 19 6))).toNat 0).toNat
  let mat := { k.mat with z := z.1, zb := z.2, zmap := h.zmap,
                          nb := if h.nbv then readNb s base else [],
                          group := if h.nbv then some (readGroup s base) else none }
  let regs := { regs with gather := g.gather }
  let top := (g.live.map fun l => l.gather.serial) ++ g.pushes.map fun p => if opensGather p.1 then p.2 / 4096 else 0
  s.setCore c { k with
    regs := regs, shadow := { regs := regs, pc := h.res }, pc := h.res, mat := mat, gidx := g.gidx, live := g.live,
    gathers := top.foldl max k.gathers,
    results := (readItems s (base + 0x23800) 512 (min 16 (fld w65 8 5))).map (BitVec.ofNat 4096),
    rows := g.rows.zip rows, gate := g.pushes.map fun p => .push p.1 p.2,
    seqMode := if h.inseq then (if h.rseq then .restore else .save (if h.wkind = 0 then 4 else 3)) else .none,
    scr := h.scr, res := if h.inseq then sequenceReturn s base h else h.res, ypt := h.ypt, aff := h.aff }

/-- The return to a yield or a wait (R352): control block and statistics queue, s60 to s63, then the restore sequence. Every other
register holds what the core's previous continuation has left in it: what the program saved its sequence restores (log 59). -/
def restoreYield (s : State) (c : CoreId) (base : Nat) (h : SaveHead) (e : YieldEntry) (saveFlat : Word) : State :=
  let k := readControl s base (s.core c)
  let regs := k.regs.setScratch (yieldPart saveFlat)
  s.setCore c { k with regs := regs, shadow := { regs := regs, pc := e.rest }, pc := e.rest, seqMode := .restore,
                       scr := h.scr, res := h.res, ypt := h.ypt, aff := h.aff, mat := { k.mat with zmap := h.zmap } }

end Sys2Proof.Machine
end

