-- ==== Sys2Proof/Machine/Rennet.lean ====
section
/-! DEFINITION. Rennet: node records (R13), readiness (R16 to R24), ready queues and their order (R134 to R136), completion
(R23, R24), and the pick-up of a continuation (R26, R355, R361). -/

namespace Sys2Proof.Machine

/-! ### Node records (R13) -/

def readRecord (s : State) (key : Nat) : BitVec 512 := BitVec.ofNat 512 (readNat s key 64)

def nKind (r : BitVec 512) : Nat := fld r 90 2
def nLevel (r : BitVec 512) : Nat := fld r 128 2
def nGroup (r : BitVec 512) : Nat := fld r 136 8
def nPreds (r : BitVec 512) : Nat := fld r 144 16
def nPinit (r : BitVec 512) : Nat := fld r 160 16
def nNsucc (r : BitVec 512) : Nat := fld r 176 16
def nSucc (r : BitVec 512) : Word := BitVec.ofNat 64 (fld r 195 61 * 8)
def nArgs (r : BitVec 512) : Word := BitVec.ofNat 64 (fld r 256 64)
def nSave (r : BitVec 512) : Word := BitVec.ofNat 64 (fld r 328 56 * 256)
def nYseq (r : BitVec 512) : Word := BitVec.ofNat 64 (fld r 389 59 * 32)
def nInst (r : BitVec 512) : Word := BitVec.ofNat 64 (fld r 454 58 * 64)
def nCtx (r : BitVec 512) : BitVec 16 := BitVec.ofNat 16 (fld r 64 16)
def nGen (r : BitVec 512) : BitVec 8 := BitVec.ofNat 8 (fld r 80 8)
def nPrio (r : BitVec 512) : Nat := fld r 88 2
def nState (r : BitVec 512) : Nat := fld r 92 4
def nEntry (r : BitVec 512) : Word := BitVec.ofNat 64 (fld r 5 59 * 32)

/-- A reserved field that is not zero, or a reserved STATE (R8, R14, R317, R342). -/
def recordBroken (r : BitVec 512) : Bool :=
  decide (7 ≤ nState r) || fld r 448 6 ≠ 0 || fld r 192 3 ≠ 0 || fld r 130 6 ≠ 0 || fld r 104 8 ≠ 0
    || (match nKind r with
      | 0 => fld r 384 5 ≠ 0 || fld r 320 8 ≠ 0 || fld r 0 5 ≠ 0
      | 1 => fld r 264 184 ≠ 0
      | 2 => fld r 320 12 ≠ 0 || fld r 256 16 ≠ 0 || fld r 0 3 ≠ 0
      | _ => false)

/-- The towers of a GROUP at levels 0 to 2, none where it is out of range (R16). -/
def groupTower (level g : Nat) : Option TowerId :=
  match level with
  | 0 => if g < 128 then some (towerOf (coreNo g)) else none
  | 1 => if g < 32 then some (clusterTower (clusterNo g)) else none
  | 2 => if g < 4 then some (towerNo g) else none
  | _ => none

/-- The checks of a node that becomes ready (R14, R16, R17, R20, R21), in the order of R393. -/
def nodeFault (s : State) (a : Armed) (r : BitVec 512) (root : Bool) : Option Code :=
  let lv := nLevel r
  let badGroup := lv ≠ 3 && (match groupTower lv (nGroup r) with
    | some t => !bit (ctxTowers s a.ctx) t.val
    | none => true)
  let badLevel := match nKind r with | 0 => false | 1 => decide (lv = 0) | 2 => decide (lv ≠ 2) | _ => true
  if badGroup then some 0x0210
  else if badLevel then some 0x0211
  else if nCtx r ≠ a.ctx || nGen r ≠ a.gen || nInst r ≠ a.hdr then some 0x0212
  else if recordBroken r then some 0x0213
  else if root && nPreds r ≠ 0 then some 0x0214
  else none

/-! ### Rennet's own accesses -/

/-- The memory key of a flat address as Rennet of tower t reads it in a context: a DRAM frame (R38, R140). -/
def rennetKey (s : State) (t : TowerId) (ctx : BitVec 16) (gen : BitVec 8) (a : Word) (n : Nat) :
    Except Code Nat × State :=
  let r := flatKeyOf s (ctxView s t ctx gen) a
  match r.1 with
  | .error _ => r
  | .ok key =>
    if 2 ^ 43 ≤ key then (.error 0x1102, r.2)
    else match poisonOf r.2 key n with
      | some x => (.error x, r.2)
      | none => (.ok key, r.2)

/-- n entries of a root or successor list, each translated on its own (R13, R19). The reserved bits [5:0] of an entry are not looked at:
the spec gives no check of them (DESIGN CHOICE, log 59). -/
def rennetList (t : TowerId) (ctx : BitVec 16) (gen : BitVec 8) (a : Word) : Nat → State → Except Code (List Word) × State
  | 0, s => (.ok [], s)
  | n + 1, s =>
    let r := rennetKey s t ctx gen a 8
    match r.1 with
    | .error x => (.error x, r.2)
    | .ok key =>
      let q := rennetList t ctx gen (a + 8) n r.2
      match q.1 with
      | .error x => (.error x, q.2)
      | .ok ws => (.ok (BitVec.ofNat 64 (readNat r.2 key 8 / 64 * 64) :: ws), q.2)

/-- The source endpoint of Rennet t (R392). -/
def rennetSrc (t : TowerId) : Nat := 132 + t.val

/-- The armed instance whose header is at key, with its home tower. -/
def findArmed (s : State) (key : Nat) : Option (TowerId × Armed) :=
  (List.finRange 4).findSome? fun t => ((s.tower t).armed.find? fun a => a.hdrKey = key).map fun a => (t, a)

/-! ### Ready queues -/

/-- An entry joins its queue, at the tail, or at the head if forced pre-emption places it there (R27, R136): STATE ← 1 or 4 stands
already; a full store and spill ring fault the instance (R135). -/
def pushReady (s : State) (t home : TowerId) (e : ReadyEntry) : State :=
  let w := s.tower t
  if 4096 + 2 ^ 20 ≤ w.ready.length then
    faultInstance s home.val e.instKey 0x0217 e.ctx e.gen (rennetSrc t) e.inst 0
  else s.setTower t { w with ready := if e.head then e :: w.ready else w.ready ++ [e] }

/-- The ready stamp (R135). -/
def stampNow (s : State) : BitVec 32 := s.hub.podTime.setWidth 32

/-- The churn of a level-2 copy: the first cluster of the tower with the fewest copies waiting (R17). -/
def chooseChurn (s : State) (t : TowerId) : ClusterId :=
  let load : Nat → Nat := fun i => ((s.tower t).ready.filter fun e => e.target = .churn (clusterNo (8 * t.val + i))).length
  clusterNo (8 * t.val + (List.range 8).foldl (fun b i => if load i < load b then i else b) 0)

/-- The serving target of a record on its tower (R134, R17). -/
def readyTarget (s : State) (t : TowerId) (r : BitVec 512) : Target :=
  match nKind r, nLevel r with
  | 0, 0 => .core (coreNo (nGroup r))
  | 0, 1 => .cluster (clusterNo (nGroup r))
  | 0, _ => .tower
  | 1, 1 => .churn (clusterNo (nGroup r))
  | 1, 2 => .churn (chooseChurn s t)
  | 1, _ => .hubChurn
  | _, _ => .curd

/-- The tower whose Rennet walks a node (R16): that of its group; of the unit that ran a pod-level one, core or hub Churn of its OWNER;
else its instance's home. -/
def nodeTower (home : TowerId) (r : BitVec 512) (owner : Nat) : TowerId :=
  if nLevel r = 3 then
    (match nKind r with
     | 0 => towerOf (coreNo owner)
     | 1 => if 32 ≤ owner then towerNo (owner - 32) else home
     | _ => home)
  else (groupTower (nLevel r) (nGroup r)).getD home

def mkReady (s : State) (t : TowerId) (a : Armed) (addr : Word) (key : Nat) (r : BitVec 512) : ReadyEntry :=
  { target := readyTarget s t r, prio := BitVec.ofNat 2 (nPrio r), record := addr, recKey := key, inst := a.hdr,
    instKey := a.hdrKey, ctx := a.ctx, gen := a.gen, stamp := stampNow s, head := false, only := none,
    level := BitVec.ofNat 2 (nLevel r) }

/-! ### Completion -/

/-- The completion record of an instance (R23, R315). -/
def instanceRecord (hdr : Word) (armcnt status : Nat) : BitVec 256 :=
  BitVec.ofNat 32 hdr.toNat ++ BitVec.ofNat 32 armcnt ++ (0xFFFF : BitVec 16) ++ BitVec.ofNat 16 status
    ++ (0 : BitVec 16) ++ (0 : BitVec 8) ++ (0xFF : BitVec 8) ++ (0 : BitVec 16) ++ (1 : BitVec 48) ++ (0 : BitVec 48)
    ++ (0 : BitVec 9) ++ (0 : BitVec 6) ++ (1 : BitVec 1)

/-- A RETRY register as it reads: BASE 0 as 16, CAPX 11 to 15 as 10 (R150). -/
def retryRead (retry : Word) : Word :=
  setFld (if fld retry 0 16 = 0 then setFld retry 0 16 16 else retry) 20 4 (min 10 (fld retry 20 4))

/-- The wait after the n-th consecutive NAK of an entry (R150). -/
def backoff (retry : Word) (n : Nat) : Nat := fld (retryRead retry) 0 16 * 2 ^ min (n - 1) (fld (retryRead retry) 20 4)

/-- A flat address lies in a range whose handover is in progress: the walker holds the request (R401). -/
def awaitsHandover (s : State) (v : View) (a : Word) : Bool :=
  match (resolveFlat s v (fld a 16 48)).1 with | .transit => true | _ => false

/-- The ring of a record, or its next slot, is in a handover (R401). -/
def offerWaits (s : State) (t : TowerId) (x : Offer) : Bool :=
  let v := ctxView s t x.ctx x.gen
  awaitsHandover s v x.ring || match (rennetKey s t x.ctx x.gen x.ring 32).1 with
    | .ok key => awaitsHandover s v (x.ring + BitVec.ofNat 64 (ringNext s key))
    | .error _ => false

/-- Rennet keeps a record to offer it later. -/
def keepOffer (s : State) (t : TowerId) (x : Offer) : State :=
  s.setTower t { (s.tower t) with offers := (s.tower t).offers ++ [x] }

/-- Rennet offers a record to its ring: an unusable ring is reported with 0x4023, one without slots with 0x4022, a full one is offered
the record again after the back-off, and one in a handover once that is settled (R23, R314, R316, R401). -/
def offerRecord (s : State) (t : TowerId) (x : Offer) : State :=
  if offerWaits s t x then keepOffer s t x
  else
    let report (st : State) (code : Code) : State := faultRecord st t.val code x.ctx x.gen (rennetSrc t) x.ring x.hdr
    match rennetKey s t x.ctx x.gen x.ring 32 with
    | (.error _, s1) => report s1 0x4023
    | (.ok key, s1) =>
      let slot := rennetKey s1 t x.ctx x.gen (x.ring + BitVec.ofNat 64 (ringNext s1 key)) 0
      match ringPut slot.2 key slot.1.toOption x.entry with
      | .taken s2 => (ringVectors s2 key).foldl raise s2
      | .noSlots => report slot.2 0x4022
      | .unusable => report slot.2 0x4023
      | .full s2 => keepOffer s2 t { x with naks := x.naks + 1, held := s2.clk + backoff (s2.tower t).retry (x.naks + 1) }

/-- The record of an instance is offered to the ring that its header names, if any (R23). -/
def offerInstance (s : State) (t : TowerId) (a : Armed) (status : Nat) : State :=
  let ring := headerRing s a.hdrKey
  if ring = 0 then s
  else offerRecord s t { ring := ring, hdr := a.hdr, ctx := a.ctx, gen := a.gen, naks := 0, held := s.clk,
                         entry := instanceRecord a.hdr (headerArmcnt s a.hdrKey) status }

/-- A lockstep instance whose header is among gone ends with the frame in progress, or without one before its T0 (R163). -/
def endLockstep (time : Word) (gone : List Nat) (l : Lockstep) : Option Lockstep :=
  if gone.contains l.key && l.last.isNone then
    if time.ult l.launch.t0 then none
    else some { l with last := some ((time - l.launch.t0).toNat / 2 ^ l.launch.flen.toNat) }
  else some l

/-- The armed entries of tower t that p names leave, and a lockstep instance among them ends. -/
def disarm (s : State) (t : TowerId) (p : Armed → Bool) : State :=
  let w := s.tower t
  let gone := (w.armed.filter p).map Armed.hdrKey
  let s1 := s.setTower t { w with armed := w.armed.filter fun a => !p a }
  if s.hub.lockstep.isEmpty then s1 else s1.mapHub fun h => { h with lockstep := h.lockstep.filterMap (endLockstep h.podTime gone) }

/-- INSTANCE_COMPLETE (R23, R394): STATE ← 0 and the completion record with STATUS = FAULT. The completion of another
device's record goes back to it instead (R181). -/
def instanceComplete (s : State) (t : TowerId) (a : Armed) : State :=
  let s1 := setHeaderState s a.hdrKey 0
  if a.origin.isSome then s1
  else
    let s2 := offerInstance s1 t a (headerFault s1 a.hdrKey)
    disarm s2 t fun x => x.hdrKey = a.hdrKey

/-- REMAIN falls by one (R23). An abandoned instance ends by R396. -/
def countDown (s : State) (t : TowerId) (a : Armed) : State :=
  let n := headerRemain s a.hdrKey
  let s1 := setHeaderRemain s a.hdrKey (n - 1)
  if n = 1 && headerState s1 a.hdrKey ≠ 3 then instanceComplete s1 t a else s1

/-- The record returns to its recorded state (R15). -/
def restoreRecord (s : State) (key : Nat) : State :=
  let r := readRecord s key
  let s1 := writeNat s (key + 18) 2 (nPinit r)
  setRecordFault (leaveRecord s1 key 0) key 0

/-- What follows the last successor of a node: its record is restored, unless it was discarded, and REMAIN counts down. -/
def finishNode (s : State) (t : TowerId) (a : Armed) (recKey : Nat) (discarded : Bool) : State :=
  countDown (if discarded then s else restoreRecord s recKey) t a

/-- Marks of a decrement's occasion: the last successor of a node, and a node that was discarded. -/
def lastMark : Nat := 1
def discardMark : Nat := 2

/-- The occasion of a decrement (R24): the tower of the Rennet that walks the list, the header's key, the successor's address, the finished record's
key, and in extra the marks, the context and whether a node finishes with it. -/
def decrementOccasion (t : TowerId) (a : Armed) (succ : Word) (recKey : Nat) (marks : Nat) : Occasion :=
  { Occasion.none with tower := t, unit := a.hdrKey, addr := succ, value := BitVec.ofNat 64 recKey,
                       extra := BitVec.ofNat 64 marks }

/-- A node completes, or is discarded: the Rennet of the node's tower walks its successors in list order, the last of them with what
follows (R16, R24); without successors that follows at once. An NSUCC above 1,024 is walked as given: the spec gives its range and no
behaviour beyond it (DESIGN CHOICE, log 59). -/
def completeNode (s : State) (t : TowerId) (a : Armed) (recKey : Nat) (discarded : Bool) : State :=
  let r := readRecord s recKey
  let w := nodeTower t r (fld r 96 7)
  let n := nNsucc r
  let dm := if discarded then discardMark else 0
  if n = 0 then finishNode s t a recKey discarded
  else
    let k := rennetList w a.ctx a.gen (nSucc r) n s
    match k.1 with
    | .error x => finishNode (faultInstance k.2 t.val a.hdrKey x a.ctx a.gen (rennetSrc w) a.hdr 0) t a recKey discarded
    | .ok succs =>
      (succs.zip (List.range n)).foldl (fun st e =>
        st.due .successorDecrement
          (decrementOccasion w a e.1 recKey (if e.2 + 1 = n then lastMark + dm else dm))) k.2

/-! ### Readiness -/

/-- A record that cannot be run because its generation is stale, or whose instance was killed, takes STATE 6 and counts
as completed (R20). -/
def discardNode (s : State) (t : TowerId) (a : Armed) (recKey : Nat) : State :=
  completeNode (leaveRecord s recKey 6) t a recKey true

/-- A record of an instance of home tower t becomes ready at the Rennet of tower w, which forwards it to that of its own tower, where
it is checked (R16 to R21, R24): discarded if it is of its instance's generation and that
is stale, faulted if it breaks a check (another GEN than its instance's among them; log 27), placed on another tower or device if it is pod-level (R18, R181), or queued with STATE ← 1. -/
def makeReady (s : State) (t w : TowerId) (a : Armed) (addr : Word) (root : Bool) : State :=
  let k := rennetKey s w a.ctx a.gen addr 64
  match k.1 with
  | .error x => faultInstance k.2 t.val a.hdrKey x a.ctx a.gen (rennetSrc w) addr 0
  | .ok key =>
    let s1 := k.2
    let r := readRecord s1 key
    if !ctxCurrent s1 a.ctx a.gen && nCtx r = a.ctx && nGen r = a.gen then discardNode s1 t a key
    else match nodeFault s1 a r root with
      | some x =>
        faultNode s1 t.val key a.hdrKey x a.ctx a.gen (rennetSrc ((groupTower (nLevel r) (nGroup r)).getD w)) addr 0
      | none =>
        if nLevel r = 3 then
          s1.due .podRecordForward { Occasion.none with tower := t, unit := key, addr := addr,
                                                        value := BitVec.ofNat 64 a.hdrKey }
        else
          let own := (groupTower (nLevel r) (nGroup r)).getD w
          let s2 := setRecordState s1 key 1 false 0
          pushReady s2 own t (mkReady s2 own a addr key r)

/-! ### Choosing a record (R136) -/

/-- The instance of an entry may run: armed, and not held or killed (R394). -/
def entryLive (s : State) (e : ReadyEntry) : Bool := headerState s e.instKey = 1

/-- The deterministic instance whose partition holds core c, if any (R156). -/
def partitionOf (s : State) (c : CoreId) : Option Nat :=
  (List.finRange 4).findSome? fun t =>
    ((s.tower t).armed.find? fun a => a.launch.det && bit a.part c.val).map Armed.hdrKey

/-- Core c serves the entry's queue and may run it (R134, R136, R156, R359). -/
def coreMayRun (s : State) (c : CoreId) (e : ReadyEntry) : Bool :=
  (match e.target with
    | .core d => d = c
    | .cluster x => x = clusterOf c
    | .tower => true
    | _ => false)
  && entryLive s e
  && (match e.only with | some d => d = c | none => true)
  && (match partitionOf s c with | some k => k = e.instKey | none => true)

/-- Of the entries that a unit may run, the first of each queue: the ready store holds the entries of a queue in the queue's order
(R134, R136). -/
def queueHeads : List (Target × BitVec 2) → List ReadyEntry → List ReadyEntry
  | _, [] => []
  | seen, e :: es =>
    if seen.contains (e.target, e.prio) then queueHeads seen es else e :: queueHeads ((e.target, e.prio) :: seen) es

/-- e stands before f among the candidates of one unit: priority, a head placed by forced pre-emption, the older stamp,
the lower level; equal entries keep their order of arrival (R29, R136). -/
def standsBefore (s : State) (e f : ReadyEntry) : Bool :=
  let age : ReadyEntry → Nat := fun x => (stampNow s - x.stamp).toNat
  if e.prio ≠ f.prio then decide (f.prio.toNat < e.prio.toNat)
  else if e.head ≠ f.head then e.head
  else if age e ≠ age f then decide (age f < age e)
  else decide (e.level.toNat < f.level.toNat)

/-- The best entry of a list under standsBefore, the first of equals. -/
def bestEntry (s : State) : List ReadyEntry → Option ReadyEntry
  | [] => none
  | e :: es => match bestEntry s es with
    | some f => if standsBefore s f e then some f else some e
    | none => some e

/-- The ready-queue entry of a record that was running (R27, R359). -/
def Running.entry (r : Running) (only : Option CoreId) : ReadyEntry :=
  { target := match r.level.toNat with
      | 0 => .core (coreNo r.group.toNat)
      | 1 => .cluster (clusterNo r.group.toNat)
      | _ => .tower,
    prio := r.prio, record := r.record, recKey := r.recKey, inst := r.inst, instKey := r.instKey, ctx := r.ctx,
    gen := r.gen, stamp := r.stamp, head := false, only := only, level := r.level }

/-- The record that R136 chooses for core c. -/
def chooseFor (s : State) (c : CoreId) : Option ReadyEntry :=
  bestEntry s (queueHeads [] ((s.tower (towerOf c)).ready.filter (coreMayRun s c)))

/-- A core is idle: nothing runs, and no staging has reserved it (R146). -/
def coreIdle (s : State) (c : CoreId) : Bool :=
  (s.core c).run.isNone && !((s.tower (towerOf c)).staging.any fun g => g.core = c)

/-- A cluster that waits for a change of fusion takes no continuation (R138). -/
def fusionWaits (s : State) (x : ClusterId) : Bool :=
  match (s.cluster x).fuseReq with
  | some b => b ≠ (s.cluster x).fused
  | none => false

/-- A core takes its place among idle cores: after those idle at least as long. -/
def insertIdle (s : State) (c : CoreId) : List CoreId → List CoreId
  | [] => [c]
  | d :: ds => if (s.core d).idleSince ≤ (s.core c).idleSince then d :: insertIdle s c ds else c :: d :: ds

/-- Idle cores of a cluster, longest idle first, then the lowest number (R142). -/
def idleOrder (s : State) (x : ClusterId) : List CoreId :=
  ((clusterCores x).filter (coreIdle s)).foldl (fun acc c => insertIdle s c acc) []

/-- The core that Rennet dispatches to next: clusters in rotation, one later each clk (R142). -/
def dispatchCore (s : State) (t : TowerId) : Option CoreId :=
  (List.range 8).findSome? fun i =>
    let x := clusterNo (8 * t.val + (s.clk + i) % 8)
    if fusionWaits s x then none else (idleOrder s x).find? fun c => (chooseFor s c).isSome

/-- An entry leaves its queue. -/
def dropReady (s : State) (t : TowerId) (e : ReadyEntry) : State :=
  let w := s.tower t
  s.setTower t { w with ready := eraseFirst (fun x => x = e) w.ready }

/-! ### The save area (R355) -/

/-- SAVE a multiple of 64 KiB, its first tile a KIND 2 tile of the core's tower with WR = 1, and 40 frames there. -/
def saveAreaKey (s : State) (c : CoreId) (ctx : BitVec 16) (gen : BitVec 8) (save : Word) : Option Nat × State :=
  let t := towerOf c
  let r := resolveFlat s (ctxView s t ctx gen) (fld save 16 48)
  match r.1 with
  | .ok e =>
    if fld save 0 16 = 0 && (entryFault s e).isNone && tteKind e = 2 && fld e 32 2 = t.val && tteWr e
        && decide (tteFrame e % 2 ^ 21 + 40 ≤ dramFrames) then (some (tteKey s e 0), r.2)
    else (none, r.2)
  | _ => (none, r.2)

/-! ### Pick-up (R26) -/

/-- The core's copy of the binding table (R265): entries that cannot be read stand as invalid. -/
def loadBinds (s : State) (c : CoreId) (ctx : BitVec 16) (gen : BitVec 8) : Vector (BitVec 256) 64 :=
  match (flatKeyOf s (ctxView s (towerOf c) ctx gen) (ctxWord s ctx 256)).1 with
  | .ok key => Vector.ofFn fun i : Fin 64 =>
      match poisonOf s (key + 32 * i.val) 32 with
      | some _ => 0
      | none => BitVec.ofNat 256 (readNat s (key + 32 * i.val) 32)
  | .error _ => Vector.replicate 64 0

/-- The full acquire of a pick-up, with the lines tagged invariant where INST has changed (R73). -/
def pickupAcquire (s : State) (c : CoreId) (inst : Word) : State :=
  let s1 := fullAcquire s c
  if (s.core c).lastInst = inst then s1
  else (l1Cores s1 c).foldl (fun st o => dropLines st o fun l => l.inv) s1

/-- Claim of the record and load of the context's control registers (R26, R51). -/
def claim (s : State) (c : CoreId) (e : ReadyEntry) (a : Armed) (home : TowerId) (r : BitVec 512) (saveKey : Nat) :
    State :=
  let s1 := setRecordState s e.recKey 2 true c.val
  let k := s1.core c
  let w : Nat → Word := ctxWord s1 e.ctx
  let run : Running :=
    { record := e.record, recKey := e.recKey, inst := e.inst, instKey := e.instKey, ctx := e.ctx, gen := e.gen,
      level := e.level, group := BitVec.ofNat 8 (nGroup r), prio := e.prio, yseq := nYseq r, saveKey := saveKey,
      saveFlat := nSave r, home := home, stamp := e.stamp, pickup := s.clk, launch := a.launch,
      preemptor := k.preRbank }
  let s2 := s1.setCore c { k with
    run := some run, flatb := w 128, rngt := w 192, bindb := w 256, cirt := w 320, podgb := w 384, tmplb := w 448,
    binds := loadBinds s1 c e.ctx e.gen, returns := [], preRbank := none, lastc := 0, current := none, stall := none,
    group := [], loads := [], gate := [], freed := 0 }
  let s3 := pickupAcquire s2 c e.inst
  s3.setCore c { (s3.core c) with lastInst := e.inst }

/-- First pick-up (R26): s1 ARGS, s2 the record, s3 INST, everything else zero; issue begins at ENTRY. Answers of a walker to
an earlier run of the record are forgotten. -/
def firstRun (s0 : State) (c : CoreId) (e : ReadyEntry) (r : BitVec 512) : State :=
  let s := { s0 with towers := s0.towers.map fun w => { w with answers := w.answers.filter fun a => a.1 ≠ e.record } }
  let k := s.core c
  let regs := { Regs.zero with
    s := ((Regs.zero.s.set 1 (nArgs r)).set 2 e.record).set 3 e.inst,
    srseed := ctxWord s e.ctx 512, statq := setFld (ctxWord s e.ctx 576) 0 7 0, statw := ctxWord s e.ctx 640 }
  s.setCore c { k with
    regs := regs, shadow := { regs := regs, pc := nEntry r }, pc := nEntry r, held := 0, hmode := 0, aff := false,
    seqMode := .none, stats := [], statOvf := false,
    mat := { k.mat with z := [], zb := [], zmap := 0, nb := [], group := none, ran := false } }

/-- A record that cannot be dispatched: the Rennet of tower t faults the node and the core stays idle (R391, R393). -/
def refusePickup (s : State) (t home : TowerId) (e : ReadyEntry) (code : Code) : State :=
  faultNode s home.val e.recKey e.instKey code e.ctx e.gen (rennetSrc t) e.record 0

/-- PICK_UP (R26, R352, R361) of the entry by core c: 0x0213 for a record that cannot be read as one, 0x021A for its save
area, 0x021B for a resumption that has nothing to resume. -/
def pickUp (s : State) (c : CoreId) (e : ReadyEntry) (staged : Bool) : State :=
  match findArmed s e.instKey with
  | none => leaveRecord s e.recKey 6
  | some (home, a) =>
    let r := readRecord s e.recKey
    if !ctxCurrent s e.ctx e.gen then discardNode s home a e.recKey
    else if recordBroken r then refusePickup s (towerOf c) home e 0x0213
    else
      let sv := saveAreaKey s c e.ctx e.gen (nSave r)
      match sv.1 with
      | none => refusePickup sv.2 (towerOf c) home e 0x021A
      | some base =>
        if nState r = 4 then
          let h := readHead sv.2 base
          if resumptionFails sv.2 base h || h.skind = 0 || decide (3 < h.skind) || decide (6 < h.wkind) then
            refusePickup sv.2 (towerOf c) home e 0x021B
          else
            let s1 := claim sv.2 c e a home r base
            if h.skind = 1 then emptyGate (restoreForced s1 c base h) c
            else match yieldEntry s1 (coreView s1 c) (nYseq r) h.ypt with
              | some y => restoreYield s1 c base h y (nSave r)
              | none => refusePickup (goIdle s1 c) (towerOf c) home e 0x021B
        else
          let s1 := firstRun (claim sv.2 c e a home r base) c e r
          if staged then s1.setCore c { (s1.core c) with aff := true } else s1

end Sys2Proof.Machine
end

