-- ==== Sys2Proof/Machine/Bundles.lean ====
section
/-! DEFINITION. Bundles between entry and commit: fetch (R187, R383), entry with its marks (R152, R213, R215, R216, R291),
landing (R206), stamps (R158), commit with loop-backs (R211, R229), and the faults that end it (R383, R387). -/

namespace Sys2Proof.Machine

/-! ### Fetch -/

/-- How a fetch ends: the word; a code; the range is in transit (R401); or the tile cache misses, and the fetch is held (R49). -/
inductive Fetched where
  | ok (w : BitVec 256)
  | fault (c : Code)
  | transit
  | miss
  deriving DecidableEq, Repr

/-- The 32 bytes at bundle address pc in the flat view of core c's context, through the tile cache. -/
def fetchBundle (s : State) (c : CoreId) (pc : Word) : Fetched × State :=
  let v := coreView s c
  let r := lookupFlat s v (some c) 0 (fld pc 16 48)
  (match reachOf r.1 with
   | .ok e =>
     match entryFault s e with
     | some x => .fault x
     | none =>
       if !reaches c e then .fault 0x1204
       else if lostBank s e then .fault 0x2111
       else if tteKind e = 3 && !s.hub.cxlUp then .fault 0x6001
       else
         let key := tteKey s e (fld pc 0 16)
         match poisonOf s key 32 with
         | some x => .fault x
         | none => .ok (BitVec.ofNat 256 (readNat s key 32))
   | .fault x => .fault x
   | .transit => .transit
   | .miss => .miss, r.2)

/-! ### The loop buffer (R154) -/

/-- The first bundle of the body of at most 32 bundles, the top entry's of the loop stack, that the bundle at pc lies in. -/
def loopBody (r : Regs) (pc : Word) : Option Word :=
  let i := loopDepth r - 1
  if 0 < loopDepth r && decide (lcntLen (loopCnt r i) ≤ 32) && inBody r i pc then
    some (BitVec.ofNat 64 ((loopAdd r i).toNat / 32 * 32))
  else none

/-- The bundle at pc as the loop buffer holds it. -/
def bufferedBundle (k : Core) (pc : Word) : Option (BitVec 256) :=
  match k.loopBuf with
  | some b => if loopBody k.regs pc = some b.first && !b.off then (b.words.find? fun x => x.1 = pc).map Prod.snd else none
  | none => none

/-- A bundle that the front end has read is captured where it lies in the body of the top loop. -/
def capture (k : Core) (pc : Word) (w : BitVec 256) : Core :=
  match loopBody k.regs pc with
  | none => k
  | some first => match k.loopBuf with
    | some b =>
      if b.first = first then (if b.off then k else { k with loopBuf := some { b with words := (pc, w) :: b.words } })
      else { k with loopBuf := some { first := first, off := false, words := [(pc, w)] } }
    | none => { k with loopBuf := some { first := first, off := false, words := [(pc, w)] } }

/-- The bundle at core c's pc: from the loop buffer, or read by the front end. -/
def nextBundle (s : State) (c : CoreId) : Fetched × State :=
  let k := s.core c
  match bufferedBundle k k.pc with
  | some w => (.ok w, s)
  | none =>
    let f := fetchBundle s c k.pc
    (f.1, match f.1 with | .ok w => f.2.setCore c (capture (f.2.core c) k.pc w) | _ => f.2)

/-- What a committed bundle means for the loop buffer: a loop begins with an empty one, and a body with a taken branch of its own runs
from the front end. -/
def bufferAfter (k : Core) (cur : Current) : Option LoopBuffer :=
  match cur.bundle.slots.getD 0 none with
  | some (.cLoop _) | some (.cNest _) => none
  | _ => match (if cur.taken then loopBody cur.pre cur.pc else none) with
    | some first => some { first := first, off := true, words := [] }
    | none => k.loopBuf

/-! ### What a bundle holds -/

def bundleInstrs (b : Bundle) : List Instr := b.slots.filterMap id

/-- A use of an atomic that returns a value: 0, 1, 3, 5 (R78, R262). -/
def usesReturn (use : BitVec 3) : Bool := use = 0 || use = 1 || use = 3 || use = 5

/-- The declared use and fields of an atomic. -/
def atomicUse (i : Instr) : Option (BitVec 3) :=
  match i with
  | .wAadd _ u | .wAand _ u | .wAor _ u | .wAxor _ u | .wAmin _ u | .wAmax _ u | .wAminu _ u | .wAmaxu _ u
  | .wAswp _ u | .wAcas _ u | .wArd _ u => some u
  | _ => none

/-- A pop (R215). -/
def isPop (i : Instr) : Bool :=
  match i with
  | .lGpop _ | .eCpop _ | .eCqpop _ | .eRecv _ | .cSpop _ => true
  | _ => false

/-- A run, m.swap, m.prom, m.zclr (R291). -/
def isMatrixHeld (i : Instr) : Bool :=
  match i with
  | .mRun8 _ | .mRun4 _ | .mRunt _ | .mSwap _ | .mProm _ | .mZclr _ => true
  | _ => false

/-- A register of core c as the program order has it, for a selector that decides whether a mark stands here. -/
def Core.scalarNow (k : Core) (x : Fin 8) (n : BitVec 6) : Word :=
  if n = 63 then k.regs.bcValue else (k.regs.seen x (.s n)).setWidth 64

/-- An abandoning drain or a clearing clip read (R291). -/
def isClearing (k : Core) (i : Instr) : Bool :=
  match i with
  | .mDrain o => bit (k.scalarNow 6 o.a) 8
  | .mClip o => bit (k.scalarNow 6 o.a) 9
  | _ => false

/-- A write of the binding table and a request for calibration: they take effect as their bundle commits, and no mark brackets them
(R12, R124, R265). -/
def isLate (i : Instr) : Bool :=
  match i with
  | .wBind _ | .mCal _ => true
  | _ => false

/-- An operation that is performed only once every other entry of its bundle has passed its fault point (R215, R291,
R328). -/
def isHeld (k : Core) (i : Instr) : Bool :=
  (match atomicUse i with | some u => usesReturn u | none => false)
  || (match i with | .wAcq _ | .wRel _ | .wRacq _ | .wRrel _ | .eBarm _ | .eDone _ => true | _ => false)
  || isMatrixHeld i || isClearing k i || isLate i

/-- A bundle that implicit marks bracket (R215, R291). -/
def isBracketed (k : Core) (b : Bundle) : Bool :=
  (bundleInstrs b).any fun i => isPop i || (isHeld k i && !isLate i && (match i with | .eDone _ => false | _ => true))

/-- A wait (R233). -/
def isWait (i : Instr) : Bool :=
  match i with
  | .cWaitb _ | .cWaitr _ | .cWaitq _ | .cWaitt _ => true
  | _ => false

/-- An instruction that performs a full release where it stands (R60, R73). -/
def isRelease (i : Instr) : Bool :=
  match i with
  | .wFrel _ | .wFall _ | .cHalt _ | .eDone _ => true
  | _ => false

/-- Gate stores and pushes that a bundle may make (R214). -/
def bundleStores (b : Bundle) : Nat :=
  ((bundleInstrs b).filter fun i => match i with
    | .wSte _ | .wStv _ | .xBpt _ => true
    | j => match atomicUse j with | some u => u = 2 || u = 4 | none => false).length
def bundlePushes (b : Bundle) : Nat :=
  ((bundleInstrs b).filter fun i => match i with
    | .eCpush _ | .eGidx _ | .eBexp _ | .eBarv _ | .eCq _ | .eCqi _ | .eOsend _ | .eUsend _ | .eCsend _ | .eSpawn _
    | .eDec _ | .eArm _ | .ePrime _ => true
    | _ => false).length

/-- A restart mark stands before the bundle (R60, R213, R215, R216, R291); the first bundle after a pick-up has one, so
that pushes offered again at the resumption stand before it (R361). -/
def wantsMark (k : Core) (b : Bundle) : Bool :=
  b.mark || isBracketed k b || k.lastc = 0
    || ((bundleInstrs b).any isRelease && !k.gate.isEmpty)
    || decide (256 < gateStores k + bundleStores b) || decide (64 < gatePushes k + bundlePushes b)

/-- A control-transfer bundle (R225). -/
def isTransfer (i : Instr) : Bool :=
  match i with
  | .cBr _ | .cBsz _ | .cBsnz _ | .cCall _ | .cJr _ | .cCallr _ | .cRet _ | .cLoop _ | .cNest _ | .cTrap _ | .cHalt _ => true
  | _ => false

/-- The bundle ends its instruction group (R202). -/
def endsGroup (b : Bundle) : Bool :=
  b.stop || b.sync || b.yld || b.stamp.isSome || (bundleInstrs b).any isTransfer

/-! ### Entry (R152) -/

/-- A bundle in progress with nothing issued. -/
def newCurrent (k : Core) (pc : Word) (b : Bundle) : Current :=
  { pc := pc, bundle := b, left := (List.finRange 8).filter fun x => (b.slots.getD x.val none).isSome, stampWait := false,
    pre := k.regs,
    gateLen := k.gate.length, faults := [], preGroup := k.group, flags := 0, next := pc + 32, taken := false,
    crWrites := [], pops := [], acquire := false, cIdle := (b.slots.getD 0 none).isNone, bracketed := isBracketed k b, ending := .goOn }

/-- The bundle of a pattern that is not an instruction: no entry issues (R378). -/
def brokenBundle : Bundle :=
  { stop := true, sync := false, mark := false, yld := false, stamp := none, bcast := false, slots := [] }

/-- The faults of the encoding check (R378). -/
def encodingFaults (codes : List (Option EncCode)) : List (Fin 8 × Code × Word) :=
  (List.finRange 8).filterMap fun x => (codes.getD x.val none).map fun y => (x, y, 0)

/-- What the front end finds wrong with a bundle of a deterministic partition: a first bundle at ENTRY without a stamp
(0x0303, R389), a YIELD bundle (0x0311, R390). -/
def detFault (s : State) (c : CoreId) (b : Bundle) : List (Fin 8 × Code × Word) :=
  if !detCore s c then []
  else if (s.core c).lastc = 0 && b.stamp.isNone then [(0, 0x0303, 0)]
  else if b.yld then [(3, 0x0311, 0)]
  else []

/-- BUNDLE_ENTRY: the bundle at the core's pc enters the slot queues. Results whose distance has run out are due to land,
and a mark that stands before the bundle is due. A fetch that the walker refuses ends the continuation with FKIND 1 and
the boundary before the bundle (R383). -/
def enterBundle (s : State) (c : CoreId) : State :=
  let k := s.core c
  match k.run, k.current with
  | some _, none =>
    let f := nextBundle s c
    match f.1 with
    | .transit => waitTransit f.2 c 0 (layoutInfo 0 0 0 0 (fld k.pc 16 24))
    | .miss => f.2
    | .fault x => takeFault f.2 c (FaultInfo.plain 1 x (layoutInfo 0 0 0 0 (fld k.pc 16 24)) k.pc)
    | .ok w =>
      let s1 := dropWalked f.2 (towerOf c) (c.val % 32)
      let k := s1.core c
      match decodeBundle w with
      | .error codes =>
        s1.setCore c { k with current := some { newCurrent k k.pc brokenBundle with faults := encodingFaults codes } }
      | .ok b =>
        let df := detFault s1 c b
        let cur := { newCurrent k k.pc b with faults := df }
        let cur1 := if df.isEmpty then { cur with stampWait := b.stamp.isSome && detCore s1 c } else { cur with left := [] }
        let regs := if b.yld && k.seqMode = .none then landEverything k.regs else k.regs.pass
        let s2 := s1.setCore c { k with current := some cur1, regs := regs }
        let s3 := if wantsMark k b then s2.due .restartMarkEstablish (onCore c) else s2
        if regs.fly.any fun x => x.rem = 0 then s3.due .resultLand (onCore c) else s3
  | _, _ => s

def execBundleEntry (s : State) : Out := .next (enterBundle s s.now.core)

/-- RESULT_LAND (R206): results of core c whose distance has run out are seen from now on. -/
def execResultLand (s : State) : Out := .next (s.mapRegs Regs.landDue)

/-- RESTART_MARK_ESTABLISH (R213). -/
def execRestartMarkEstablish (s : State) : Out := .next (establishMark s s.now.core)

/-- The clks, modulo 2^31, to the stamp that the bundle in progress of core c waits for (R158). -/
def stampDistance (s : State) (c : CoreId) : Option Nat :=
  match (s.core c).current with
  | none => none
  | some cur => match cur.stampWait, cur.bundle.stamp with
    | true, some st => some (st - (schedClock s c).setWidth 31).toNat
    | _, _ => none

/-- STAMP_DUE (R158, R389): the stamp that the bundle in progress waits for. A stamp that has been overrun faults; at the clk
at which SCLK[30:0] = S the bundle may issue; before that it waits on. Whether a late bundle was held by a dependence at its
stamp (0x0302) or became eligible after it (0x0301) depends on timing that the model leaves free where results are in flight
(log 5). -/
def stampDue (s : State) (c : CoreId) : State :=
  match stampDistance s c with
  | none => s
  | some d =>
    if 2 ^ 30 ≤ d then
      let sclk := schedClock s c
      let st : BitVec 31 := sclk.setWidth 31 + BitVec.ofNat 31 d
      let code : Code := if !(s.core c).regs.fly.isEmpty && Config.raceChoice s.freeN then 0x0302 else 0x0301
      let info : Word := BitVec.ofNat 32 sclk.toNat ++ (0 : BitVec 1) ++ st
      s.setCore c ((s.core c).mapCurrent fun q =>
        { q with left := [], stampWait := false, faults := q.faults ++ [(0, code, info)] })
    else if d = 0 then s.setCore c ((s.core c).mapCurrent fun q => { q with stampWait := false })
    else s

def execStampDue (s : State) : Out := .next (stampDue s s.now.core)

/-! ### Control registers at the commit (R236) -/

/-- The access masks of a control register: RW bits and W1C bits (R7, R237). -/
def crMasks (n : Nat) : Word × Word :=
  if n = 0x004 then (0x3F0000, 0x3F)
  else if n = 0x005 then (0x1F07, 0)
  else if n = 0x006 then (0xFCFBF13F, 0)
  else if n = 0x007 || n = 0x008 then (BitVec.allOnes 64, 0)
  else if n = 0x009 then (0xF0FFFF, 0)
  else if n = 0x00A || n = 0x00B then (BitVec.ofNat 64 (2 ^ 64 - 31), 0)
  else if n = 0x00D then (BitVec.ofNat 64 (2 ^ 64 - 128), 0x40)
  else if n = 0x00E then (BitVec.allOnes 64, 0)
  else if n = 0x011 then (0, 0xFFFFFFFFFFFF)
  else if n = 0x019 then (0x7, 0)
  else if 0x01C ≤ n && n < 0x020 then (BitVec.ofNat 64 (2 ^ 64 - 4096), 0)
  else if 0x020 ≤ n && n < 0x024 then (BitVec.ofNat 64 (2 ^ 64 - 32), 0)
  else if 0x028 ≤ n && n < 0x02E then (BitVec.allOnes 64, 0)
  else if 0x040 ≤ n && n < 0x060 then (0xFFFF, 0)
  else (0, 0)

/-- CLIPS: bit 12t + q where a column of macro q of the tier at K position t has clipped (R123). -/
def clipsValue (s : State) (c : CoreId) : Word :=
  let map := (s.tower (towerOf c)).tiers.map
  let flags := (s.core c).mat.clip
  (List.range 48).foldl (fun acc i =>
    let tier := (map.toList.getD (i / 12) 0).toNat
    let lo := tier * 3072 + i % 12 * 256
    if flags.any fun e => decide (lo ≤ e.1) && decide (e.1 < lo + 256) then setBit acc i true else acc) 0

/-- FRAME (R157). -/
def frameValue (s : State) (c : CoreId) : Word :=
  match (s.core c).run with
  | some r =>
    if r.launch.det then
      let sclk := schedClock s c
      let fl := r.launch.flen.toNat
      let before := sclk.toNat ≥ 2 ^ 63
      BitVec.ofNat 32 (if before then 0 else sclk.toNat / 2 ^ fl) ++ (0 : BitVec 3) ++ r.launch.flen ++ (0 : BitVec 4)
        ++ BitVec.ofNat 20 (if before then 0 else sclk.toNat % 2 ^ fl)
    else 0
  | none => 0

/-- A control register as it stands (R237). -/
def readCr (s : State) (c : CoreId) (n : Nat) : Word :=
  let k := s.core c
  let r := k.regs
  match n with
  | 0x000 => (0 : BitVec 33) ++ BitVec.ofNat 7 c.val ++ coreCtx s c ++ coreGen s c
  | 0x001 => BitVec.ofNat 64 s.clk
  | 0x002 => s.hub.podTime
  | 0x003 => frameValue s c
  | 0x004 => r.nflags | 0x005 => r.rotNext.getD r.rot | 0x006 => r.xmode | 0x007 => r.srseed | 0x008 => r.srstr
  | 0x009 => retryRead k.retry
  | 0x00A => r.trapv | 0x00B => r.tret | 0x00C => r.targ
  | 0x00D => statqValue k
  | 0x00E => r.statw
  | 0x00F => k.mat.fold
  | 0x010 => splitValue s c
  | 0x011 => clipsValue s c
  | 0x012 => k.held | 0x013 => k.hmode
  | 0x014 => k.flatb | 0x015 => k.rngt | 0x016 => k.bindb | 0x017 => k.cirt | 0x018 => k.podgb
  | 0x019 => r.ldep
  | _ =>
    if 0x01C ≤ n && n < 0x020 then loopCnt r (n - 0x01C)
    else if 0x020 ≤ n && n < 0x024 then loopAdd r (n - 0x020)
    else if 0x028 ≤ n && n < 0x02E then nestReg r (n - 0x028)
    else if 0x040 ≤ n && n < 0x060 then
      ((s.cluster (clusterOf c)).bankfmt.toList.getD (n - 0x040) 0).setWidth 64
    else 0

/-- The value that BANKFMT stores of a written one: a reserved format or rounding mode is stored as 0, bits [10:8] read
as zero, and ACT stays 0 with a format that is not an SA one (R34, R35). -/
def bankfmtStored (w : Word) : BitVec 32 :=
  let f := fld w 0 8
  let fmt := if (formatEsize f).isSome then f else 0
  let rnd := if fld w 11 3 ≤ 5 then fld w 11 3 else 0
  let act := bit w 15 && (fmt = 0x20 || fmt = 0x21 || fmt = 0x22)
  BitVec.ofNat 32 (fmt + rnd * 2 ^ 11 + fld w 14 1 * 2 ^ 14 + act.toNat * 2 ^ 15)

/-- The value that XMODE stores: 6 and 7 are stored as 0 in RM and in VRM (R270). -/
def xmodeStored (w : Word) : Word :=
  let w1 := if 6 ≤ fld w 0 3 then setFld w 0 3 0 else w
  if 6 ≤ fld w1 3 3 then setFld w1 3 3 0 else w1

/-- A new value of a control register, with what writing it entails (R123, R228, R236, R239). -/
def putCr (s : State) (c : CoreId) (n : Nat) (old v : Word) : State :=
  let k := s.core c
  let r := k.regs
  let put (q : Regs) : State := s.setCore c { k with regs := q }
  match n with
  | 0x004 => put { r with nflags := v }
  | 0x005 => put { r with rotNext := some v }
  | 0x006 => put { r with xmode := xmodeStored v }
  | 0x007 => put { r with srseed := v }
  | 0x008 => put { r with srstr := v }
  | 0x009 => s.setCore c { k with retry := v }
  | 0x00A => put { r with trapv := v }
  | 0x00B => put { r with tret := v }
  | 0x00D => s.setCore c { k with regs := { r with statq := setFld v 0 7 0 }, statOvf := bit v 6 }
  | 0x00E => put { r with statw := v }
  | 0x011 =>
    let map := (s.tower (towerOf c)).tiers.map
    let gone : Nat → Bool := fun at_ => (List.range 48).any fun i =>
      bit old i && !bit v i && at_ / 256 = (map.toList.getD (i / 12) 0).toNat * 12 + i % 12
    s.setCore c { k with mat := { k.mat with clip := k.mat.clip.filter fun e => !gone e.1 } }
  | 0x019 => put { r with ldep := if 4 < fld v 0 3 then 4 else v }
  | _ =>
    if 0x01C ≤ n && n < 0x020 then put { r with lcnt := r.lcnt.setIfInBounds (n - 0x01C) v }
    else if 0x020 ≤ n && n < 0x024 then put { r with ladd := r.ladd.setIfInBounds (n - 0x020) v }
    else if 0x028 ≤ n && n < 0x02E then put { r with n := r.n.setIfInBounds (n - 0x028) v }
    else if 0x040 ≤ n && n < 0x060 then
      let x := clusterOf c
      let cl := s.cluster x
      s.setCluster x { cl with bankfmt := cl.bankfmt.setIfInBounds (n - 0x040) (bankfmtStored v) }
    else s

/-- c.wcr (0x0B), c.scr (0x0C) or c.ccr (0x0D) of register n takes effect (R236). -/
def applyCr (s : State) (c : CoreId) (op n : Nat) (src : Word) : State :=
  let old := readCr s c n
  let m := crMasks n
  let rw := match op with
    | 0x0B => (old &&& ~~~m.1) ||| (src &&& m.1)
    | 0x0C => old ||| (src &&& m.1)
    | _ => old &&& ~~~(src &&& m.1)
  let v := if op = 0x0C then rw else rw &&& ~~~(src &&& m.2)
  putCr s c n old v

/-! ### Commit (R211) -/

/-- STATQ_AUTO_DRAIN (R239): an idle C entry moves the head statistics record into the ring, past the gate; a ring that
cannot be written loses the record. -/
def autoDrain (s : State) (c : CoreId) : State :=
  let k := s.core c
  match k.stats with
  | e :: es =>
    if bit k.regs.statq 7 && k.run.isSome then
      let n := 2 ^ (slogRead k.regs.statq + 7)
      let a : Word := BitVec.ofNat 64 (fld k.regs.statq 12 52 * 4096 + 32 * (k.regs.statw.toNat % n))
      let r := flatKeyOf s (coreView s c) a
      let s1 := match r.1 with
        | .ok key => writeNat r.2 key 32 e.toNat
        | .error _ => r.2
      let k1 := s1.core c
      s1.setCore c { k1 with stats := es, regs := { k1.regs with statw := k1.regs.statw + 1 } }
    else s
  | [] => s

/-- A pop of a bundle that commits takes effect (R74, R75, R320, R326). -/
def commitPop (s : State) (c : CoreId) (p : PopRec) : State :=
  match p with
  | .ring key e =>
    let t := towerNo (key / 2 ^ 40)
    let s1 := writeNat s key 4 (readNat s key 4 + 1)
    let s2 := s1.setTower t { (s1.tower t) with claims := (s1.tower t).claims.filter fun x => x ≠ key }
    let p : L1Line → Bool := fun l => l.tid.toNat = fld e 112 16 && l.ctx = coreCtx s c && l.gen = coreGen s c
      && decide (fld e 64 48 ≤ l.tile) && decide (l.tile ≤ fld e 16 48)
    (l1Cores s2 c).foldl (fun st o => dropLines (writeBackLines st o p) o fun l => p l && !l.inv) s2
  | .receive q slot n =>
    let s0 := (s.mapHub fun h => { h with claims := h.claims.filter fun x => x ≠ q })
    let s1 := if q < 256 then writeNat s0 (recvKey s q + 8) 4 (readNat s0 (recvKey s q + 8) 4 + 1) else s0
    let p : L1Line → Bool := fun l => l.tid = 0 && l.ctx = coreCtx s c && l.gen = coreGen s c
      && decide (slot.toNat < l.tile * 65536 + l.line * 128 + 128)
      && decide (l.tile * 65536 + l.line * 128 < slot.toNat + n)
    (l1Cores s1 c).foldl (fun st o => dropLines (writeBackLines st o p) o fun l => p l && !l.inv) s1
  | _ => s

/-- Flags of a bundle enter NFLAGS (R103). -/
def commitFlags (k : Core) (f : Flags) : Core :=
  { k with regs := { k.regs with nflags := k.regs.nflags ||| f.setWidth 64 } }

/-- The ready-queue entry of the continuation that core c runs, as it is queued again (R27, R359). -/
def runningEntry (s : State) (c : CoreId) (r : Running) : ReadyEntry :=
  r.entry (if (s.core c).aff then some c else none)

/-- The word that a suspended wait's object is, as a memory key: the flat object of c.waitb and c.waitr, the sync object
of w.acq's entry (R356). -/
def waitKey (s : State) (c : CoreId) (kind : Nat) (obj : Word) : Nat :=
  let a := if kind = 5 then bSync ((s.core c).binds.toList.getD (obj.toNat % 64) 0) else obj
  if kind = 1 || kind = 2 || kind = 5 then
    match (flatKeyOf s (coreView s c) a).1 with
    | .ok key => key
    | .error _ => 0
  else 0

/-- The end of a save sequence (R27, R351): a record in state 4 joins the tail of its queue with a new stamp; one in state
3 waits with its object. -/
def finishSave (s : State) (c : CoreId) (st : BitVec 4) : State :=
  match (s.core c).run with
  | none => goIdle s c
  | some r =>
    let h := readHead s r.saveKey
    let e := runningEntry s c r
    let t := towerOf c
    let w : Wait := { kind := h.wkind, obj := h.wobj, arg := h.warg, key := waitKey s c h.wkind h.wobj, slot := 0, dst := 0 }
    let s1 := endSave s c st
    if st = 3 then s1.setTower t { (s1.tower t) with susp := (s1.tower t).susp ++ [{ entry := e, wait := w }] }
    else pushReady s1 t r.home { e with stamp := stampNow s1 }

/-- The node of core c has ended (R328): OWNV ← 0, Rennet completes it (R24), and the core is idle. -/
def finishContinuation (s : State) (c : CoreId) : State :=
  match (s.core c).run with
  | none => goIdle s c
  | some r =>
    let s1 := goIdle (leaveRecord s r.recKey 2) c
    match findArmed s1 r.instKey with
    | some (t, a) => completeNode s1 t a r.recKey false
    | none => leaveRecord s1 r.recKey 6

/-- The bundle holds a c.halt that ends the continuation, not a sequence (R241, R352). -/
def haltFaults (k : Core) (cur : Current) : Bool := cur.ending = .halt && k.seqMode = .none

/-- The bundle holds the c.halt of a save or restore sequence, whose release empties the gate (R351, R352). -/
def endsSequence (k : Core) (cur : Current) : Bool := cur.ending = .halt && k.seqMode ≠ .none

/-- The C entry of the bundle has issued as a no-operation (R239). -/
def idleC (cur : Current) : Bool := cur.bundle.stamp.isNone && cur.cIdle

/-- C.halt of a continuation, with every other entry past its fault point: a precise fault with 0x01F0 in place of the commit
(R212, R241, R379); taking it performs the full release. -/
def haltFault (s : State) (c : CoreId) (cur : Current) : State :=
  takeFault (undoBundle s c) c { (FaultInfo.plain 0 0x01F0 0 cur.pc) with faults := [(0, 0x01F0, 0)] }

/-- The end of the continuation, or of a sequence, that a committed bundle brings (R241, R328, R351, R352). -/
def bundleEnd (s : State) (c : CoreId) (e : Ending) : State :=
  let k := s.core c
  match e with
  | .goOn => s
  | .done => finishContinuation s c
  | .brk num => if ctxDebug s (coreCtx s c) then s.setCore c { k with stopped := true, brkNum := num } else s
  | .halt => match k.seqMode with
    | .none => s
    | .save st => finishSave s c st
    | .restore => endRestore s c

/-- The next bundle and the registers after a committed bundle (R211, R229, R232): a transfer that was taken is followed;
otherwise the loop-back is made. A ROT that was written applies from the next group on (R210). -/
def afterBundle (cur : Current) (r : Regs) : Word × Regs × Bool :=
  let settled := { r with rot := r.rotNext.getD r.rot, rotNext := none }
  if cur.taken || cur.next ≠ cur.pc + 32 then (cur.next, settled, true)
  else
    let lb := loopBack cur.pc 4 settled
    if lb.1 ≠ cur.pc + 32 || endsGroup cur.bundle then (lb.1, lb.2, true)
    else (lb.1, { lb.2 with rot := r.rot, rotNext := r.rotNext }, false)

/-- Why a core that issues nothing waits for its gate and its passes. -/
inductive Rest where
  /-- A request was taken at the YIELD bundle at that address (R351). -/
  | yield (ypt : Word)
  /-- A forced pre-emption has stopped issue (R353). -/
  | forced
  deriving DecidableEq, Repr

/-- Kinds of stalls that end with the core at rest. -/
def waitYield : Nat := 9
def waitForced : Nat := 10

/-- The core stops issue at the boundary, and what lies before it leaves the gate (R351, R353). -/
def comeToRest (s : State) (c : CoreId) (why : Rest) : State :=
  let s1 := emptyGate s c
  let k := s1.core c
  let w : Wait := { kind := 0, obj := 0, arg := 0, key := 0, slot := 0, dst := 0 }
  s1.setCore c { k with stall := some (match why with
    | .yield y => { w with kind := waitYield, obj := y }
    | .forced => { w with kind := waitForced }) }

/-- BUNDLE_COMMIT (R211): flags enter NFLAGS, control-register writes take effect, pops are final, the loop-back is made
(R229), an idle C entry drains a statistics record, and the mark after a bracketed bundle is due (R215). A bundle with the
c.halt of a continuation faults instead. -/
def commitBundle (s : State) (c : CoreId) : State :=
  match (s.core c).current with
  | none => s
  | some cur =>
    if haltFaults (s.core c) cur then haltFault s c cur else
    let s0 := if endsSequence (s.core c) cur then emptyGate s c else s
    let s1 := s0.setCore c { (commitFlags (s0.core c) cur.flags) with current := none, lastc := cur.pc }
    let s2 := cur.crWrites.foldl (fun st w => applyCr st c w.1 w.2.1 w.2.2) s1
    let k := s2.core c
    let nx := afterBundle cur k.regs
    let s3 := s2.setCore c { k with pc := nx.1, regs := nx.2.1, loopBuf := bufferAfter k cur, group := if nx.2.2 then [] else k.group }
    let s4 := cur.pops.foldl (fun st p => commitPop st c p) s3
    let s5 := if idleC cur then autoDrain s4 c else s4
    let s6 := bundleEnd (if cur.acquire then fullAcquire s5 c else s5) c cur.ending
    if cur.bracketed && (s6.core c).run.isSome then s6.due .restartMarkEstablish (onCore c) else s6

/-- A displacement request is taken as a yield at this bundle (R349, R351): it is a YIELD bundle of the continuation, no
sequence runs, and the table names it. -/
def takesYield (s : State) (c : CoreId) (cur : Current) (before : SeqMode) : Bool :=
  let k := s.core c
  cur.bundle.yld && before = .none && k.run.isSome && k.seqMode = .none && (coreYield s c cur.pc).isSome
    && (match k.displace with | some t0 => decide (s.clk < t0 + 256) | none => false)

def execBundleCommit (s : State) : Out :=
  let c := s.now.core
  let s1 := commitBundle s c
  .next (match (s.core c).current with
    | some cur => if takesYield s1 c cur (s.core c).seqMode then comeToRest s1 c (.yield cur.pc) else s1
    | none => s1)

/-- YIELD (R351): the core that has taken a request at the YIELD bundle in addr is at rest; the save sequence runs. -/
def execYield (s : State) : Out :=
  let c := s.now.core
  let k := s.core c
  .next (match coreYield s c s.now.addr with
    | some e => if k.run.isSome && k.seqMode = .none && k.current.isNone && atRest s c then
        startYield s c e 4 { skind := 2, res := k.pc, ypt := s.now.addr, wkind := 0, wobj := 0, warg := 0, npush := 0,
                             nsnap := 0, nbv := false }
      else s
    | none => s)

/-- PRECISE_FAULT (R383) of the bundle in progress. -/
def execPreciseFault (s : State) : Out := .next (takePrecise s s.now.core)

/-- The kinds of storage whose uncorrectable errors are engine faults (R387): the occasion's unit names the source, addr
the register and value the bundle concerned. -/
def engineInfo (o : Occasion) : FaultInfo :=
  let f := FaultInfo.plain 2 0 0 o.value
  let bit64 : Word := 1 <<< (o.addr.toNat % 64)
  match o.unit with
  | 0 => { f with code := 0x20E0, spois := bit64 }
  | 1 => { f with code := 0x20E0, vpois := bit64 }
  | 2 => { f with code := 0x20E0, spois := 1, info := o.extra }
  | 3 => { f with code := 0x20E1, zpois := (1 : BitVec 192) <<< (o.addr.toNat % 192), nbp := true }
  | 4 => { f with code := 0x20E2, rstrt := false }
  | 5 => { f with code := 0x20E3, rstrt := false }
  | _ => { f with code := BitVec.ofNat 16 o.extra.toNat, spois := bit64 }

/-- ENGINE_FAULT (R387). A read of an edited loop buffer is fetched again with a record and faults nothing (0x20E4). -/
def execEngineFault (s : State) : Out :=
  .next (if s.now.unit = 7 then
      let k := s.core s.now.core
      statRecord (s.setCore s.now.core { k with loopBuf := k.loopBuf.map fun b => { b with words := b.words.filter fun x => x.1 ≠ s.now.value } })
        s.now.core 0 0x20E4 s.now.value 0
    else takeEngine s s.now.core (engineInfo s.now))

end Sys2Proof.Machine
end

