-- ==== Sys2Proof/Machine/Operands.lean ====
section
/-! DEFINITION. Operands in memory: tensor operands (R45, R220, R249, R250), objects at an L2 home (R38), and how an access
that its translation refuses ends (R383, R399, R401). -/

namespace Sys2Proof.Machine

/-! ### How an access ends at its checks -/

/-- The codes that roll back instead of faulting precisely: classes 0x10, 0x11 and 0x12 (R399). -/
def rollsBack (x : Code) : Bool := decide (0x1000 ≤ x.toNat) && decide (x.toNat < 0x1300)

/-- The access of slot x is refused (R383, R399, R401): classes 0x10 to 0x12 end the continuation at the restart point,
every other code faults the slot precisely. -/
def State.refuse (s : State) (x : Fin 8) (code : Code) (info : Word) : State :=
  if rollsBack code then takeRefused s s.now.core x code info else s.slotFaultI x code info

/-- The access waits for the end of a handover (R401). -/
def State.inTransit (s : State) (x : Fin 8) (info : Word) : State := waitTransit s s.now.core x info

/-- Access codes of R54. -/
def accLoad : Nat := 0
def accStore : Nat := 1
def accAtomic : Nat := 2

/-! ### Tensor operands -/

/-- An operand whose address is known (R249): tensor, tile, bit offset, element width in bits, the handle's format, its
descriptor, and the coordinate of dimension 0. -/
structure Operand where
  desc : Option (BitVec 512)
  tid : BitVec 16
  tile : Nat
  bit : Nat
  width : Nat
  fmt : Option Nat
  c0 : Nat
  deriving DecidableEq, Repr

/-- How the evaluation of an operand ends: its address, a precise code, or a coordinate outside its dimension. -/
inductive Evaluated where
  | at (o : Operand)
  | precise (c : Code)
  | outside
  deriving DecidableEq, Repr

/-- The coordinate of dimension d: s(cb + RANK − 1 − d), or 0 where zm says so (R220); in the V, X, M and E slots 63 names bc (R191). -/
def coordinate (s : State) (x : Fin 8) (cb : BitVec 6) (zm : BitVec 4) (rank d : Nat) : Nat :=
  let n := BitVec.ofNat 6 (cb.toNat + rank - 1 - d)
  if d < 4 && bit zm d then 0 else (if 4 ≤ x.val then s.rdSB x n else s.rdS x n).toNat

/-- Evaluation of an element operand (R249, R250); vec is set for a row through h0. -/
def evaluate (s : State) (x : Fin 8) (h : BitVec 5) (cb : BitVec 6) (zm : BitVec 4) (vec : Bool) : Evaluated :=
  if h = 0 then
    let a := coordinate s x cb zm 1 0
    let w := fld zm 2 2
    if a % (if vec then 4 else 2 ^ w) ≠ 0 then .precise 0x0113
    else .at { desc := none, tid := 0, tile := a / 65536, bit := a % 65536 * 8, width := 8 * 2 ^ w, fmt := none, c0 := a }
  else
    let d : BitVec 512 := (s.rdH h).setWidth 512
    let r := dRank d
    if r = 0 || decide (6 < r) then .precise 0x011A
    else if 63 < cb.toNat + r - 1 then .precise 0x011B
    else
      let c := coordinate s x cb zm r
      match tileAddress d c with
      | some a => .at { desc := some d, tid := dTid d, tile := a.1, bit := a.2, width := 2 ^ dEsize d,
                        fmt := some (dFmt d), c0 := c 0 }
      | none => .outside

/-- The entry of a tile of the operand's tensor, or of the flat view, with the checks of an L-, W- or X-slot access. A
bank that was lost with its tier faults with 0x2111 (R408). -/
def reachTile (s : State) (c : CoreId) (desc : Option (BitVec 512)) (tile : Nat) (fmt : Option Nat) (write : Bool) :
    Reach × State :=
  let v := coreView s c
  let r := match desc with
    | some d => lookupTensor s v (some c) (if write then accStore else accLoad) d tile
    | none => lookupFlat s v (some c) (if write then accStore else accLoad) tile
  match reachOf r.1 with
  | .ok e =>
    match accessFault r.2 c e fmt write with
    | some x => (.fault x, r.2)
    | none =>
      (if lostBank r.2 e then .fault 0x2111
       else if tteKind e = 3 && s.hub.cxlUp && !towerLinked s (towerOf c) then .miss
       else .ok e, r.2)
  | q => (q, r.2)

/-- The place and bit offset of lane e of a row (R256): dimension 0 advanced by e, or e bytes further through h0. -/
def rowLane (s : State) (x : Fin 8) (o : Operand) (cb : BitVec 6) (zm : BitVec 4) (e : Nat) : Option (Nat × Nat) :=
  match o.desc with
  | none => some ((o.c0 + e) % 2 ^ 64 / 65536, (o.c0 + e) % 65536 * 8)
  | some d => tileAddress d fun k => if k = 0 then o.c0 + e else coordinate s x cb zm (dRank d) k

/-- Lane e of a row lies inside DIM0; through h0 every lane does (R256). -/
def rowInside (o : Operand) (e : Nat) : Bool :=
  match o.desc with
  | none => true
  | some d => decide (o.c0 + e < dDim d 0)

/-- The accessed lanes of a row resolved tile by tile: lane, place, bit offset; the first refusal ends it. -/
def resolveLanes (c : CoreId) (o : Operand) (write : Bool) :
    List (Nat × Nat × Nat) → List (Nat × BitVec 64) → State → (Reach × Nat) × List (Nat × Place × Nat) × State
  | [], _, s => ((.ok 0, 0), [], s)
  | (e, tile, b) :: ls, seen, s =>
    match seen.find? fun q => q.1 = tile with
    | some q =>
      let r := resolveLanes c o write ls seen s
      (r.1, (e, { tid := o.tid, tile := tile, tte := q.2 }, b) :: r.2.1, r.2.2)
    | none =>
      match reachTile s c o.desc tile o.fmt write with
      | (.ok t, s1) =>
        let r := resolveLanes c o write ls ((tile, t) :: seen) s1
        (r.1, (e, { tid := o.tid, tile := tile, tte := t }, b) :: r.2.1, r.2.2)
      | (q, s1) => ((q, tile), [], s1)

/-! ### Objects at an L2 home -/

/-- INFO of an access through h0 (R400). -/
def flatInfo (acc slot : Nat) (a : Word) : Word := layoutInfo 0 acc slot 0 (fld a 16 24)

/-- The memory key of the object at flat address a, performed at an L2 home of core c's tower (R38). -/
def reachHome (s : State) (c : CoreId) (a : Word) (write : Bool) : Reach × Nat × State :=
  let v := coreView s c
  let r := lookupFlat s v (some c) accAtomic (fld a 16 48)
  match reachOf r.1 with
  | .ok e =>
    match homeFault r.2 (towerOf c) e write with
    | some x => (.fault x, 0, r.2)
    | none => (.ok e, tteKey r.2 e (fld a 0 16), r.2)
  | q => (q, 0, r.2)

/-- What follows for an object at an L2 home: the continuation on its key, or the end of the access (R38, R399, R406). n is
the bytes that are read. -/
def State.atHome (s : State) (x : Fin 8) (a : Word) (acc : Nat) (write : Bool) (n : Nat) (f : State → Nat → State) :
    State :=
  match reachHome s s.now.core a write with
  | (.ok _, key, s1) =>
    let s2 := touchHome s1 key n write
    match poisonOf s2 key n with
    | some p => s2.slotFaultI x p 0
    | none => f s2 key
  | (.fault q, _, s1) => s1.refuse x q (flatInfo acc x.val a)
  | (.transit, _, s1) => s1.inTransit x (flatInfo acc x.val a)
  | (.miss, _, s1) => s1.reissue x

/-! ### Loads through the gate -/

/-- The gate forwards every byte of a held store to a later load of its own core (R251): the width bits at bit offset b of
a place, with what the gate holds laid over them. -/
def gateBits (s : State) (c : CoreId) (p : Place) (b width : Nat) (v : Nat) : Nat :=
  let first := b / 8
  let n := (b % 8 + width + 7) / 8
  let key := tteKey s p.tte first
  let raw := v * 2 ^ (b % 8)
  let placed := (s.core c).gate.foldl (fun (acc : Nat) e =>
    match e with
    | .store _ bs => bs.foldl (fun a q =>
        let k := tteKey s q.place.tte q.off
        if key ≤ k && decide (k < key + n) then
          let sh := 8 * (k - key)
          let m := q.msk.toNat * 2 ^ sh
          let w : BitVec 4096 := BitVec.ofNat 4096 a
          ((w &&& ~~~(BitVec.ofNat 4096 m)) ||| (BitVec.ofNat 4096 (q.val.toNat * 2 ^ sh) &&& BitVec.ofNat 4096 m)).toNat
        else a) acc
    | _ => acc) raw
  placed / 2 ^ (b % 8) % 2 ^ width

/-- The bits that a load of core c reads (R251), with the poison met. -/
def readElement (s : State) (c : CoreId) (p : Place) (b width : Nat) (inv : Bool) : Nat × Option Code × State :=
  let r := loadBits s c (coreCtx s c) (coreGen s c) p b width inv
  (gateBits r.2.2 c p b width r.1, r.2.1, r.2.2)

/-- The place at a flat address that a plain load through h0 of slot x would read; where it is refused, the refusal has taken effect.
The bytes lie in one tile; a host line that stands in L1 is read there even while the link is down (R251, R437). -/
def State.flatLoad (s : State) (x : Fin 8) (a : Word) (f : State → Place → State) : State :=
  match reachTile s s.now.core none (fld a 16 48) none false with
  | (.ok e, s1) =>
    let p : Place := { tid := 0, tile := fld a 16 48, tte := e }
    f s1 p
  | (.fault q, s1) => s1.refuse x q (flatInfo accLoad x.val a)
  | (.transit, s1) => s1.inTransit x (flatInfo accLoad x.val a)
  | (.miss, s1) => s1.reissue x

/-! ### Writes of a slot -/

/-- A result of a slot without exposed latency: C, L, W, M, E (R206). -/
def State.result (s : State) (x : Fin 8) (ref : RegRef) (v : Vec) : State := s.setMe (s.me.writeNow s.freeN x ref v)

/-- A scalar result. -/
def State.resultS (s : State) (x : Fin 8) (d : BitVec 6) (v : Word) : State := s.result x (.s d) (v.setWidth 4096)

/-- A vector result, by its logical register. -/
def State.resultV (s : State) (x : Fin 8) (d : BitVec 6) (v : Vec) : State :=
  s.result x (.v (vphys s.me.regs.rot d)) v

end Sys2Proof.Machine
end

