-- ==== Sys2Proof/Machine/Control.lean ====
section
/-! DEFINITION. The C slot: branches and calls (R226, R227), loops and nests (R229, R231), waits (R233, R234), control
registers (R236), statistics records (R238), traps, breakpoints and halt (R240, R241). -/

namespace Sys2Proof.Machine

/-- Slot C is slot 0 (R188). -/
def slotC : Fin 8 := 0

/-! ### Branches and calls -/

/-- The target of a bundle offset (R226). -/
def offsetTarget (s : State) (off : Int) : Word := s.bundlePc + BitVec.ofInt 64 (32 * off)

/-- A taken branch, which leaves the bodies whose outside it reaches (R226, R232). -/
def State.branch (s : State) (target : Word) : State :=
  (s.setMe { s.me with regs := loopExit s.bundlePc target 4 s.me.regs }).jump target

/-- c.br (R226). -/
def execCBr (o : OpB) (s : State) : Out := .next
  (if s.rdP slotC o.p ^^ decide (o.neg = 1) then s.branch (offsetTarget s o.off.toInt) else s)

/-- c.bsz (R226). -/
def execCBsz (o : OpBS) (s : State) : Out := .next
  (if s.rdS slotC o.a = 0 then s.branch (offsetTarget s o.off.toInt) else s)

/-- c.bsnz (R226). -/
def execCBsnz (o : OpBS) (s : State) : Out := .next
  (if s.rdS slotC o.a ≠ 0 then s.branch (offsetTarget s o.off.toInt) else s)

/-- A link is pushed on the call-return prediction stack of 16 entries (R227). -/
def State.pushReturn (s : State) (link : Word) : State :=
  s.setMe { s.me with returns := (link :: s.me.returns).take 16 }

/-- The link of a call (R227). -/
def linkOf (s : State) : Word := s.bundlePc + 32

/-- c.call (R227). -/
def execCCall (o : OpJ) (s : State) : Out := .next
  (((s.resultS slotC o.d (linkOf s)).pushReturn (linkOf s)).jump (offsetTarget s o.imm.toInt))

/-- A jump to a register target, which must be a bundle address (R227, R379). -/
def registerJump (s : State) (o : OpT) (f : State → Word → State) : State :=
  if s.guard slotC o.g then
    let t := s.rdS slotC o.a
    if fld t 0 5 ≠ 0 then s.slotFault slotC 0x0112 else f s t
  else s

/-- c.jr (R227, R232). -/
def execCJr (o : OpT) (s : State) : Out := .next (registerJump s o State.branch)

/-- c.callr (R227). -/
def execCCallr (o : OpT) (s : State) : Out := .next
  (registerJump s o fun s t => ((s.resultS slotC o.d (linkOf s)).pushReturn (linkOf s)).jump t)

/-- c.ret (R227). -/
def execCRet (o : OpT) (s : State) : Out := .next
  (registerJump s o fun s t => (s.setMe { s.me with returns := s.me.returns.drop 1 }).jump t)

/-! ### Loops and nests -/

/-- The bundle after the body of a loop of len bundles (R229, R231). -/
def afterBody (s : State) (len : Nat) : Word := s.bundlePc + BitVec.ofNat 64 (32 * (len + 1))

/-- The stage predicates at the entry of a loop: logical p8 as given, p9 to p15 zero (R229). -/
def stageEntry (r : Regs) (first : Bool) : Regs :=
  [9, 10, 11, 12, 13, 14, 15].foldl (fun q n => setLogicalP q n false) (setLogicalP r 8 first)

/-- c.loop (R229). -/
def execCLoop (o : OpI) (s : State) : Out := .next
  (if s.guard slotC o.g then
    let n := (s.rdS slotC o.a).toNat
    let e := fld o.d 0 3
    let len := o.imm.toNat
    if loopDepth s.me.regs = 4 then s.slotFault slotC 0x0114
    else if 2 ^ 32 - 1 < n + e then s.slotFault slotC 0x0115
    else if n + e = 0 then s.goTo (afterBody s len)
    else
      let r := s.me.regs.pushLoop (mkLcnt (n + e - 1) false e 0 len) (linkOf s)
      s.setMe { s.me with regs := stageEntry r (decide (0 < n)) }
  else s)

/-- c.nest (R231). -/
def execCNest (o : OpI) (s : State) : Out := .next
  (if s.guard slotC o.g then
    let d := o.d.toNat
    let len := o.imm.toNat
    let t := nestTotal s.me.regs d
    if loopDepth s.me.regs = 4 then s.slotFault slotC 0x0114
    else if 2 ^ 32 - 1 < t then s.slotFault slotC 0x0115
    else if t = 0 then s.goTo (afterBody s len)
    else s.setMe { s.me with regs := s.me.regs.pushLoop (mkLcnt (t - 1) true d o.a.toNat len) (linkOf s) }
  else s)

/-! ### Waits -/

/-- Kinds of waits, as WKIND of R356; 7 is a range in transit. -/
def waitBarrier : Nat := 1
def waitWord : Nat := 2
def waitTime : Nat := 3
def waitQueue : Nat := 4
def waitAcquire : Nat := 5
def waitRange : Nat := 6

def recvHead (s : State) (q : Nat) : Nat := readNat s (recvKey s q + 8) 4
def recvTail (s : State) (q : Nat) : Nat := readNat s (recvKey s q + 12) 4
/-- Packets that the ring of queue q holds. -/
def recvCount (s : State) (q : Nat) : Nat := (recvTail s q + 2 ^ 32 - recvHead s q) % 2 ^ 32

/-- Elements held by the queue that a selector names (R233). -/
def queueCount (s : State) (c : CoreId) (sel : Word) : Nat :=
  let k := s.core c
  match fld sel 0 3 with
  | 0 => k.rows.length
  | 1 => k.results.length
  | 2 => k.stats.length
  | _ => recvCount s (fld sel 8 8)

/-- The condition of a wait and the value it returns (R233). -/
def waitResult (s : State) (c : CoreId) (w : Wait) : Option Word :=
  match w.kind with
  | 1 =>
    let b := readWord s w.key
    if barPhase b ≠ fld w.arg 0 8 then some (if barErr b then 1 else 0) else none
  | 2 =>
    let v := readNat s w.key 4
    if v ≠ fld w.arg 0 32 then some (BitVec.ofNat 64 v) else none
  | 3 => if w.obj.toNat ≤ s.hub.podTime.toNat then some s.hub.podTime else none
  | 4 =>
    let n := queueCount s c w.obj
    if n = 0 then none else some (BitVec.ofNat 64 (min n 65535))
  | _ => none

/-- A wait whose condition is met: its result, and for a barrier the full acquire, which is performed as the bundle commits (R86, R233,
R235). -/
def State.satisfyWait (s : State) (w : Wait) (v : Word) : State :=
  let s1 := s.resultS w.slot w.dst v
  if w.kind = 1 then s1.setMe (s1.me.mapCurrent fun c => { c with acquire := true }) else s1

/-- The yield point of the bundle in progress, if it may suspend (R234, R352, R391). -/
def State.suspension (s : State) : Option YieldEntry :=
  if s.yieldBit then coreYield s s.now.core s.bundlePc else none

/-- The continuation suspends at the boundary before the bundle of slot x, a YIELD bundle that the table names, with STATE st (R234,
R351). What lies before the boundary leaves the gate first; until that is done, and while a pass runs, the slot waits. -/
def State.suspendAt (s : State) (e : YieldEntry) (st : BitVec 4) (x : Fin 8) (w : Wait) : State :=
  let c := s.now.core
  let pc := s.bundlePc
  let s1 := establishMark s c
  let len := match (s1.core c).current with | some cur => cur.gateLen | none => 0
  if len ≠ 0 || !(s1.core c).mat.passes.isEmpty then s1.reissue x
  else
    startYield (undoBundle s1 c) c e st
      { skind := 3, res := pc, ypt := pc, wkind := w.kind, wobj := w.obj, warg := w.arg, npush := 0, nsnap := 0, nbv := false }

/-! ### Wait entries of a slice (R71, R234) -/

/-- The slice of tower t that holds key, for its wait entries. -/
def waitSlice (s : State) (t : TowerId) (key : Nat) : Nat := homeSlice (s.tower t).retired (key % 2 ^ 40)

/-- The 64 wait entries of a slice for suspended waits are full (R71, R234). -/
def waitsFull (s : State) (t : TowerId) (key : Nat) : Bool :=
  let n := waitSlice s t key
  let w := s.tower t
  let a := (w.syncs.filter fun x => x.core.isNone && waitSlice s t x.key = n).length
  let b := (w.susp.filter fun x => (x.wait.kind = 1 || x.wait.kind = 2) && waitSlice s t x.wait.key = n).length
  decide (64 ≤ a + b)

/-- A wait for a word at an L2 home, whose slice has no entry left for it (R234). -/
def waitRefused (s : State) (w : Wait) : Bool :=
  (w.kind = 1 || w.kind = 2) && waitsFull s (towerNo (w.key / 2 ^ 40)) w.key

/-- A wait whose condition fails suspends at a YIELD bundle, unless its queue lives in the core, and stalls elsewhere
(R234). One that finds the entries of its slice full is queued again at once. -/
def State.startWait (s : State) (w : Wait) : State :=
  match waitResult s s.now.core w with
  | some v => s.satisfyWait w v
  | none =>
    let inCore := w.kind = 4 && decide (fld w.obj 0 3 < 3)
    match (if inCore then none else s.suspension) with
    | some e => s.suspendAt e (if waitRefused s w then 4 else 3) w.slot w
    | none => s.setMe { s.me with stall := some w }

/-- The waits of a deterministic partition that R390 forbids. -/
def State.notDet (s : State) (x : Fin 8) (code : Code) (f : State → State) : State :=
  if detCore s s.now.core then s.slotFault x code else f s

/-- c.waitb (R233). -/
def execCWaitb (o : OpT) (s : State) : Out := .next
  (if s.guard slotC o.g then
    let a := s.rdS slotC o.a
    let b := s.rdS slotC o.b
    s.notDet slotC 0x0311 fun s =>
      if fld a 0 3 ≠ 0 then s.slotFault slotC 0x0113
      else s.atHome slotC a accLoad false 8 fun s key =>
        s.startWait { kind := waitBarrier, obj := a, arg := b, key := key, slot := slotC, dst := o.d }
  else s)

/-- c.waitr (R233). -/
def execCWaitr (o : OpT) (s : State) : Out := .next
  (if s.guard slotC o.g then
    let a := s.rdS slotC o.a
    let b := s.rdS slotC o.b
    s.notDet slotC 0x0311 fun s =>
      if fld a 0 2 ≠ 0 then s.slotFault slotC 0x0113
      else s.atHome slotC a accLoad false 4 fun s key =>
        s.startWait { kind := waitWord, obj := a, arg := b, key := key, slot := slotC, dst := o.d }
  else s)

/-- c.waitq (R233). -/
def execCWaitq (o : OpT) (s : State) : Out := .next
  (if s.guard slotC o.g then
    let a := s.rdS slotC o.a
    if 4 ≤ fld a 0 3 || fld a 3 5 ≠ 0 || fld a 16 48 ≠ 0 then s.slotFault slotC 0x0122
    else s.startWait { kind := waitQueue, obj := a, arg := 0, key := 0, slot := slotC, dst := o.d }
  else s)

/-- c.waitt (R233). -/
def execCWaitt (o : OpT) (s : State) : Out := .next
  (if s.guard slotC o.g then
    s.startWait { kind := waitTime, obj := s.rdS slotC o.a, arg := 0, key := 0, slot := slotC, dst := o.d }
  else s)

/-! ### Control registers (R236) -/

/-- c.rcr (R236): every earlier bundle has committed. -/
def execCRcr (o : OpJ) (s : State) : Out := .next (s.resultS slotC o.d (readCr s s.now.core o.imm.toNat))

/-- NEST0 to NEST5 may not be written while a valid entry of the loop stack uses the register (R231, R379). -/
def nestInUse (r : Regs) (n : Nat) : Bool :=
  decide (0x028 ≤ n) && decide (n ≤ 0x02D) && (List.range 4).any fun i =>
    lcntV (loopCnt r i) && lcntNst (loopCnt r i) && decide (n - 0x028 ≤ lcntEpd (loopCnt r i))

/-- A control-register write is kept for the commit of its bundle (R235, R236). -/
def State.writeCr (s : State) (op : Nat) (o : OpJ) : State :=
  if nestInUse s.me.regs o.imm.toNat then s.slotFault slotC 0x0116
  else
    let v := s.rdS slotC o.d
    s.setMe (s.me.mapCurrent fun c => { c with crWrites := c.crWrites ++ [(op, o.imm.toNat, v)] })

/-- c.wcr (R236). -/
def execCWcr (o : OpJ) (s : State) : Out := .next (s.writeCr 0x0B o)
/-- c.scr (R236). -/
def execCScr (o : OpJ) (s : State) : Out := .next (s.writeCr 0x0C o)
/-- c.ccr (R236). -/
def execCCcr (o : OpJ) (s : State) : Out := .next (s.writeCr 0x0D o)

/-! ### Statistics records -/

/-- Four scalars from d on receive a 32-byte record (R238, R320). -/
def State.resultQuad (s : State) (x : Fin 8) (d : BitVec 6) (r : BitVec 256) : State :=
  (((s.resultS x d (BitVec.ofNat 64 (fld r 0 64))).resultS x (d + 1) (BitVec.ofNat 64 (fld r 64 64))).resultS x (d + 2)
    (BitVec.ofNat 64 (fld r 128 64))).resultS x (d + 3) (BitVec.ofNat 64 (fld r 192 64))

/-- c.spop (R238): the head record, or zeros. -/
def execCSpop (o : OpT) (s : State) : Out := .next
  (if s.guard slotC o.g then
    match s.me.stats with
    | r :: rs => ((s.setMe { s.me with stats := rs }).notePop (.statRecord r)).resultQuad slotC o.d r
    | [] => s.resultQuad slotC o.d 0
  else s)

/-! ### Traps, breakpoints and halt -/

/-- c.trap (R240): taking a trap saves the return bundle in TRET with ACT, the number in TARG, and continues at the
handler of TRAPV; without a handler or inside one it faults. -/
def execCTrap (o : OpJ) (s : State) : Out := .next
  (let r := s.me.regs
   if !bit r.trapv 0 then s.slotFault slotC 0x0117
   else if bit r.tret 0 then s.slotFault slotC 0x0118
   else
     (s.setMe { s.me with regs := { r with targ := BitVec.ofNat 64 (fld o.imm 0 16), tret := linkOf s ||| 1 } }).jump
       (BitVec.ofNat 64 (fld r.trapv 5 59 * 32)))

/-- c.brk (R241): it takes effect at its bundle's commit. -/
def execCBrk (o : OpJ) (s : State) : Out := .next (s.setEnding (.brk (o.imm.setWidth 16)))

/-- c.halt (R241, R352): it takes effect at its bundle's commit. -/
def execCHalt (o : OpT) (s : State) : Out := .next (if s.guard slotC o.g then s.setEnding .halt else s)

/-! ### The end of a wait -/

/-- A stalled wait waits for nothing any more, and its instruction or access issues again where it is one of those. -/
def State.unstall (s : State) : State := s.setMe { s.me with stall := none }

/-- What holds a slot without a result of its own is over: a handover that an access waits for (7), an empty queue of the
core (8) (R401, R261, R324). -/
def stallOver (s : State) (c : CoreId) (w : Wait) : Bool :=
  match w.kind with
  | 7 => (s.tower (lowTower s (coreCtx s c))).handover.isNone
  | 8 => queueCount s c w.obj ≠ 0
  | _ => false

/-- STALLED_WAIT_SATISFIED (R234): the wait of core c that stalls in place has its condition met and completes, or the
access that waited issues again. A grant of a sync object and an answer of the walker complete through their own events. -/
def execStalledWaitSatisfied (s : State) : Out := .next
  (match s.me.stall with
  | some w => match waitResult s s.now.core w with
    | some v => s.unstall.satisfyWait w v
    | none => if stallOver s s.now.core w then s.unstall else s
  | none => s)

end Sys2Proof.Machine
end

