-- ==== Sys2Proof/Machine/Loads.lean ====
section
/-! DEFINITION. The L slot: element and row loads (R255, R256), prefetches (R257), handles and cursors (R258, R260), the pop
of a gathered row (R261), and the landing of their data (R254, R406). -/

namespace Sys2Proof.Machine

/-- Slot L is slot 2 (R188). -/
def slotL : Fin 8 := 2

/-- INFO of an access of slot x through handle h (R400). -/
def operandInfo (o : Operand) (acc : Nat) (x : Fin 8) (h : BitVec 5) : Word :=
  layoutInfo o.tid acc x.val h.toNat (o.tile % 2 ^ 24)

/-- INFO of an access whose coordinate lies outside its dimension: no tile is known. -/
def outsideInfo (s : State) (acc : Nat) (x : Fin 8) (h : BitVec 5) : Word :=
  layoutInfo (dTid ((s.rdH h).setWidth 512)) acc x.val h.toNat 0

/-- An operand is evaluated for an access of slot x: the access goes on with it, or ends (R249, R379). -/
def State.operand (s : State) (x : Fin 8) (h : BitVec 5) (cb : BitVec 6) (zm : BitVec 4) (vec : Bool) (acc : Nat)
    (f : State → Operand → State) : State :=
  match evaluate s x h cb zm vec with
  | .at o => f s o
  | .precise q => s.slotFault x q
  | .outside => s.refuse x 0x1201 (outsideInfo s acc x h)

/-- The tile of an operand is reached, or the access ends (R249, R399, R401). -/
def State.reach (s : State) (x : Fin 8) (h : BitVec 5) (o : Operand) (acc : Nat) (f : State → Place → State) : State :=
  match reachTile s s.now.core o.desc o.tile o.fmt (acc = accStore) with
  | (.ok e, s1) => f s1 { tid := o.tid, tile := o.tile, tte := e }
  | (.fault q, s1) => s1.refuse x q (operandInfo o acc x h)
  | (.transit, s1) => s1.inTransit x (operandInfo o acc x h)
  | (.miss, s1) => s1.reissue x

/-- MAPV of the core's tower, which every L2 request carries (R40). -/
def State.mapVersion (s : State) : BitVec 8 := (s.tower (towerOf s.now.core)).mapv

/-- A load is outstanding and its data are due (R252, R254). -/
def State.outstanding (s : State) (l : Load) : State :=
  (s.setMe { s.me with loads := s.me.loads ++ [l] }).due .loadDataReturn (onCore s.now.core)

/-- A format whose elements a scalar load extends with their sign (R255). -/
def signedFormat (f : Option Nat) : Bool :=
  match f with
  | some n => n = 0x10 || n = 0x11 || n = 0x12 || n = 0x13 || n = 0x14 || n = 0x17
  | none => false

/-- l.lde and l.ldei (R255). -/
def loadElement (s : State) (o : OpH) (inv : Bool) : State :=
  if s.guard slotL o.g then
    s.operand slotL o.h o.cb o.zm false accLoad fun s p =>
      s.reach slotL o.h p accLoad fun s q =>
        s.outstanding { slot := slotL, bundle := s.bundlePc, dst := o.d, inv := inv,
                        data := .element q p.bit p.width (signedFormat p.fmt), mapv := s.mapVersion }
  else s

/-- l.lde (R255). -/
def execLLde (o : OpH) (s : State) : Out := .next (loadElement s o false)
/-- l.ldei (R255, R82). -/
def execLLdei (o : OpH) (s : State) : Out := .next (loadElement s o true)

/-- Elements of a row (R256). -/
def rowCount (o : Operand) : Nat := 4096 / o.width

/-- The lanes of a row that are accessed, with tile and bit offset (R256). -/
def rowLanes (s : State) (x : Fin 8) (p : Operand) (cb : BitVec 6) (zm : BitVec 4) (g : BitVec 4) :
    List (Nat × Nat × Nat) :=
  (List.range (rowCount p)).filterMap fun e =>
    if s.laneOn x g (rowCount p) e && rowInside p e then (rowLane s x p cb zm e).map fun a => (e, a.1, a.2) else none

/-- The register before the data of a row land: lanes beyond DIM0 that take effect are zero (R256). -/
def rowBase (s : State) (x : Fin 8) (p : Operand) (g : BitVec 4) (v : Vec) : Vec :=
  upTo (rowCount p) (fun e acc =>
    if s.laneOn x g (rowCount p) e && !rowInside p e then setLane acc p.width e 0 else acc) v

/-- The accessed tiles of a row are reached, or the access ends with the first that is not (R256). -/
def State.reachRow (s : State) (x : Fin 8) (h : BitVec 5) (p : Operand) (acc : Nat) (ls : List (Nat × Nat × Nat))
    (f : State → List (Nat × Place × Nat) → State) : State :=
  match resolveLanes s.now.core p (acc = accStore) ls [] s with
  | ((.ok _, _), places, s1) => f s1 places
  | ((.fault q, tile), _, s1) => s1.refuse x q (operandInfo { p with tile := tile } acc x h)
  | ((.transit, tile), _, s1) => s1.inTransit x (operandInfo { p with tile := tile } acc x h)
  | ((.miss, _), _, s1) => s1.reissue x

/-- l.ldv and l.ldvi (R256). -/
def loadRow (s : State) (o : OpH) (inv : Bool) : State :=
  if s.vectorGuard slotL o.g then
    s.operand slotL o.h o.cb o.zm true accLoad fun s p =>
      s.reachRow slotL o.h p accLoad (rowLanes s slotL p o.cb o.zm o.g) fun s1 places =>
        s1.outstanding { slot := slotL, bundle := s1.bundlePc, dst := o.d, inv := inv,
                         data := .row p.width (rowBase s slotL p o.g (s.rdV slotL o.d)) places, mapv := s1.mapVersion }
  else s

/-- l.ldv (R256). -/
def execLLdv (o : OpH) (s : State) : Out := .next (loadRow s o false)
/-- l.ldvi (R256, R82). -/
def execLLdvi (o : OpH) (s : State) : Out := .next (loadRow s o true)

/-! ### Prefetch (R257) -/

/-- A prefetch goes on where its operand is good and its tile is reached as a load reaches it, in stacked DRAM or host
memory; every other prefetch is dropped, and in a deterministic partition each is (R253, R257). -/
def prefetch (s : State) (o : OpH) (f : State → Place → Nat → State) : State :=
  if s.guard slotL o.g && !detCore s s.now.core then
    match evaluate s slotL o.h o.cb o.zm false with
    | .at p => match reachTile s s.now.core p.desc p.tile p.fmt false with
      | (.ok e, s1) => if tteKind e = 1 || tteKind e = 4 then s1 else f s1 { tid := p.tid, tile := p.tile, tte := e } p.bit
      | (.miss, s1) => s1.reissue slotL
      | (_, s1) => s1
    | _ => s
  else s

/-- l.pf (R257): the line stands in L1 afterwards, unless its tile is not held there or its host link is down. -/
def execLPf (o : OpH) (s : State) : Out := .next
  (prefetch s o fun s p b =>
    if cacheable p.tte && (tteKind p.tte ≠ 3 || s.hub.cxlUp) then
      (touchLine s s.now.core (coreCtx s s.now.core) (coreGen s s.now.core) p (b / 1024) false).2
    else s)

/-- l.pf.l2 (R257): the line comes into L2. -/
def execLPfL2 (o : OpH) (s : State) : Out := .next
  (prefetch s o fun s p b => touchHome s (tteKey s p.tte (b / 1024 * 128)) 128 false)

/-- l.pf.tile (R257): the 512 lines of the tile come into L2. -/
def execLPfTile (o : OpH) (s : State) : Out := .next
  (prefetch s o fun s p _ => upTo 512 (fun i st => touchHome st (tteKey st p.tte (128 * i)) 128 false) s)

/-! ### Handles and cursors -/

/-- A handle register is written (R258, R260). -/
def State.resultH (s : State) (d : BitVec 6) (v : BitVec 704) : State :=
  let k := s.me
  let n := d.toNat % 32
  s.setMe { k with regs := { k.regs with h := k.regs.h.set n v (by omega) } }

/-- l.hld (R258): 64 bytes at flat address s[a], as a plain load through h0. -/
def execLHld (o : OpT) (s : State) : Out := .next
  (if s.guard slotL o.g then
    let a := s.rdS slotL o.a
    if fld a 0 6 ≠ 0 then s.slotFault slotL 0x0113
    else s.flatLoad slotL a fun s p =>
      s.outstanding { slot := slotL, bundle := s.bundlePc, dst := o.d, inv := false,
                      data := .descriptor p (fld a 0 16), mapv := s.mapVersion }
  else s)

/-- A cursor coordinate of a handle (R248). -/
def cursor (h : BitVec 704) (x : Nat) : Nat := fld h (512 + 32 * x) 32

/-- l.adv (R260). -/
def execLAdv (o : OpT) (s : State) : Out := .next
  (if s.guard slotL o.g then
    let sel := s.rdS slotL o.a
    let x := fld sel 0 3
    let h := s.rdH (o.d.setWidth 5)
    let d : BitVec 512 := h.setWidth 512
    let v : Int := if bit sel 8 then (s.rdS slotL o.b).toInt else (cursor h x : Int) + (s.rdS slotL o.b).toInt
    if o.d = 0 then s.slotFault slotL 0x0106
    else if fld sel 9 55 ≠ 0 || fld sel 3 5 ≠ 0 || 5 < x then s.slotFault slotL 0x0110
    else if (if x < dRank d then decide (v < 0) || decide ((dDim d x : Int) ≤ v) else v ≠ 0) then
      s.slotFault slotL 0x011C
    else s.resultH o.d (setFld h (512 + 32 * x) 32 v.toNat)
  else s)

/-! ### Gather data -/

/-- An empty queue of the core stalls slot x until it holds an element: the entry stays at the head of its queue. sel is
the selector of R233 that names the queue. -/
def State.awaitQueue (s : State) (x : Fin 8) (sel : Word) : State :=
  (s.reissue x).setMe { (s.reissue x).me with
    stall := some { kind := 8, obj := sel, arg := 0, key := 0, slot := x, dst := 0 } }

/-- l.gpop (R261): the next gathered row, provisionally; an empty queue stalls the slot. -/
def execLGpop (o : OpT) (s : State) : Out := .next
  (if s.guard slotL o.g then
    match s.me.rows with
    | r :: rs => ((s.setMe { s.me with rows := rs }).notePop (.gatherRow r.1 r.2)).resultV slotL o.d r.2
    | [] => s.awaitQueue slotL 0
  else s)

/-! ### Landing (R254, R406) -/

/-- A poisoned word reached a load: a precise fault while its bundle stands uncommitted, an engine fault after it (R387,
R406). -/
def loadFault (s : State) (l : Load) (code : Code) (vec : Bool) : State :=
  match s.me.current with
  | some cur =>
    if cur.pc = l.bundle then s.slotFault l.slot code
    else takeEngine s s.now.core { (FaultInfo.plain 2 code 0 l.bundle) with
      spois := if vec then 0 else 1 <<< l.dst.toNat, vpois := if vec then 1 <<< l.dst.toNat else 0 }
  | none => takeEngine s s.now.core { (FaultInfo.plain 2 code 0 l.bundle) with
      spois := if vec then 0 else 1 <<< l.dst.toNat, vpois := if vec then 1 <<< l.dst.toNat else 0 }

/-- The value of a row, its lanes read one by one, with the first poison met (R256, R406). -/
def readLanes (c : CoreId) (w : Nat) (inv : Bool) :
    List (Nat × Place × Nat) → Vec → Option Code → State → Vec × Option Code × State
  | [], v, q, s => (v, q, s)
  | (e, p, b) :: ls, v, q, s =>
    let r := readElement s c p b w inv
    readLanes c w inv ls (setLane v w e r.1) (q.orElse fun _ => r.2.1) r.2.2

/-- A poisoned completion from the host is reported (R428). -/
def hostError (s : State) (code : Code) : State := if code = 0x6002 then hubRecord s 0x6002 0 else s

/-- The data of a load land in its destination (R254, R255, R256, R258). -/
def landLoad (s : State) (l : Load) : State :=
  let c := s.now.core
  match l.data with
  | .element p b w sg =>
    let r := readElement s c p b w l.inv
    match r.2.1 with
    | some q => loadFault (hostError r.2.2 q) l q false
    | none => r.2.2.resultS l.slot l.dst (if sg then wrap 64 (sextNat w r.1) else BitVec.ofNat 64 r.1)
  | .row w base ls =>
    let r := readLanes c w l.inv ls base none s
    match r.2.1 with
    | some q => loadFault (hostError r.2.2 q) l q true
    | none => r.2.2.resultV l.slot l.dst r.1
  | .descriptor p off =>
    let r := readElement s c p (8 * off) 512 l.inv
    match r.2.1 with
    | some q => loadFault (hostError r.2.2 q) l q false
    | none =>
      let d := BitVec.ofNat 512 r.1
      if descriptorOk d then r.2.2.resultH l.dst (d.setWidth 704)
      else r.2.2.refuse l.slot 0x1207 (layoutInfo 0 accLoad l.slot.val 0 (p.tile % 2 ^ 24))
  | .word w => s.resultS l.slot l.dst w

/-- The memory keys that a load reads. -/
def loadKeys (s : State) (l : Load) : List Nat :=
  match l.data with
  | .element p b _ _ => [tteKey s p.tte (b / 8)]
  | .row _ _ ls => ls.map fun x => tteKey s x.2.1.tte (x.2.2 / 8)
  | .descriptor p off => [tteKey s p.tte off]
  | .word _ => []

/-- The load carries an old version of the slice map, and a slice that has been retired since refuses it (R404). -/
def refusedLoad (s : State) (l : Load) : Bool :=
  l.mapv ≠ s.mapVersion && (loadKeys s l).any fun key =>
    decide (key < 2 ^ 42) && bit (s.tower (towerNo (key / 2 ^ 40))).retired (hashSlice (key % 2 ^ 40))

/-- LOAD_DATA_RETURN (R254): the data of the oldest outstanding load of core c arrive; a load that a retired slice refuses is sent
again under the new map (R404). -/
def execLoadDataReturn (s : State) : Out := .next
  (match s.me.loads with
  | l :: ls =>
    if refusedLoad s l then
      (s.setMe { s.me with loads := { l with mapv := s.mapVersion } :: ls }).dueFirst .loadDataReturn (onCore s.now.core)
    else landLoad (s.setMe { s.me with loads := ls }) l
  | [] => s)

end Sys2Proof.Machine
end

