-- ==== Sys2Proof/Machine/Stores.lean ====
section
/-! DEFINITION. The W slot: element and row stores (R255, R256), atomics with their uses (R262, R77 to R81), fences (R263),
sync objects (R264, R69 to R72), region bindings (R265) and shared ranges (R266), with what happens at the home. -/

namespace Sys2Proof.Machine

/-- Slot W is slot 3 (R188). -/
def slotW : Fin 8 := 3

/-! ### Element and row stores -/

/-- The bytes that width bits of v at bit offset b of a place write: an element narrower than a byte changes only its own
bits (R255). -/
def storeBytes (p : Place) (b width v : Nat) : List StoreByte :=
  let n := (b % 8 + width + 7) / 8
  (List.range n).map fun i =>
    { place := p, off := b / 8 + i, val := BitVec.ofNat 8 (v % 2 ^ width * 2 ^ (b % 8) / 2 ^ (8 * i)),
      msk := BitVec.ofNat 8 ((2 ^ width - 1) * 2 ^ (b % 8) / 2 ^ (8 * i)) }

/-- w.ste (R255): a gate entry of one element. -/
def execWSte (o : OpH) (s : State) : Out := .next
  (if s.guard slotW o.g then
    s.operand slotW o.h o.cb o.zm false accStore fun s p =>
      s.reach slotW o.h p accStore fun s q =>
        s.enterGate (.store s.bundlePc (storeBytes q p.bit p.width (s.rdS slotW o.d).toNat))
  else s)

/-- w.stv (R256): a row as one gate entry. -/
def execWStv (o : OpH) (s : State) : Out := .next
  (if s.vectorGuard slotW o.g then
    s.operand slotW o.h o.cb o.zm true accStore fun s p =>
      let v := s.rdV slotW o.d
      s.reachRow slotW o.h p accStore (rowLanes s slotW p o.cb o.zm o.g) fun s1 places =>
        s1.enterGate (.store s1.bundlePc (places.flatMap fun l => storeBytes l.2.1 l.2.2 p.width (lane v p.width l.1)))
  else s)

/-! ### Atomics -/

/-- The occasion of an atomic at its home: the word's key, operation, use and destination, operand, and s[d] of w.acas. -/
def atomicOccasion (c : CoreId) (key op use : Nat) (d : BitVec 6) (y x : Word) : Occasion :=
  { onCore c with unit := key, addr := BitVec.ofNat 64 (op + 16 * use + 256 * d.toNat), value := y, extra := x }

/-- The result of a returning atomic is due at its destination (R254, R262). -/
def State.returnWord (s : State) (d : BitVec 6) (w : Word) : State :=
  (s.setMe { s.me with loads := s.me.loads ++ [{ slot := slotW, bundle := s.bundlePc, dst := d, inv := false,
                                                 data := .word w, mapv := s.mapVersion }] }).dueFirst .loadDataReturn (onCore s.now.core)

/-- A speculative atomic (R81): the word from the core's L1 copy, or from home with what the core's L1s hold dirty of it under
other handles. -/
def speculative (s : State) (o : OpT) (op : Nat) (a : Word) (tte : BitVec 64) (key : Nat) : State :=
  let p : Place := { tid := 0, tile := fld a 16 48, tte := tte }
  let c := s.now.core
  let line := fld a 7 9
  let held := ((s.core (l1Owner s c p.tile line)).l1.find? fun m => m.isAt (coreCtx s c) (coreGen s c) 0 p.tile line)
  let r : Nat × State := match held with
    | some l => (fld l.data (8 * fld a 0 7) 64, s)
    | none =>
      let s1 := touchHome s key 8 false
      (fld (fillLine s1 c (coreCtx s c) (coreGen s c) 0 p.tile line (key / 128 * 128) false).data (8 * fld a 0 7) 64, s1)
  let m := BitVec.ofNat 64 (gateBits r.2 c p (8 * fld a 0 16) 64 r.1)
  r.2.returnWord o.d (if op = 10 then m else if m = s.rdS slotW o.d then 1 else 0)

/-- An atomic of major 0x08 + op with its declared use (R262). -/
def atomic (op : Fin 11) (o : OpT) (use : BitVec 3) (s : State) : State :=
  if s.guard slotW o.g then
    s.notDet slotW 0x0311 fun s =>
      let a := s.rdS slotW o.a
      let y := s.rdS slotW o.b
      let c := s.now.core
      if fld a 0 3 ≠ 0 then s.slotFault slotW 0x0113
      else match reachHome s c a (op.val ≠ 10 && use ≠ 5) with
        | (.ok tte, key, s1) =>
          match poisonOf s1 key 8 with
          | some q => s1.slotFault slotW q
          | none => match use.toNat with
            | 2 => s1.enterGate (.com s1.bundlePc op (fld a 16 48) key y)
            | 4 => s1.enterGate (.quant s1.bundlePc (fld a 16 48) key y (o.d.setWidth 4))
            | 5 => speculative s1 o op.val a tte key
            | u =>
              let s2 := if u = 0 then fullRelease s1 c else s1
              s2.dueFirst .atomicAtHome (atomicOccasion c key op.val u o.d y (s1.rdS slotW o.d))
        | (.fault q, _, s1) => s1.refuse slotW q (flatInfo accAtomic 3 a)
        | (.transit, _, s1) => s1.inTransit slotW (flatInfo accAtomic 3 a)
        | (.miss, _, s1) => s1.reissue slotW
  else s

/-- w.aadd (R262). -/
def execWAadd (o : OpT) (use : BitVec 3) (s : State) : Out := .next (atomic 0 o use s)
/-- w.aand (R262). -/
def execWAand (o : OpT) (use : BitVec 3) (s : State) : Out := .next (atomic 1 o use s)
/-- w.aor (R262). -/
def execWAor (o : OpT) (use : BitVec 3) (s : State) : Out := .next (atomic 2 o use s)
/-- w.axor (R262). -/
def execWAxor (o : OpT) (use : BitVec 3) (s : State) : Out := .next (atomic 3 o use s)
/-- w.amin (R262). -/
def execWAmin (o : OpT) (use : BitVec 3) (s : State) : Out := .next (atomic 4 o use s)
/-- w.amax (R262). -/
def execWAmax (o : OpT) (use : BitVec 3) (s : State) : Out := .next (atomic 5 o use s)
/-- w.aminu (R262). -/
def execWAminu (o : OpT) (use : BitVec 3) (s : State) : Out := .next (atomic 6 o use s)
/-- w.amaxu (R262). -/
def execWAmaxu (o : OpT) (use : BitVec 3) (s : State) : Out := .next (atomic 7 o use s)
/-- w.aswp (R262). -/
def execWAswp (o : OpT) (use : BitVec 3) (s : State) : Out := .next (atomic 8 o use s)
/-- w.acas (R262). -/
def execWAcas (o : OpT) (use : BitVec 3) (s : State) : Out := .next (atomic 9 o use s)
/-- w.ard (R262). -/
def execWArd (o : OpT) (use : BitVec 3) (s : State) : Out := .next (atomic 10 o use s)

/-- The word of an atomic as it stands at home: the core's dirty bytes of the line and combined operands first (R77,
R79). -/
def homeWord (s : State) (c : CoreId) (key : Nat) : State := touchHome (dropHome s c key) key 8 true

/-- ATOMIC_AT_HOME (R77): the atomic is performed; its old word is on its way; the synchronising use acquires. -/
def execAtomicAtHome (s : State) : Out := .next
  (let o := s.now
   let s1 := homeWord s o.core o.unit
   let old := readWord s1 o.unit
   let op := fld o.addr 0 4
   let s2 := if op = 10 then s1 else writeWord s1 o.unit (atomicNew op old o.value o.extra)
   let s3 := if fld o.addr 4 4 = 0 then fullAcquire s2 o.core else s2
   s3.returnWord (BitVec.ofNat 6 (fld o.addr 8 6)) old)

/-- COMBINE_BUFFER_FLUSH (R79): the slices of tower t apply what they have combined. -/
def execCombineBufferFlush (s : State) : Out := .next (flushCombined s s.now.tower)

/-! ### Fences (R263) -/

/-- w.frel (R263). -/
def execWFrel (o : OpT) (s : State) : Out := .next (if s.guard slotW o.g then fullRelease s s.now.core else s)
/-- w.facq (R263). -/
def execWFacq (o : OpT) (s : State) : Out := .next (if s.guard slotW o.g then fullAcquire s s.now.core else s)
/-- w.fall (R263). -/
def execWFall (o : OpT) (s : State) : Out := .next
  (if s.guard slotW o.g then fullAcquire (fullRelease s s.now.core) s.now.core else s)

/-! ### Sync objects -/

/-- An entry that faults the instruction that names it: V = 0, FIRST > LAST, or SYNC on a host-range tile (R67). -/
def bindBroken (s : State) (e : BitVec 256) : Bool :=
  !bValid e || decide (bLast e < bFirst e)
    || (match reachOf (resolveFlat s (coreView s s.now.core) (fld (bSync e) 16 48)).1 with
      | .ok t => bit t 63 && tteKind t = 3
      | _ => false)

/-- A request that may suspend its continuation waits for the passes in flight first (R351). -/
def State.awaitsPasses (s : State) : Bool := s.suspension.isSome && !s.me.mat.passes.isEmpty

/-- w.acq (R264): the request goes to the object's home, and the slot waits for the grant. -/
def execWAcq (o : OpI) (s : State) : Out := .next
  (if s.guard slotW o.g then
    s.notDet slotW 0x0311 fun s =>
      let i := (fld (s.rdS slotW o.a) 0 6 + fld o.imm 0 6) % 64
      let e := bindEntry s.me i
      let a := bSync e
      let info := flatInfo accAtomic 3 a
      if bindBroken s e then s.refuse slotW 0x1104 info
      else if bit s.me.held i then s.refuse slotW 0x1105 info
      else if s.awaitsPasses then s.reissue slotW
      else s.atHome slotW a accAtomic true 8 fun s key =>
        let w : Wait := { kind := waitAcquire, obj := BitVec.ofNat 64 i, arg := BitVec.ofNat 64 (fld o.imm 6 1),
                          key := key, slot := slotW, dst := o.d }
        (s.setMe { s.me with stall := some w }).dueFirst .syncAcquireAtHome { onCore s.now.core with unit := key }
  else s)

/-- An acquire that is not granted at once joins the waiters: a stalled core, or a record that suspends (R71). -/
def queueAcquire (s : State) (c : CoreId) (t : TowerId) (w : Wait) : State :=
  let q := s.tower t
  let entry : SyncWait := { key := w.key, excl := w.arg = 0, ctx := coreCtx s c, gen := coreGen s c, core := some c,
                            record := (match (s.core c).run with | some r => r.record | none => 0), granted := false }
  match s.suspension with
  | some e =>
    let full := waitsFull s t w.key
    let s1 := if full then s else s.setTower t { q with syncs := q.syncs ++ [{ entry with core := none }] }
    s1.suspendAt e (if full then 4 else 3) slotW w
  | none => s.setTower t { q with syncs := q.syncs ++ [entry] }

/-- SYNC_ACQUIRE_AT_HOME (R69, R71, R72): stale holders are cleared, holders of another context refuse the acquire, and it
is granted or queued. A record whose grant waits for it takes it. -/
def execSyncAcquireAtHome (s : State) : Out := .next
  (let c := s.now.core
   let key := s.now.unit
   let t := towerNo (key / 2 ^ 40)
   match s.me.stall with
   | none => s
   | some w =>
     let q := s.tower t
     let rc := match s.me.run with | some r => r.record | none => 0
     match q.syncs.find? fun x => x.key = key && x.granted && x.core.isNone && x.record = rc with
     | some x => completeAcquire (s.setTower t { q with syncs := eraseFirst (fun y => y = x) q.syncs }) c (readWord s key)
     | none =>
       let old := readWord s key
       let s1 := if syncStale s old then writeWord s key (syncClear old) else s
       let word := readWord s1 key
       if syncHeld word && syncCtx word ≠ coreCtx s1 c then
         s1.unstall.refuse slotW 0x1106 (flatInfo accAtomic 3 (bSync (bindEntry s1.me w.obj.toNat)))
       else if (syncWaiters s1 t key).isEmpty && syncCompatible word (w.arg = 0) then
         let word1 := syncGrant word (w.arg = 0) (coreCtx s1 c) (coreGen s1 c)
         completeAcquire (writeWord s1 key word1) c word1
       else queueAcquire s1 c t w)

/-- w.rel (R264): stores to an exclusive region are performed at home, and the release goes there. -/
def execWRel (o : OpI) (s : State) : Out := .next
  (if s.guard slotW o.g then
    s.notDet slotW 0x0311 fun s =>
      let i := (fld (s.rdS slotW o.a) 0 6 + fld o.imm 0 6) % 64
      let e := bindEntry s.me i
      let a := bSync e
      if !bit s.me.held i then s.refuse slotW 0x1105 (flatInfo accAtomic 3 a)
      else if bindBroken s e then s.refuse slotW 0x1104 (flatInfo accAtomic 3 a)
      else s.atHome slotW a accAtomic true 8 fun s key =>
        let c := s.now.core
        let shared := bit s.me.hmode i
        let s1 := flushCombined (flushQuantum s c) (towerOf c)
        let mine : L1Line → Bool := fun l => l.ctx = coreCtx s c && l.gen = coreGen s c && inRegion e l
        let s2 := if shared then s1 else (l1Cores s1 c).foldl (fun st d => writeBackLines st d mine) s1
        s2.dueFirst .syncReleaseAtHome { onCore c with unit := key, addr := BitVec.ofNat 64 i }
  else s)

/-- SYNC_RELEASE_AT_HOME (R70): the hold ends at the home, compatible waiters are granted, and HELD[i] falls. -/
def execSyncReleaseAtHome (s : State) : Out := .next
  (let i := s.now.addr.toNat % 64
   let key := s.now.unit
   let t := towerNo (key / 2 ^ 40)
   let s1 := writeWord s key (syncRelease (readWord s key) (!bit s.me.hmode i))
   let s2 := s1.setMe { s1.me with held := setBit s1.me.held i false }
   grantWaiters t key (s2.tower t).syncs.length s2)

/-! ### Region bindings -/

/-- w.bind (R265): the entry image is installed in the core's copy and in the table. -/
def execWBind (o : OpT) (s : State) : Out := .next
  (if s.guard slotW o.g then
    let i := s.rdS slotW o.a
    let b := s.rdS slotW o.b
    let c := s.now.core
    if fld i 6 58 ≠ 0 then s.slotFault slotW 0x0110
    else if fld b 0 5 ≠ 0 then s.slotFault slotW 0x0113
    else if bit s.me.held i.toNat then s.refuse slotW 0x1105 (flatInfo accLoad 3 b)
    else s.flatLoad slotW b fun s p =>
      let r := readElement s c p (8 * fld b 0 16) 256 false
      match r.2.1 with
      | some q => r.2.2.slotFault slotW q
      | none =>
        let e := BitVec.ofNat 256 r.1
        let s1 := r.2.2
        if bValid e && bindBroken s1 e then s1.refuse slotW 0x1104 (flatInfo accLoad 3 b)
        else
          let at_ := s1.me.bindb + 32 * i
          match reachTile s1 c none (fld at_ 16 48) none true with
          | (.ok t, s2) =>
            let key := tteKey s2 t (fld at_ 0 16)
            let s3 := writeHome s2 c key 32 e.toNat
            s3.setMe { s3.me with binds := s3.me.binds.setIfInBounds i.toNat e }
          | (.fault q, s2) => s2.refuse slotW q (flatInfo accStore 3 at_)
          | (.transit, s2) => s2.inTransit slotW (flatInfo accStore 3 at_)
          | (.miss, s2) => s2.reissue slotW
  else s)

/-! ### Shared ranges -/

/-- A range request would complete at once: the range stands as it asks (R58). -/
def rangeDone (e : BitVec 128) (release : Bool) : Bool := if release then rOwn e = 1 else rOwn e = 0

/-- The status of a range request reaches its core; completion of an acquire is a full acquire (R266, R58, R73). -/
def completeRange (s : State) (c : CoreId) (w : Wait) (status : Code) : State :=
  let k := { s.core c with stall := none }
  let s1 := s.setCore c (k.writeNow s.freeN w.slot (.s w.dst) (status.setWidth 4096))
  if w.arg = 0 then fullAcquire s1 c else s1

/-- w.racq and w.rrel (R266): the request goes to the walker of the lowest tower of the context's partition. -/
def rangeRequest (s : State) (o : OpT) (release : Bool) : State :=
  if s.guard slotW o.g then
    s.notDet slotW 0x0311 fun s =>
      let i := s.rdS slotW o.a
      let c := s.now.core
      let v := coreView s c
      if fld i 5 59 ≠ 0 then s.slotFault slotW 0x0110
      else
        let e := rangeEntry s v i.toNat
        if !ctxValid s v.ctx || !rValid e || rOwn e = 3 then s.refuse slotW 0x1103 (flatInfo accLoad 3 0)
        else if s.awaitsPasses then s.reissue slotW
        else
          let s1 := if release then fullRelease s c else s
          let t := lowTower s1 v.ctx
          let rc := match s1.me.run with | some r => r.record | none => 0
          let w : Wait := { kind := waitRange, obj := i, arg := if release then 1 else 0, key := 0, slot := slotW, dst := o.d }
          let id := 2 * i.toNat + release.toNat
          match (s1.tower t).answers.find? fun a => a.1 = rc && a.2.1 = id with
          | some a =>
            let q := s1.tower t
            completeRange (s1.setTower t { q with answers := eraseFirst (fun b => b = a) q.answers }) c w a.2.2
          | none =>
            let req : WalkReq := { kind := if release then 4 else 3, record := rc, ctx := v.ctx, gen := v.gen, a2 := i,
                                   a3 := 0, acc := 0, tag := 0, tid := 0, core := some c, dst := o.d,
                                   entry := if release then 4 else 3, unit := 0, tile := 0, leaf := 0 }
            match (if rangeDone e release then none else s1.suspension) with
            | some y => (s1.askWalker t { req with core := none }).suspendAt y 3 slotW w
            | none => (s1.askWalker t req).setMe { (s1.askWalker t req).me with stall := some w }
  else s

/-- w.racq (R266). -/
def execWRacq (o : OpT) (s : State) : Out := .next (rangeRequest s o false)
/-- w.rrel (R266). -/
def execWRrel (o : OpT) (s : State) : Out := .next (rangeRequest s o true)

end Sys2Proof.Machine
end

