-- ==== Sys2Proof/Machine/Transcend.lean ====
section
/-! DEFINITION. Transcendentals (R110, R111): the reproducible forms are the exact function rounded once, found from an
enclosure of its value in fixed point with 256 fraction bits; the fast forms are free values within their bounds. -/

namespace Sys2Proof.Machine

/-- The approximate functions (R110). -/
inductive Trans7 where
  | exp2 | log2 | rcp | rsqrt | tanh | sin | cos
  deriving DecidableEq, Repr

def Trans7.code : Trans7 → Nat
  | .exp2 => 0 | .log2 => 1 | .rcp => 2 | .rsqrt => 3 | .tanh => 4 | .sin => 5 | .cos => 6

/-- An enclosure: the value itself, or a value strictly between (man − err) and (man + err + 1) units 2^exp. -/
structure Enclosure where
  neg : Bool
  man : Nat
  exp : Int
  exact : Bool
  err : Nat
  deriving DecidableEq, Repr

/-! ### Fixed point -/

/-- Fraction bits. -/
def fpBits : Nat := 256
def fpOne : Nat := 2 ^ fpBits
def fpMul (a b : Nat) : Nat := a * b / fpOne
/-- ln 2 and 2π in units 2^−256, rounded down. -/
def fpLn2 : Nat := 80260960185991308862233904206310070533990667611589946606122867505419956976171
def fpTwoPi : Nat := 727543153783532648560469885555459725306786754656784859917544302235877788932370
/-- Units by which the series below may be off. -/
def fpErr : Nat := 65536

/-- e^y for 0 ≤ y < 1 by its series, from the k-th term inward. -/
def expSeries (y : Nat) : Nat → Nat → Nat
  | 0, acc => acc
  | k + 1, acc => expSeries y k (fpOne + fpMul y acc / (k + 1))
def fpExp (y : Nat) : Nat := expSeries y 70 fpOne

/-- sin t / t and cos t for 0 ≤ t < 1, t2 its square. -/
def sinSeries (t2 : Nat) : Nat → Nat → Nat
  | 0, acc => acc
  | k + 1, acc => sinSeries t2 k (fpOne - fpMul t2 acc / ((2 * k + 2) * (2 * k + 3)))
def cosSeries (t2 : Nat) : Nat → Nat → Nat
  | 0, acc => acc
  | k + 1, acc => cosSeries t2 k (fpOne - fpMul t2 acc / ((2 * k + 1) * (2 * k + 2)))
def fpSin (t : Nat) : Nat := fpMul t (sinSeries (fpMul t t) 40 fpOne)
def fpCos (t : Nat) : Nat := cosSeries (fpMul t t) 40 fpOne

/-- artanh z for 0 ≤ z ≤ 1/3. -/
def atanhSeries (z2 : Nat) : Nat → Nat → Nat
  | 0, acc => acc
  | k + 1, acc => atanhSeries z2 k (fpOne / (2 * k + 1) + fpMul z2 acc)
def fpAtanh (z : Nat) : Nat := fpMul z (atanhSeries (fpMul z z) 90 0)

/-- The whole square root, bit by bit from bit b - 1 down. -/
def isqrtFrom (n : Nat) : Nat → Nat → Nat
  | 0, r => r
  | b + 1, r => isqrtFrom n b (if (r + 2 ^ b) * (r + 2 ^ b) ≤ n then r + 2 ^ b else r)

/-! ### Enclosures of the functions, of a finite operand that is not special -/

/-- man × 2^exp as a fixed-point number, its exponent at least −256. -/
def toFixed (man : Nat) (exp : Int) : Nat := man * 2 ^ (exp + fpBits).toNat

def encExp2 (neg : Bool) (man : Nat) (exp : Int) : Enclosure :=
  if 14 ≤ (Nat.log2 man : Int) + exp then
    { neg := false, man := 1, exp := if neg then -16384 else 16384, exact := true, err := 0 }
  else
    let x : Int := toFixed man exp
    let sx := if neg then -x else x
    let n := sx / (fpOne : Int)
    let f := (sx % (fpOne : Int)).toNat
    if f = 0 then { neg := false, man := 1, exp := n, exact := true, err := 0 }
    else { neg := false, man := fpExp (fpMul f fpLn2), exp := n - fpBits, exact := false, err := fpErr }

def encLog2 (man : Nat) (exp : Int) : Enclosure :=
  let k := Nat.log2 man
  let whole : Int := (k : Int) + exp
  if man = 2 ^ k then { neg := decide (whole < 0), man := whole.natAbs, exp := 0, exact := true, err := 0 }
  else
    let z := (man - 2 ^ k) * fpOne / (man + 2 ^ k)
    let l := 2 * fpAtanh z * fpOne / fpLn2
    let v : Int := whole * (fpOne : Int) + l
    { neg := decide (v < 0), man := v.natAbs, exp := -(fpBits : Int), exact := false, err := fpErr }

def encRcp (neg : Bool) (man : Nat) (exp : Int) : Enclosure :=
  { neg := neg, man := 2 ^ 80 / man, exp := -80 - exp, exact := 2 ^ 80 % man = 0, err := 0 }

def encRsqrt (man : Nat) (exp : Int) : Enclosure :=
  let m := if exp % 2 = 0 then man else 2 * man
  let e := exp / 2
  let r := isqrtFrom (2 ^ 160 / m) 81 0
  { neg := false, man := r, exp := -80 - e, exact := r * r * m = 2 ^ 160, err := 0 }

def encTanh (neg : Bool) (man : Nat) (exp : Int) : Enclosure :=
  let lg := (Nat.log2 man : Int) + exp
  if lg < -13 then { neg := neg, man := man * 2 ^ 28 - 1, exp := exp - 28, exact := false, err := 0 }
  else if 7 ≤ lg then { neg := neg, man := fpOne - 1, exp := -(fpBits : Int), exact := false, err := 0 }
  else
    let y := 2 * toFixed man exp
    let k := y / fpLn2
    let e := fpExp (y - k * fpLn2)
    let u := fpOne * fpOne / (e * 2 ^ k)
    { neg := neg, man := (fpOne - u) * fpOne / (fpOne + u), exp := -(fpBits : Int), exact := false, err := fpErr }

/-- sin 2πg and cos 2πg for 0 < g < 1/4. -/
def fpSinTurn (g : Nat) : Nat :=
  if 8 * g ≤ fpOne then fpSin (fpMul g fpTwoPi) else fpCos (fpMul (fpOne / 4 - g) fpTwoPi)
def fpCosTurn (g : Nat) : Nat :=
  if 8 * g ≤ fpOne then fpCos (fpMul g fpTwoPi) else fpSin (fpMul (fpOne / 4 - g) fpTwoPi)

/-- sin 2πx (wave false) and cos 2πx (wave true), their arguments reduced exactly; zeros as R110 gives them. -/
def encWave (wave neg : Bool) (man : Nat) (exp : Int) : Enclosure :=
  let f := toFixed man exp % fpOne
  let q := (f * 4 / fpOne + (if wave then 1 else 0)) % 4
  let g := f - f * 4 / fpOne * (fpOne / 4)
  let flip := decide (2 ≤ q)
  if g = 0 then
    if q % 2 = 0 then { neg := !wave && neg, man := 0, exp := 0, exact := true, err := 0 }
    else { neg := flip ^^ (!wave && neg), man := 1, exp := 0, exact := true, err := 0 }
  else
    { neg := flip ^^ (!wave && neg), man := if q % 2 = 0 then fpSinTurn g else fpCosTurn g,
      exp := -(fpBits : Int), exact := false, err := fpErr }

/-- The enclosure of f(x) for a finite x that the special-value table does not name. -/
def enclose (f : Trans7) (neg : Bool) (man : Nat) (exp : Int) : Enclosure :=
  match f with
  | .exp2 => encExp2 neg man exp
  | .log2 => encLog2 man exp
  | .rcp => encRcp neg man exp
  | .rsqrt => encRsqrt man exp
  | .tanh => encTanh neg man exp
  | .sin => encWave false neg man exp
  | .cos => encWave true neg man exp

/-! ### Results -/

/-- An enclosure of zero itself. -/
def Enclosure.isZero (a : Enclosure) : Bool := a.exact && a.man = 0

/-- man × 2^exp is 1. -/
def isOne (man : Nat) (exp : Int) : Bool := man = 2 ^ Nat.log2 man && (Nat.log2 man : Int) + exp = 0

/-- The special values of R110, zeros of sin and cos among them. -/
def specialValue (f : Trans7) (F : FloatFmt) (x : Num) : Option (Nat × Flags) :=
  match f, x with
  | _, .nan => some (F.nanCode, 0)
  | .exp2, .inf neg => some (if neg then 0 else F.infCode, 0)
  | .log2, .inf neg => some (if neg then (F.nanCode, fNV) else (F.infCode, 0))
  | .rcp, .inf neg => some (F.signed neg 0, 0)
  | .rsqrt, .inf neg => some (if neg then (F.nanCode, fNV) else (0, 0))
  | .tanh, .inf neg => some ((F.round (.fin neg 1 0) 0 false 0).1, 0)
  | .sin, .inf _ => some (F.nanCode, fNV)
  | .cos, .inf _ => some (F.nanCode, fNV)
  | .exp2, .fin _ m _ => if m = 0 then some ((F.round (.fin false 1 0) 0 false 0).1, 0) else none
  | .log2, .fin neg m e =>
    if m = 0 then some (F.signed true F.infCode, fDZ) else if neg then some (F.nanCode, fNV)
    else if isOne m e then some (0, 0) else none
  | .rcp, .fin neg m _ => if m = 0 then some (F.signed neg F.infCode, fDZ) else none
  | .rsqrt, .fin neg m _ =>
    if m = 0 then some (F.signed neg F.infCode, fDZ) else if neg then some (F.nanCode, fNV) else none
  | .tanh, .fin neg m _ => if m = 0 then some (F.signed neg 0, 0) else none
  | .sin, .fin neg m e => if (encWave false neg m e).isZero then some (F.signed neg 0, 0) else none
  | .cos, .fin neg m e =>
    if m = 0 then some ((F.round (.fin false 1 0) 0 false 0).1, 0)
    else if (encWave true neg m e).isZero then some (0, 0) else none

/-- An enclosure rounded under RNE. Its ends round alike: no operand of at most 24 significant bits takes a function's value so near a
boundary between two results (log 13). -/
def roundEnclosure (F : FloatFmt) (a : Enclosure) : Nat × Flags :=
  if a.exact then F.round (.fin a.neg a.man a.exp) 0 false 0
  else F.round (.fin a.neg (2 * a.man + 1) (a.exp - 1)) 0 false 0

/-- The reproducible form (R110). -/
def reproducible (f : Trans7) (F : FloatFmt) (code : Nat) : Nat × Flags :=
  let x := F.decode code
  match specialValue f F x with
  | some r => r
  | none => match x with
    | .fin neg m e => roundEnclosure F (enclose f neg m e)
    | _ => (F.nanCode, 0)

/-- A bound num × 2^exp on the distance of a fast result from the exact one (R111). -/
def fastBound (f : Trans7) (F : FloatFmt) (x : Num) (a : Enclosure) : Nat × Int :=
  let lg := (Nat.log2 a.man : Int) + a.exp
  let ulp := max lg F.emin - F.m
  match f with
  | .exp2 => (2, ulp)
  | .log2 => if (x.lt (.fin false 1 (-1))) || (Num.fin false 1 1).lt x then (2, ulp) else (1, -21)
  | .rcp => (1, ulp)
  | .rsqrt => (2, ulp)
  | .tanh => if x.abs.lt (.fin false 1 (-10)) then (1, -24) else (3, ulp)
  | .sin | .cos => if x.abs.lt (.fin false 1 22) then (1, -21) else (0, 0)

/-- Whether a finite candidate lies within the bound of every value of the enclosure. -/
def withinBound (y : Num) (a : Enclosure) (b : Nat × Int) : Bool :=
  match y with
  | .fin .. =>
    let e := min y.expo (min a.exp b.2)
    let v := y.at e
    let mid : Num := .fin a.neg a.man a.exp
    let slack : Int := if a.exact then 0 else ((a.err + 1) * 2 ^ (a.exp - e).toNat : Nat)
    decide ((v - mid.at e).natAbs + slack ≤ (b.1 * 2 ^ (b.2 - e).toNat : Nat))
  | _ => false

/-- The fast form (R111; log 10): a free value where it keeps the bound, the reproducible result where it does not; the
special values as R110 gives them and the exact result where R111 asks for it; NX wherever the reproducible form raises it, the rest of OF, UF and NX free. -/
def fastForm (f : Trans7) (F : FloatFmt) (code : Nat) : Nat × Flags :=
  let x := F.decode code
  match specialValue f F x with
  | some r => r
  | none => match x with
    | .fin neg m e =>
      let a := enclose f neg m e
      let r := roundEnclosure F a
      let q := Config.fastValue f.code F.width (BitVec.ofNat 32 code)
      let y := q.toNat % 2 ^ F.width
      let fl := (Config.fastFlags f.code F.width (BitVec.ofNat 32 code) &&& (fOF ||| fUF ||| fNX)) ||| (r.2 &&& fNX)
      let b := fastBound f F x a
      if b.1 = 0 then r
      else if withinBound (F.decode y) a b then (y, fl) else (r.1, fl)
    | _ => (F.nanCode, 0)

end Sys2Proof.Machine
end

