-- ==== Sys2Proof/Machine/Flags.lean ====
section
/-! DEFINITION. Flags of the vector and transposer slots (R102, R103, R268, R380), XMODE (R270), and results element by
element with their flags (R267, R268). -/

namespace Sys2Proof.Machine

/-- Slot V is slot 4, slot X slot 5 (R188). -/
def slotV : Fin 8 := 4
def slotX : Fin 8 := 5

/-! ### XMODE (R270) -/

def xRm (s : State) : Nat := fld s.me.regs.xmode 0 3
def xVrm (s : State) : Nat := fld s.me.regs.xmode 3 3
def xVsat (s : State) : Bool := bit s.me.regs.xmode 8
def xPart (s : State) : Nat := fld s.me.regs.xmode 12 4
def xEw (s : State) : Nat := fld s.me.regs.xmode 16 2
def xHi (s : State) : Bool := bit s.me.regs.xmode 19
def xTs (s : State) : Nat := fld s.me.regs.xmode 20 4
def xMxf (s : State) : Nat := fld s.me.regs.xmode 26 6
/-- The element width that EW names. -/
def xWidth (s : State) : Nat := 4 * 2 ^ xEw s

/-- The random bits of destination element e (R269). -/
def elementBits (s : State) (e : Nat) : BitVec 32 := srLane s.me.regs.srseed s.me.regs.srstr e

/-! ### Elementwise results -/

/-- Elements 0 to n - 1 of w bits over an old register: those that are on take f's value and raise f's flags, the others
keep theirs (R267). -/
def mapElements (n w : Nat) (old : Vec) (on : Nat → Bool) (f : Nat → Nat × Flags) : Vec × Flags :=
  upTo n (fun e acc =>
    if on e then
      let r := f e
      (setLane acc.1 w e r.1, acc.2 ||| r.2)
    else acc) (old, 0)

/-- A result of slot V or X: it lands after lat entries (R205), and its flags wait for the commit or trap (R268, R380). -/
def State.resultVX (s : State) (x : Fin 8) (ref : RegRef) (v : Vec) (fl : Flags) (lat : Nat) : State :=
  (s.setMe (s.me.writeLater s.freeN x ref v lat false)).raiseFlags x fl

/-- The physical vector register that a field names (R209). -/
def vecRef (s : State) (d : BitVec 6) : RegRef := .v (vphys s.me.regs.rot d)

/-- An instruction whose result is formed element by element over the destination (R267): count, width, latency. -/
def elementwise (s : State) (x : Fin 8) (o : OpT) (n w lat : Nat) (f : Nat → Nat × Flags) : State :=
  if s.vectorGuard x o.g then
    let r := mapElements n w (s.rdV x o.d) (s.laneOn x o.g n) f
    s.resultVX x (vecRef s o.d) r.1 r.2 lat
  else s

end Sys2Proof.Machine
end

