-- ==== Sys2Proof/Machine/Vector.lean ====
section
/-! DEFINITION. The V slot: float arithmetic and compares (R272 to R274), integer and mask operations (R275, R276),
reductions (R277), permutes (R278), transcendentals (R279), and scale extraction (R280). -/

namespace Sys2Proof.Machine

/-! ### Types (R267) -/

/-- The float format of ty. -/
def floatTy (ty : BitVec 3) : FloatFmt :=
  match ty.toNat with
  | 0 => fp32 | 1 => bf16 | 2 => fp16 | 3 => e4m3 | _ => e5m2

/-- The integer width of ty. -/
def intTy (ty : BitVec 3) : Nat := match ty.toNat with | 0 => 32 | 1 => 16 | _ => 8

/-- Elements of w bits. -/
def countOf (w : Nat) : Nat := 4096 / w

/-! ### Float arithmetic (R272) -/

/-- An elementwise float operation: the exact value of f on the decoded elements x, y, z, rounded once under VRM. -/
def floatOp (s : State) (o : OpT) (ty : BitVec 3) (f : Nat → Num → Num → Num → Num × Flags) : State :=
  let F := floatTy ty
  let w := F.width
  let a := s.rdV slotV o.a
  let b := s.rdV slotV o.b
  let d := s.rdV slotV o.d
  let rm := xVrm s
  let sat := ty ≠ 0 && xVsat s
  elementwise s slotV o (countOf w) w 4 fun e =>
    let r := f rm (F.decode (lane a w e)) (F.decode (lane b w e)) (F.decode (lane d w e))
    let c := F.round r.1 rm sat (elementBits s e)
    (c.1, r.2 ||| c.2)

/-- One, and the addend of a product (R104). -/
def numOne : Num := .fin false 1 0
def numNegZero : Num := .fin true 0 0

/-- v.fadd (R272). -/
def execVFadd (o : OpT) (ty : BitVec 3) (s : State) : Out := .next (floatOp s o ty fun rm x y _ => fmaNum x numOne y rm)
/-- v.fsub (R272). -/
def execVFsub (o : OpT) (ty : BitVec 3) (s : State) : Out := .next
  (floatOp s o ty fun rm x y _ => fmaNum x numOne y.neg rm)
/-- v.fmul (R272). -/
def execVFmul (o : OpT) (ty : BitVec 3) (s : State) : Out := .next
  (floatOp s o ty fun rm x y _ => fmaNum x y numNegZero rm)
/-- v.fma (R272). -/
def execVFma (o : OpT) (ty : BitVec 3) (s : State) : Out := .next (floatOp s o ty fun rm x y z => fmaNum x y z rm)
/-- v.fnma (R272): the sign of x inverted. -/
def execVFnma (o : OpT) (ty : BitVec 3) (s : State) : Out := .next
  (floatOp s o ty fun rm x y z => fmaNum x.neg y z rm)

/-- v.fmax and v.fmin (R272): nothing is rounded, no flag. -/
def floatPick (s : State) (o : OpT) (ty : BitVec 3) (isMax : Bool) : State :=
  let F := floatTy ty
  let w := F.width
  let a := s.rdV slotV o.a
  let b := s.rdV slotV o.b
  elementwise s slotV o (countOf w) w 4 fun e => (fMaxMin F isMax (lane a w e) (lane b w e), 0)

/-- v.fmax (R272). -/
def execVFmax (o : OpT) (ty : BitVec 3) (s : State) : Out := .next (floatPick s o ty true)
/-- v.fmin (R272). -/
def execVFmin (o : OpT) (ty : BitVec 3) (s : State) : Out := .next (floatPick s o ty false)

/-! ### Compares (R273) -/

/-- A compare into a mask: the bits of an element that is on take f's answer. -/
def compareElements (s : State) (o : OpT) (w lat : Nat) (f : Nat → Bool × Flags) : State :=
  if s.vectorGuard slotV o.g then
    let n := countOf w
    let per := 512 / n
    let old := (s.rdK slotV (o.d.setWidth 3)).setWidth 4096
    let r := mapElements n per old (s.laneOn slotV o.g n) fun e =>
      let q := f e
      (if q.1 then 2 ^ per - 1 else 0, q.2)
    s.resultVX slotV (.k (o.d.setWidth 3)) r.1 r.2 lat
  else s

/-- A float compare; a NaN operand is false and raises nanFlag. -/
def floatCompare (s : State) (o : OpT) (ty : BitVec 3) (nanFlag : Flags) (f : Num → Num → Bool) : State :=
  let F := floatTy ty
  let w := F.width
  let a := s.rdV slotV o.a
  let b := s.rdV slotV o.b
  compareElements s o w 4 fun e =>
    match F.decode (lane a w e), F.decode (lane b w e) with
    | .nan, _ => (false, nanFlag)
    | _, .nan => (false, nanFlag)
    | x, y => (f x y, 0)

/-- v.fceq (R273). -/
def execVFceq (o : OpT) (ty : BitVec 3) (s : State) : Out := .next
  (floatCompare s o ty 0 fun x y => !x.lt y && !y.lt x)
/-- v.fclt (R273). -/
def execVFclt (o : OpT) (ty : BitVec 3) (s : State) : Out := .next (floatCompare s o ty fNV fun x y => x.lt y)
/-- v.fcle (R273). -/
def execVFcle (o : OpT) (ty : BitVec 3) (s : State) : Out := .next (floatCompare s o ty fNV fun x y => !y.lt x)

/-- An integer compare. -/
def intCompare (s : State) (o : OpT) (ty : BitVec 3) (f : Int → Int → Bool) : State :=
  let w := intTy ty
  let a := s.rdV slotV o.a
  let b := s.rdV slotV o.b
  compareElements s o w 2 fun e => (f (sextNat w (lane a w e)) (sextNat w (lane b w e)), 0)

/-- v.ceq (R273). -/
def execVCeq (o : OpT) (ty : BitVec 3) (s : State) : Out := .next (intCompare s o ty fun x y => decide (x = y))
/-- v.clt (R273). -/
def execVClt (o : OpT) (ty : BitVec 3) (s : State) : Out := .next (intCompare s o ty fun x y => decide (x < y))

/-! ### Signs (R274) -/

/-- v.fabs and v.fneg: the sign bit as f gives it; a NaN gives the canonical NaN. -/
def signOp (s : State) (o : OpT) (ty : BitVec 3) (f : Bool → Bool) : State :=
  let F := floatTy ty
  let w := F.width
  let a := s.rdV slotV o.a
  elementwise s slotV o (countOf w) w 2 fun e =>
    let c := lane a w e
    let m := c % 2 ^ (w - 1)
    (match F.decode c with
      | .nan => F.nanCode
      | _ => F.signed (f (decide (m ≠ c))) m, 0)

/-- v.fabs (R274). -/
def execVFabs (o : OpT) (ty : BitVec 3) (s : State) : Out := .next (signOp s o ty fun _ => false)
/-- v.fneg (R274). -/
def execVFneg (o : OpT) (ty : BitVec 3) (s : State) : Out := .next (signOp s o ty fun b => !b)

/-! ### Integers (R275) -/

/-- An elementwise integer operation on w-bit codes. -/
def intOp (s : State) (o : OpT) (ty : BitVec 3) (f : Nat → Nat → Nat → Nat × Flags) : State :=
  let w := intTy ty
  let a := s.rdV slotV o.a
  let b := s.rdV slotV o.b
  elementwise s slotV o (countOf w) w 2 fun e => f w (lane a w e) (lane b w e)

/-- A value of the signed codes, wrapping. -/
def onSigned (f : Int → Int → Int) (w x y : Nat) : Nat × Flags := (intCode w (f (sextNat w x) (sextNat w y)), 0)

/-- Saturating addition of y, or of −y (R275). -/
def onSat (f : Int → Int → Int) (w x y : Nat) : Nat × Flags :=
  let r := satAdd w (f (sextNat w x) (sextNat w y)) 0
  (intCode w r.1, if r.2 then fSAT else 0)

/-- v.add (R275). -/
def execVAdd (o : OpT) (ty : BitVec 3) (s : State) : Out := .next (intOp s o ty (onSigned fun x y => x + y))
/-- v.sub (R275). -/
def execVSub (o : OpT) (ty : BitVec 3) (s : State) : Out := .next (intOp s o ty (onSigned fun x y => x - y))
/-- v.mul (R275). -/
def execVMul (o : OpT) (ty : BitVec 3) (s : State) : Out := .next (intOp s o ty (onSigned fun x y => x * y))
/-- v.adds (R275). -/
def execVAdds (o : OpT) (ty : BitVec 3) (s : State) : Out := .next (intOp s o ty (onSat fun x y => x + y))
/-- v.subs (R275). -/
def execVSubs (o : OpT) (ty : BitVec 3) (s : State) : Out := .next (intOp s o ty (onSat fun x y => x - y))
/-- v.min (R275). -/
def execVMin (o : OpT) (ty : BitVec 3) (s : State) : Out := .next (intOp s o ty (onSigned fun x y => min x y))
/-- v.max (R275). -/
def execVMax (o : OpT) (ty : BitVec 3) (s : State) : Out := .next (intOp s o ty (onSigned fun x y => max x y))
/-- v.and (R275). -/
def execVAnd (o : OpT) (ty : BitVec 3) (s : State) : Out := .next (intOp s o ty fun _ x y => (x &&& y, 0))
/-- v.or (R275). -/
def execVOr (o : OpT) (ty : BitVec 3) (s : State) : Out := .next (intOp s o ty fun _ x y => (x ||| y, 0))
/-- v.xor (R275). -/
def execVXor (o : OpT) (ty : BitVec 3) (s : State) : Out := .next (intOp s o ty fun _ x y => (x ^^^ y, 0))
/-- v.shl (R275). -/
def execVShl (o : OpT) (ty : BitVec 3) (s : State) : Out := .next
  (intOp s o ty fun w x y => (x * 2 ^ (y % w) % 2 ^ w, 0))
/-- v.sra (R275). -/
def execVSra (o : OpT) (ty : BitVec 3) (s : State) : Out := .next
  (intOp s o ty fun w x y => (intCode w (sextNat w x / (2 ^ (y % w) : Nat)), 0))
/-- v.shr (R275). -/
def execVShr (o : OpT) (ty : BitVec 3) (s : State) : Out := .next (intOp s o ty fun w x y => (x / 2 ^ (y % w), 0))

/-! ### Masks (R276) -/

/-- A mask operation: each bit is an element. -/
def maskOp (s : State) (o : OpT) (f : Mask → Mask → Mask) : State :=
  if s.vectorGuard slotV o.g then
    let v := f (s.rdK slotV (o.a.setWidth 3)) (s.rdK slotV (o.b.setWidth 3))
    let old := s.rdK slotV (o.d.setWidth 3)
    let on : Mask := if o.g = 0 || 8 ≤ o.g.toNat then BitVec.allOnes 512 else s.rdK slotV (o.g.setWidth 3)
    s.resultVX slotV (.k (o.d.setWidth 3)) (((v &&& on) ||| (old &&& ~~~on)).setWidth 4096) 0 2
  else s

/-- v.kand (R276). -/
def execVKand (o : OpT) (s : State) : Out := .next (maskOp s o fun x y => x &&& y)
/-- v.kor (R276). -/
def execVKor (o : OpT) (s : State) : Out := .next (maskOp s o fun x y => x ||| y)
/-- v.kxor (R276). -/
def execVKxor (o : OpT) (s : State) : Out := .next (maskOp s o fun x y => x ^^^ y)
/-- v.kandn (R276). -/
def execVKandn (o : OpT) (s : State) : Out := .next (maskOp s o fun x y => x &&& ~~~y)

/-! ### Reductions (R277) -/

/-- An element widened exactly to FP32 (R108). -/
def widen (F : FloatFmt) (c : Nat) : Nat := (fp32.round (F.decode c) 0 false 0).1

/-- A float reduction over the elements that are on; the others are the identity. -/
def floatReduce (s : State) (o : OpT) (ty : BitVec 3) (ident : Nat) (op : Nat → Nat → Nat × Flags) : State :=
  if s.vectorGuard slotV o.g then
    let F := floatTy ty
    let w := F.width
    let n := countOf w
    let a := s.rdV slotV o.a
    let xs := (List.range n).map fun e => if s.laneOn slotV o.g n e then widen F (lane a w e) else ident
    let r := reduceTree op (Nat.log2 n) xs
    s.resultVX slotV (vecRef s o.d) (BitVec.ofNat 4096 (r.1 % 2 ^ 32)) r.2 8
  else s

/-- v.rsum (R277). -/
def execVRsum (o : OpT) (ty : BitVec 3) (s : State) : Out := .next
  (floatReduce s o ty 0x80000000 fun x y => add32 x y 0)
/-- v.rmax (R277). -/
def execVRmax (o : OpT) (ty : BitVec 3) (s : State) : Out := .next
  (floatReduce s o ty 0xFF800000 fun x y => (fMaxMin fp32 true x y, 0))
/-- v.rmin (R277). -/
def execVRmin (o : OpT) (ty : BitVec 3) (s : State) : Out := .next
  (floatReduce s o ty 0x7F800000 fun x y => (fMaxMin fp32 false x y, 0))

/-- v.risum (R277). -/
def execVRisum (o : OpT) (ty : BitVec 3) (s : State) : Out := .next
  (if s.vectorGuard slotV o.g then
    let w := intTy ty
    let n := countOf w
    let a := s.rdV slotV o.a
    let v := upTo n (fun e (acc : Int) => if s.laneOn slotV o.g n e then acc + sextNat w (lane a w e) else acc) 0
    s.resultVX slotV (vecRef s o.d) ((wrap 64 v).setWidth 4096) 0 8
  else s)

/-! ### Permutes (R278) -/

/-- v.perm (R278). -/
def execVPerm (o : OpT) (ty : BitVec 3) (s : State) : Out := .next
  (let w := intTy ty
   let n := countOf w
   let a := s.rdV slotV o.a
   let b := s.rdV slotV o.b
   elementwise s slotV o n w 3 fun e =>
     let i := lane b w e
     (lane a w (if w = 8 then e / 256 * 256 + i else i % n), 0))

/-- v.bcst (R278). -/
def execVBcst (o : OpT) (ty : BitVec 3) (s : State) : Out := .next
  (let w := intTy ty
   let v := (s.rdSB slotV o.a).toNat % 2 ^ w
   elementwise s slotV o (countOf w) w 3 fun _ => (v, 0))

/-- v.slide (R278). -/
def execVSlide (o : OpT) (ty : BitVec 3) (s : State) : Out := .next
  (let w := intTy ty
   let n := countOf w
   let a := s.rdV slotV o.a
   let k := (s.rdSB slotV o.b).toInt
   elementwise s slotV o n w 3 fun e =>
     let i : Int := e + k
     (if 0 ≤ i ∧ i < n then lane a w i.toNat else 0, 0))

/-! ### Transcendentals (R279) -/

/-- The reproducible form of each element. -/
def transR (f : Trans7) (s : State) (o : OpT) (ty : BitVec 3) : State :=
  let F := floatTy ty
  let a := s.rdV slotV o.a
  elementwise s slotV o (countOf F.width) F.width 14 fun e => reproducible f F (lane a F.width e)

/-- The fast form of each element. -/
def transF (f : Trans7) (s : State) (o : OpT) (ty : BitVec 3) : State :=
  let F := floatTy ty
  let a := s.rdV slotV o.a
  elementwise s slotV o (countOf F.width) F.width 6 fun e => fastForm f F (lane a F.width e)

/-- v.exp2r (R279). -/
def execVExp2r (o : OpT) (ty : BitVec 3) (s : State) : Out := .next (transR .exp2 s o ty)
/-- v.exp2f (R279). -/
def execVExp2f (o : OpT) (ty : BitVec 3) (s : State) : Out := .next (transF .exp2 s o ty)
/-- v.log2r (R279). -/
def execVLog2r (o : OpT) (ty : BitVec 3) (s : State) : Out := .next (transR .log2 s o ty)
/-- v.log2f (R279). -/
def execVLog2f (o : OpT) (ty : BitVec 3) (s : State) : Out := .next (transF .log2 s o ty)
/-- v.rcpr (R279). -/
def execVRcpr (o : OpT) (ty : BitVec 3) (s : State) : Out := .next (transR .rcp s o ty)
/-- v.rcpf (R279). -/
def execVRcpf (o : OpT) (ty : BitVec 3) (s : State) : Out := .next (transF .rcp s o ty)
/-- v.rsqr (R279). -/
def execVRsqr (o : OpT) (ty : BitVec 3) (s : State) : Out := .next (transR .rsqrt s o ty)
/-- v.rsqf (R279). -/
def execVRsqf (o : OpT) (ty : BitVec 3) (s : State) : Out := .next (transF .rsqrt s o ty)
/-- v.tanhr (R279). -/
def execVTanhr (o : OpT) (ty : BitVec 3) (s : State) : Out := .next (transR .tanh s o ty)
/-- v.tanhf (R279). -/
def execVTanhf (o : OpT) (ty : BitVec 3) (s : State) : Out := .next (transF .tanh s o ty)
/-- v.sinr (R279). -/
def execVSinr (o : OpT) (ty : BitVec 3) (s : State) : Out := .next (transR .sin s o ty)
/-- v.sinf (R279). -/
def execVSinf (o : OpT) (ty : BitVec 3) (s : State) : Out := .next (transF .sin s o ty)
/-- v.cosr (R279). -/
def execVCosr (o : OpT) (ty : BitVec 3) (s : State) : Out := .next (transR .cos s o ty)
/-- v.cosf (R279). -/
def execVCosf (o : OpT) (ty : BitVec 3) (s : State) : Out := .next (transF .cos s o ty)

/-! ### Scales (R280) -/

/-- emaxe of a target format of v.xscl, none for a code that is neither MX nor SA. -/
def scaleEmax (f : Nat) : Option Int :=
  match f with
  | 0x30 | 0x31 | 0x32 | 0x33 | 0x34 | 0x35 => some (mxEmax f)
  | 0x20 => some 6 | 0x21 => some 2 | 0x22 => some 0
  | _ => none

/-- The shared scale of a block (R280). -/
def blockScale (emax : Int) (xs : List Num) : Nat × Flags :=
  if xs.contains .nan then (0xFF, fNV)
  else
    let m := blockMax xs
    if m.isZero then (0, 0) else ((max (-127) (min 127 (m.log2 - emax)) + 127).toNat, 0)

/-- v.xscl (R280). -/
def execVXscl (o : OpT) (ty : BitVec 3) (s : State) : Out := .next
  (if s.vectorGuard slotV o.g then
    let sel := s.rdSB slotV o.b
    match (if 64 ≤ sel.toNat then none else scaleEmax sel.toNat) with
    | none => s.slotFault slotV 0x011D
    | some em =>
      let F := floatTy ty
      let w := F.width
      let n := countOf w
      let a := s.rdV slotV o.a
      let xs := (List.range n).map fun e => if s.laneOn slotV o.g n e then F.decode (lane a w e) else .fin false 0 0
      let size := if sel.toNat < 0x30 then n else 32
      let r := upTo (n / size) (fun k (acc : Nat × Flags) =>
        let q := blockScale em ((xs.drop (size * k)).take size)
        (acc.1 + q.1 * 2 ^ (8 * k), acc.2 ||| q.2)) (0, 0)
      s.resultVX slotV (vecRef s o.d) (BitVec.ofNat 4096 r.1) r.2 4
  else s)

end Sys2Proof.Machine
end

