-- ==== Sys2Proof/Machine/Transposer.lean ====
section
/-! DEFINITION. The X slot: conversion (R281), MX and segment quantisation (R283 to R285), bit-plane transposition (R286),
shuffles (R287), and moves between vector and scalar registers (R288). Every result lands after six entries (R282). -/

namespace Sys2Proof.Machine

/-- The latency of the X slot (R281, R282). -/
def latX : Nat := 6

/-! ### Conversion (R281) -/

/-- The width of a format beside another: raw takes the other's (R281). -/
def cvtWidth (f other : Nat) : Nat := if f = 0 then fmtBits other else fmtBits f

/-- x.cvt (R281). -/
def execXCvt (o : OpXC) (s : State) : Out := .next
  (let sf := o.sf.toNat
   let df := o.df.toNat
   let ws := cvtWidth sf df
   let wd := cvtWidth df sf
   let big := max ws wd
   let n := 4096 / big
   let part := xPart s % (big / min ws wd)
   let a := s.rdV slotX o.a
   let r := upTo n (fun e (acc : Vec × Flags) =>
     let i := if ws < wd then part * n + e else e
     let j := if wd < ws then part * n + e else e
     let c := convertFmt sf df (lane a ws i) (xRm s) (o.sat = 1) (elementBits s j)
     (setLane acc.1 wd j c.1, acc.2 ||| c.2)) (s.rdV slotX o.d, 0)
   s.resultVX slotX (vecRef s o.d) r.1 r.2 latX)

/-! ### Quantisation (R283 to R285) -/

/-- The width of an MX element (R87). -/
def mxBits (f : Nat) : Nat := if f = 0x34 then 4 else 8

/-- MXF names an MX element format. -/
def isMx (f : Nat) : Bool := decide (0x30 ≤ f) && decide (f ≤ 0x35)

/-- One element of x.mxq: format f, scale code sc, FP32 code x (R283). -/
def mxqElement (f sc x rm : Nat) (rnd : BitVec 32) : Nat × Flags :=
  if sc = 0xFF then (0, 0)
  else
    let se : Int := (sc : Int) - 127
    match fmtKind f, fp32.decode x with
    | _, .nan => (0, fNV)
    | .float g, .inf neg => (g.signed neg g.maxCode, fOF ||| fSAT)
    | .float g, y => g.round (y.scale (-se)) rm true rnd
    | _, y => intEncode 8 (-127) 127 (y.scale (6 - se)) rm rnd true

/-- A fault of slot X at issue where a field of XMODE or an operand is out of range (R379). -/
def State.xOperandFault (s : State) : State := s.slotFault slotX 0x011D

/-- x.mxq (R283). -/
def execXMxq (o : OpT) (s : State) : Out := .next
  (if s.vectorGuard slotX o.g then
    let f := xMxf s
    if !isMx f then s.xOperandFault
    else
      let w := mxBits f
      let part := xPart s % (32 / w)
      let a := s.rdV slotX o.a
      let b := s.rdV slotX o.b
      let r := upTo 128 (fun i (acc : Vec × Flags) =>
        if s.laneOn slotX o.g 128 i then
          let j := part * 128 + i
          let c := mxqElement f (lane b 8 (i / 32)) (lane a 32 i) (xRm s) (elementBits s j)
          (setLane acc.1 w j c.1, acc.2 ||| c.2)
        else acc) (s.rdV slotX o.d, 0)
      s.resultVX slotX (vecRef s o.d) r.1 r.2 latX
  else s)

/-- x.mxd (R284). -/
def execXMxd (o : OpT) (s : State) : Out := .next
  (if s.vectorGuard slotX o.g then
    let f := xMxf s
    if !isMx f then s.xOperandFault
    else
      let w := mxBits f
      let part := xPart s % (32 / w)
      let a := s.rdV slotX o.a
      let b := s.rdV slotX o.b
      elementwise s slotX o 128 32 latX fun i =>
        let sc := lane b 8 (i / 32)
        if sc = 0xFF then (0x7FC00000, 0)
        else
          let x := (decodeFmt f (lane a w (part * 128 + i))).1.scale ((sc : Int) - 127)
          let r := fp32.round x (xRm s) false (elementBits s i)
          (r.1, r.2 ||| if fp32.isTiny x then fUF else 0)
  else s)

/-- One code of x.saq with P planes (R285). -/
def saqElement (p sc x rm : Nat) (rnd : BitVec 32) : Nat × Flags :=
  if sc = 0xFF then (0, 0)
  else
    let hi : Int := (2 ^ (p - 1) : Nat) - 1
    intEncode 8 (-hi) hi ((fp32.decode x).scale (127 - (sc : Int))) rm rnd true

/-- Planes of an SA format code (R93), none for another code. -/
def saPlanes (f : Nat) : Option Nat :=
  match f with
  | 0x20 => some 8 | 0x21 => some 4 | 0x22 => some 2 | _ => none

/-- x.saq (R285). -/
def execXSaq (o : OpT) (s : State) : Out := .next
  (if s.vectorGuard slotX o.g then
    match saPlanes (xMxf s) with
    | none => s.xOperandFault
    | some p =>
      let part := xPart s % 4
      let a := s.rdV slotX o.a
      let sc := lane (s.rdV slotX o.b) 8 0
      let r := upTo 128 (fun i (acc : Vec × Flags) =>
        if s.laneOn slotX o.g 128 i then
          let j := part * 128 + i
          let c := saqElement p sc (lane a 32 i) (xRm s) (elementBits s j)
          (setLane acc.1 8 j c.1, acc.2 ||| c.2)
        else acc) (s.rdV slotX o.d, 0)
      s.resultVX slotX (vecRef s o.d) r.1 r.2 latX
  else s)

/-! ### Bit-plane transposition (R286) -/

/-- Plane byte i of plane j of 512 codes, and whether a code was clamped. -/
def planeByte (p : Nat) (v : Vec) (j i : Nat) : Byte :=
  let lo : Int := -(2 ^ (p - 1) : Nat)
  let hi : Int := (2 ^ (p - 1) : Nat) - 1
  (List.range 8).foldl (fun acc k =>
    let x := max lo (min hi (sextNat 8 (lane v 8 (8 * i + k))))
    if (BitVec.ofInt 8 x).getLsbD j then acc + BitVec.ofNat 8 (2 ^ k) else acc) 0

/-- Whether any of the codes leaves the range of P planes. -/
def planesClamp (p : Nat) (v : Vec) : Bool :=
  (List.range 512).any fun k =>
    let x := sextNat 8 (lane v 8 k)
    decide (x < -(2 ^ (p - 1) : Nat)) || decide ((2 ^ (p - 1) : Nat) - 1 < x)

/-- The bytes of the quarter as lanes past c0, with tile and bit offset, none where one is outside its dimension. -/
def planeLanes (s : State) (p : Operand) (cb : BitVec 6) (zm : BitVec 4) (planes : Nat) : Option (List (Nat × Nat × Nat)) :=
  ((List.range planes).flatMap fun j => (List.range 64).map fun i => 256 * j + i).mapM fun e =>
    (rowLane s slotX p cb zm e).map fun a => (e, a.1, a.2)

/-- x.bpt (R286). -/
def execXBpt (o : OpH) (s : State) : Out := .next
  (if s.guard slotX o.g then
    s.operand slotX o.h o.cb o.zm false accStore fun s p =>
      match p.fmt.bind saPlanes with
      | none => s.refuse slotX 0x1209 (operandInfo p accStore slotX o.h)
      | some planes =>
        if p.c0 % 64 ≠ 0 || decide (256 ≤ p.c0 % (256 * planes)) then s.slotFault slotX 0x0113
        else match planeLanes s p o.cb o.zm planes with
          | none => s.refuse slotX 0x1201 (outsideInfo s accStore slotX o.h)
          | some ls =>
            let v := s.rdV slotX o.d
            s.reachRow slotX o.h p accStore ls fun s1 places =>
              if places.any fun l => tteKind l.2.1.tte ≠ 1 then
                s1.refuse slotX 0x1209 (operandInfo p accStore slotX o.h)
              else
                (s1.enterGate (.store s1.bundlePc (places.flatMap fun l =>
                  storeBytes l.2.1 l.2.2 8 (planeByte planes v (l.1 / 256) (l.1 % 256)).toNat))).raiseFlags slotX
                    (if planesClamp planes v then fSAT else 0)
  else s)

/-! ### Shuffles (R287) -/

/-- A shuffle of the EW elements: element e of v[d] takes f a b e. -/
def shuffle (s : State) (o : OpT) (f : Vec → Vec → Nat → Nat) : State :=
  let w := xWidth s
  let a := s.rdV slotX o.a
  let b := s.rdV slotX o.b
  elementwise s slotX o (countOf w) w latX fun e => (f a b e, 0)

/-- x.trr (R287): v[b] is a scalar here. -/
def execXTrr (o : OpT) (s : State) : Out := .next
  (if s.vectorGuard slotX o.g then
    let sel := s.rdSB slotX o.b
    let w := xWidth s
    let n := countOf w
    let nr := 2 ^ (sel.toNat % 16)
    if 16 ≤ sel.toNat || n < nr then s.xOperandFault
    else
      let a := s.rdV slotX o.a
      let nc := n / nr
      elementwise s slotX o n w latX fun e => (lane a w (e % nr * nc + e / nr), 0)
  else s)

/-- x.trc (R287). -/
def execXTrc (o : OpT) (s : State) : Out := .next
  (if s.vectorGuard slotX o.g then
    let w := xWidth s
    let t := 2 ^ xTs s
    if countOf w ≤ t then s.xOperandFault
    else shuffle s o fun a b e =>
      if xHi s then (if e / t % 2 = 0 then lane a w (e + t) else lane b w e)
      else (if e / t % 2 = 0 then lane a w e else lane b w (e - t))
  else s)

/-- x.pack (R287). -/
def execXPack (o : OpT) (s : State) : Out := .next
  (shuffle s o fun a b e =>
    let w := xWidth s
    let n := countOf w
    if e < n / 2 then lane a w (2 * e) else lane b w (2 * e - n))

/-- x.unpk (R287). -/
def execXUnpk (o : OpT) (s : State) : Out := .next
  (shuffle s o fun a b e =>
    let w := xWidth s
    let base := if xHi s then countOf w / 2 else 0
    if e % 2 = 0 then lane a w (base + e / 2) else lane b w (base + (e - 1) / 2))

/-! ### Moves (R288) -/

/-- x.vtos (R288). -/
def execXVtos (o : OpT) (s : State) : Out := .next
  (if s.vectorGuard slotX o.g then
    let l := (s.rdSB slotX o.b).toNat % 64
    s.setMe (s.me.writeLater s.freeN slotX (.s o.d) (BitVec.ofNat 4096 (lane (s.rdV slotX o.a) 64 l)) latX false)
  else s)

/-- x.stov (R288). -/
def execXStov (o : OpT) (s : State) : Out := .next
  (if s.vectorGuard slotX o.g then
    let l := (s.rdSB slotX o.b).toNat % 64
    let v := s.rdV slotX o.d
    s.resultVX slotX (vecRef s o.d)
      (if s.laneOn slotX o.g 64 l then setLane v 64 l (s.rdSB slotX o.a).toNat else v) 0 latX
  else s)

end Sys2Proof.Machine
end

