-- ==== Sys2Proof/Machine/Tiers.lean ====
section
/-! DEFINITION. The array tiers of a tower: the K positions that the fallback engine computes (R126, R304, R421), the
failure of a tier and its loss (R407, R408, R419, R421, R426), drift (R423), and the restart of a pass (R420). -/

namespace Sys2Proof.Machine

/-! ### Positions -/

/-- A report of a unit of tower t that goes to the tower's queue (R392). -/
def towerRecord (s : State) (t : TowerId) (code : Code) (info : Word) : State :=
  faultRecord s t.val code 0 0 (rennetSrc t) 0 info

/-- INFO with the tower in [9:8] and a physical tier in [2:0] (R407, R418). -/
def tierInfo (t : TowerId) (p : BitVec 3) : Word := BitVec.ofNat 64 (256 * t.val + p.toNat)

/-- The K position of a physical tier in the tier map. -/
def kPosition (w : Tiers) (p : BitVec 3) : Option Nat := (List.range 4).find? fun i => w.map.toList.getD i 7 = p

/-- One position as a mask. -/
def positionMask (x : Option Nat) : BitVec 4 :=
  match x with
  | some i => BitVec.ofNat 4 (2 ^ i)
  | none => 0

/-- A failed compute tier is reconstructed (R126, R421). -/
def reconPosition (w : Tiers) : Option Nat := w.failed.bind (kPosition w)

/-- The tier that m.pin asks for, where the request is not suspended by a mark on another tier or a failed tier (R304,
R421). -/
def pinnedPosition (w : Tiers) (mpin : Word) : Option Nat :=
  let p := BitVec.ofNat 3 (fld mpin 0 3)
  if bit mpin 3 && (reconPosition w).isNone && (w.skip = none || w.skip = some p) then kPosition w p else none

/-- FB of a pass that issues now (R126, R304, R421). -/
def fallbackMask (w : Tiers) (mpin : Word) : BitVec 4 :=
  match reconPosition w with
  | some i => positionMask (some i)
  | none => positionMask (w.skip.bind (kPosition w)) ||| positionMask (pinnedPosition w mpin)

/-- SEFF of a pass that issues now on core c (R125). -/
def effectiveSplit (s : State) (c : CoreId) (sp : Nat) (fb : BitVec 4) : Nat :=
  let t := towerOf c
  let w := (s.tower t).tiers
  if detCore s c then 0
  else (List.range 4).foldl (fun m i =>
    if bit fb i then m else min m (tierSmax s t ((w.map.toList.getD i 0).toNat))) sp

/-- The tiers of tower t changed. -/
def State.mapTiers (s : State) (t : TowerId) (f : Tiers → Tiers) : State :=
  s.setTower t { (s.tower t) with tiers := f (s.tower t).tiers }

/-- A READY bit (R367). -/
def State.setReady (s : State) (n : Nat) (b : Bool) : State := (s.mapHub fun h => { h with ready := setBit h.ready n b })

/-! ### Engine faults of passes -/

/-- A matrix engine fault of core c by a pass: the pass leaves the engine, its target groups and NB are poisoned (R387,
R418). -/
def passFault (s : State) (c : CoreId) (p : Pass) (code : Code) : State :=
  let k := s.core c
  let s1 := s.setCore c { k with mat := { k.mat with passes := k.mat.passes.filter fun x => x.seq ≠ p.seq } }
  takeEngine s1 c { (FaultInfo.plain 2 code 0 p.bundle) with zpois := targetGroups p.z p.zcg p.ng, nbp := true }

/-! ### Failure and loss -/

/-- The cores of tower t that run a continuation of a deterministic partition. -/
def detCores (s : State) (t : TowerId) : List CoreId :=
  (List.finRange 128).filter fun c => towerOf c = t && detCore s c

/-- 0x3003 on one core (R421). -/
def detTierFault (s : State) (c : CoreId) : State :=
  let s1 := undoBundle s c
  let k := s1.core c
  let f := FaultInfo.plain 2 0x3003 0 k.lastc
  endWithFault s1 c (match k.mat.passes with
    | p :: _ => { f with fbun := p.bundle, zpois := targetGroups p.z p.zcg p.ng, nbp := true }
    | [] => match k.mat.group with
      | some g => { f with zpois := targetGroups g.z g.zcg g.ng, nbp := true }
      | none => f)

/-- A tier failure in a tower that runs a deterministic partition: 0x3003 on its cores there, and R388 for the others. -/
def stopDeterministic (s : State) (t : TowerId) : State :=
  let mine := detCores s t
  let others := (mine.flatMap (partitionCores s)).eraseDups.filter fun c => towerOf c ≠ t
  others.foldl partitionStop (mine.foldl detTierFault s)

/-- The banks at K positions, bit b for bank b (R407). -/
def bankMask (m : BitVec 4) : Nat := (List.range 4).foldl (fun acc i => if bit m i then acc + 255 * 2 ^ (8 * i) else acc) 0

/-- Data at K positions are lost: 0x2111 and 0x3032 (R408, R426). -/
def losePositions (s : State) (t : TowerId) (p : BitVec 3) (m : BitVec 4) : State :=
  let s1 := s.mapTiers t fun w => { w with lost := w.lost ||| m }
  let s2 := towerRecord s1 t 0x2111 (BitVec.ofNat 64 (bankMask m + t.val * 2 ^ 32))
  towerRecord s2 t 0x3032 (tierInfo t p)

/-- Physical tier p of tower t is out of service, as src has found it: its CAL bit falls; what follows depends on the parity
that is left (R392, R407, R408, R419, R421, R422, R426, R440). -/
def tierFail (s : State) (t : TowerId) (p : BitVec 3) (code : Code) (src : Nat) : State :=
  let w := (s.tower t).tiers
  if bit w.down p.toNat then s
  else
    let s1 := faultRecord ((s.mapTiers t fun x => { x with down := setBit x.down p.toNat true }).setReady
      (5 * t.val + p.toNat) false) t.val code 0 0 src 0 (tierInfo t p)
    match kPosition w p with
    | none => match reconPosition w with
      | some i => if p = w.parity && !w.rebuilt then losePositions s1 t p (positionMask (some i)) else s1
      | none => if p = w.parity then s1.mapTiers t fun x => { x with failed := some p, rotating := false } else s1
    | some i =>
      if w.failed.isSome && !w.rolesChanged then
        losePositions s1 t p (positionMask (some i) ||| positionMask (reconPosition w))
      else if w.parity = 7 then losePositions s1 t p (positionMask (some i))
      else
        let s2 := towerRecord (s1.mapTiers t fun x => { x with failed := some p, rebuilt := false, rotating := false,
                                                               skip := none }) t 0x3030 (tierInfo t p)
        stopDeterministic (if w.skip.isSome then towerStat s2 t 0x7002 else s2) t

/-! ### Drift (R423) -/

/-- One step down and up along 10, 8, 6, 3, 0. -/
def capDown (n : Nat) : Nat := if 8 < n then 8 else if 6 < n then 6 else if 3 < n then 3 else 0
def capUp (n : Nat) : Nat := if n < 3 then 3 else if n < 6 then 6 else if n < 8 then 8 else 10

/-- Payload of a drift record: tier and cap (log 23). -/
def driftPay (p cap : Nat) : BitVec 128 := BitVec.ofNat 128 (p + 256 * cap)

/-- The drift cap of tier p of core c's tower falls, with 0x3021. -/
def lowerCap (s : State) (c : CoreId) (bundle : Word) (p : Nat) : State :=
  let t := towerOf c
  let s1 := s.mapTiers t fun w => { w with cap := w.cap.setIfInBounds p (capDown (w.cap.toList.getD p 0)) }
  statRecord s1 c 0 0x3021 bundle (driftPay p ((s1.tower t).tiers.cap.toList.getD p 0))

/-! ### Restart (R420) -/

/-- Causes of a restart. -/
def causeTransient : Nat := 1
def causeTier : Nat := 2
def causeDrift : Nat := 3
def causeStorm : Nat := 4

/-- A pass of core c restarts for a cause at plane q, with what the discarded planes have set in CLIPS (R420). -/
def restartPass (s : State) (c : CoreId) (p : Pass) (cl : List ClipNote) (cause q : Nat) : State :=
  if 2 ≤ p.restarts then passFault s c p 0x3007
  else
    let w := (s.tower (towerOf c)).tiers
    let fb := p.fb ||| positionMask (reconPosition w)
    let seff := if cause = causeStorm then 0
      else if cause = causeDrift then effectiveSplit s c p.seff fb else p.seff
    if bit (s.core c).regs.mpin 8 && (decide (seff < p.seff) || fb ≠ p.fb) then passFault s c p 0x3005
    else
      let k := s.core c
      let p1 := { p with fb := fb, seff := seff, recon := p.recon || (reconPosition w).isSome, restarts := p.restarts + 1 }
      let mat := setClips { k.mat with passes := k.mat.passes.map fun x => if x.seq = p.seq then p1 else x }
        (cl.filter fun x => x.q ≤ q)
      statRecord (s.setCore c { k with mat := mat }) c 0 0x3006 p.bundle (payload p.seq cause q 0)

/-- Every pass of tower t's cores restarts after a tier has failed (R420, R440): at plane q that of the core which has found the
failure, any other at the plane that it has reached, which is open (log 37). -/
def restartPasses (s : State) (t : TowerId) (found : Option (CoreId × Nat)) : State :=
  (List.finRange 128).foldl (fun st c =>
    if towerOf c = t then
      (st.core c).mat.passes.foldl (fun st2 p =>
        if (st2.core c).mat.passes.any fun x => x.seq = p.seq then
          let reached := Config.restartPlane (128 * s.freeN + c.val) % (p.m * p.pa)
          let q := match found with
            | some f => if f.1 = c then f.2 else reached
            | none => reached
          restartPass st2 c p (passSums st2 c p).clips causeTier q
        else st2) st
    else st) s

end Sys2Proof.Machine
end

