-- ==== Sys2Proof/Machine/Matrix.lean ====
section
/-! DEFINITION. The M slot (12): set-up (R293, R294), runs (R295 to R297), swap (R298), promotion and draining (R299,
R300), accumulators (R301), fold and clip reads (R302), calibration and fallback (R303, R304), and the events of the
matrix engine (R118, R120, R128, R129, R419 to R424). -/

namespace Sys2Proof.Machine

/-- Slot M is slot 6 (R188). -/
def slotM : Fin 8 := 6

/-! ### Set-up -/

def muWrow (w : Word) : Nat := fld w 32 32
def muFdst (w : Word) : BitVec 6 := BitVec.ofNat 6 (fld w 26 6)
def muAsh (w : Word) : BitVec 5 := BitVec.ofNat 5 (fld w 21 5)
def muWsh (w : Word) : BitVec 5 := BitVec.ofNat 5 (fld w 16 5)
def muObg (w : Word) : Nat := fld w 12 4
def muNg (w : Word) : Nat := fld w 8 4
def muZcg (w : Word) : Nat := fld w 4 4

/-- A selector of the M slot that is not admitted (R379). -/
def State.mSelectorFault (s : State) : State := s.slotFault slotM 0x0110

/-- An open group is promoted early by an access (R119). -/
def State.earlyPromotion (s : State) : State := promoteEarly s s.now.core 2

/-- The instruction waits for the end of the passes in flight, and then goes on. -/
def State.afterPasses (s : State) (f : State → State) : State :=
  if s.me.mat.passes.isEmpty then f s else s.reissue slotM

/-- m.win (R293). -/
def execMWin (o : OpT) (s : State) : Out := .next
  (if s.guard slotM o.g then
    let sel := s.rdSB slotM o.a
    if fld sel 12 52 ≠ 0 || 11 < fld sel 0 4 || 12 < fld sel 4 4 || 11 < fld sel 8 4 then s.mSelectorFault
    else s.afterPasses fun s =>
      s.earlyPromotion.mapRegs fun r => { r with
        msetup := setFld (setFld (setFld (setFld r.msetup 26 6 o.d.toNat) 4 4 (fld sel 0 4)) 8 4 (fld sel 4 4)) 12 4
          (fld sel 8 4) }
  else s)

/-- m.wsc (R294). -/
def execMWsc (o : OpT) (s : State) : Out := .next
  (if s.guard slotM o.g then
    let b := s.rdSB slotM o.b
    if fld b 32 32 ≠ 0 then s.mSelectorFault
    else s.afterPasses fun s =>
      s.earlyPromotion.mapRegs fun r => { r with
        msetup := setFld (setFld (setFld r.msetup 21 5 o.d.toNat) 16 5 o.a.toNat) 32 32 (fld b 0 32) }
  else s)

/-! ### Reads of a run (R296, R297) -/

/-- How the reads of a run end: what they give, the poison among them, or a code that ends the run. -/
inductive RunRead (α : Type) where
  | ok (a : α) (poisoned : Bool) (s : State)
  | fault (c : Code) (info : Word) (s : State)
  | transit (info : Word) (s : State)
  /-- The tile cache misses: the run is held (R49). -/
  | miss (s : State)

/-- A tile of a run's tensor: KIND 1 in the cluster, and what more its kind of tensor asks (R35, R294, R296). -/
def runTile (s : State) (d : BitVec 512) (h : BitVec 5) (tile : Nat) (fmt : Option Nat) (ok : BitVec 64 → Bool) :
    RunRead Place :=
  let info := layoutInfo (dTid d) accLoad slotM.val h.toNat tile
  match reachTile s s.now.core (some d) tile fmt false with
  | (.ok e, s1) =>
    if tteKind e = 1 && ok e then .ok { tid := dTid d, tile := tile, tte := e } false s1 else .fault 0x1209 info s1
  | (.fault q, s1) => .fault (if q = 0x0310 then 0x1209 else q) info s1
  | (.transit, s1) => .transit info s1
  | (.miss, s1) => .miss s1

/-- The width bits of one element of a scale tensor. -/
def runElement (s : State) (d : BitVec 512) (h : BitVec 5) (width : Nat) (c : Nat → Nat) : RunRead Nat :=
  match tileAddress d c with
  | none => .fault 0x1209 (layoutInfo (dTid d) accLoad slotM.val h.toNat 0) s
  | some a =>
    match runTile s d h a.1 (some (dFmt d)) fun _ => true with
    | .ok p _ s1 =>
      let r := readElement s1 s1.now.core p a.2 width false
      .ok r.1 r.2.1.isSome r.2.2
    | .fault q i s1 => .fault q i s1
    | .transit i s1 => .transit i s1
    | .miss s1 => .miss s1

/-- Elements by number, one after another; the first refusal ends them. -/
def runElements (f : State → Nat → RunRead Nat) : List Nat → State → RunRead (List Nat)
  | [], s => .ok [] false s
  | i :: is, s =>
    match f s i with
    | .ok v b s1 => match runElements f is s1 with
      | .ok vs b2 s2 => .ok (v :: vs) (b || b2) s2
      | .fault q x s2 => .fault q x s2
      | .transit x s2 => .transit x s2
      | .miss s2 => .miss s2
    | .fault q x s1 => .fault q x s1
    | .transit x s1 => .transit x s1
    | .miss s1 => .miss s1

/-- Byte x of row m of the activation segment: tile and bit offset (R296). -/
def planePlace (d : BitVec 704) (m x : Nat) : Option (Nat × Nat) :=
  tileAddress (d.setWidth 512) fun k => if k = 0 then cursor d 0 + x else if k = 1 then cursor d 1 + m else cursor d k

/-- The planes of row m: 256 bytes each, with the tiles reached so far. -/
def rowPlanes (s : State) (d : BitVec 704) (h : BitVec 5) (pa m : Nat) : RunRead (List (BitVec 2048)) :=
  let fmt := dFmt (d.setWidth 512)
  match runElements (fun st x =>
    match planePlace d m x with
    | none => .fault 0x1209 (layoutInfo (dTid (d.setWidth 512)) accLoad slotM.val h.toNat 0) st
    | some a =>
      match runTile st (d.setWidth 512) h a.1 none (fun e => bit (entryBankfmt st e) 15 && fld (entryBankfmt st e) 0 8 = fmt) with
      | .ok p _ s1 =>
        let r := readElement s1 s1.now.core p a.2 8 false
        .ok r.1 r.2.1.isSome r.2.2
      | .fault q i s1 => .fault q i s1
      | .transit i s1 => .transit i s1
      | .miss s1 => .miss s1) (List.range (256 * pa)) s with
  | .ok bs bad s1 =>
    .ok ((List.range pa).map fun j => BitVec.ofNat 2048 (leNat (((bs.drop (256 * j)).take 256).map (BitVec.ofNat 8))))
      bad s1
  | .fault q i s1 => .fault q i s1
  | .transit i s1 => .transit i s1
  | .miss s1 => .miss s1

/-- The planes of rows m of a list, row after row. -/
def runPlanes (d : BitVec 704) (h : BitVec 5) (pa : Nat) : List Nat → State → RunRead (List (BitVec 2048))
  | [], s => .ok [] false s
  | m :: ms, s =>
    match rowPlanes s d h pa m with
    | .ok vs b s1 => match runPlanes d h pa ms s1 with
      | .ok ws b2 s2 => .ok (vs ++ ws) (b || b2) s2
      | .fault q x s2 => .fault q x s2
      | .transit x s2 => .transit x s2
      | .miss s2 => .miss s2
    | .fault q x s1 => .fault q x s1
    | .transit x s1 => .transit x s1
    | .miss s1 => .miss s1

/-- The activation handle of a run (R296): the planes of its format, RANK, segment and rows. -/
def activationPlanes (a : BitVec 704) (m : Nat) : Option Nat :=
  let d : BitVec 512 := a.setWidth 512
  match saPlanes (dFmt d) with
  | none => none
  | some pa =>
    if dRank d < 2 || 6 < dRank d || cursor a 0 % (256 * pa) ≠ 0 || dDim d 0 < cursor a 0 + 256 * pa
        || dDim d 1 < cursor a 1 + m then none
    else some pa

/-- A weight-scale handle of R294. -/
def weightScaleOk (d : BitVec 512) (wrow outputs : Nat) : Bool :=
  dFmt d = 0x01 && dRank d = 2 && decide (wrow < dDim d 1) && decide (outputs ≤ dDim d 0)

/-- An activation-scale handle of R294. -/
def activationScaleOk (d : BitVec 512) (rank sigma rows : Nat) : Bool :=
  dFmt d = 0x09 && dRank d = rank && decide (sigma < dDim d 0) && decide (rows ≤ dDim d 1)

/-! ### Runs -/

/-- What a run binds before its group decision. -/
structure RunSetup where
  wfmt : Nat
  pa : Nat
  afmt : Nat
  ng : Nat
  ea : List Nat
  eaBad : Bool
  seff : Nat
  fb : BitVec 4
  deriving DecidableEq, Repr

/-- The pass joins the open group (R119). -/
def joinsGroup (g : Group) (o : OpMR) (u : RunSetup) (msetup : Word) : Bool :=
  g.z = o.z && g.m = o.mm.toNat + 1 && g.wfmt.toNat = u.wfmt && g.afmt.toNat = u.afmt && g.p = o.pp.toNat + 1
    && g.wsh = muWsh msetup && g.wrow.toNat = muWrow msetup && g.ea.map BitVec.toNat = u.ea
    && decide (g.passes < g.p)

/-- The run issues into its group: SEQ, the pass, and the set-up it has bound (R119, R128, R131). -/
def issuePass (s : State) (o : OpMR) (u : RunSetup) (g : Group) (early bad : Bool) (planes : List (BitVec 2048)) : State :=
  let k := s.me
  let w := (s.tower (towerOf s.now.core)).tiers
  let seq := k.mat.seq + 1
  let p : Pass :=
    { seq := seq, bundle := s.bundlePc, z := o.z, sp := o.sp.toNat, m := o.mm.toNat + 1, wfmt := BitVec.ofNat 8 u.wfmt,
      pa := u.pa, planes := planes, seff := u.seff, order := w.map, par := w.parity, fb := u.fb,
      recon := (reconPosition w).isSome, det := detCore s s.now.core, gpos := g.passes, early := early,
      promo := decide (g.passes + 1 = g.p), half := k.mat.half, zcg := g.zcg, obg := g.obg, ng := g.ng,
      fdst := muFdst k.regs.msetup, nored := bit k.regs.mpin 8, restarts := 0, nb := k.mat.nb, cx := g.cx, sat := g.sat,
      poisoned := bad }
  s.setMe { k with aff := true, mat := { k.mat with
    seq := seq, passes := k.mat.passes ++ [p], group := some { g with passes := g.passes + 1, bundle := p.bundle }, ran := true,
    trim := k.mat.nextTrim,
    calReq := k.mat.calReq && (u.seff = 0 || p.det) } }

/-- The group decision of a run whose operands are good (R119, R296). -/
def decideGroup (s : State) (o : OpMR) (u : RunSetup) (bad : Bool) (planes : List (BitVec 2048)) : State :=
  let ms := s.me.regs.msetup
  match s.me.mat.group with
  | some g =>
    if joinsGroup g o u ms then issuePass s o u g false (bad || u.eaBad) planes
    else openGroup s true
  | none => openGroup s false
where
  /-- The run opens a group: it reads the weight scales of its delivered outputs, and a group that is still open is promoted early. -/
  openGroup (s : State) (early : Bool) : State :=
    let ms := s.me.regs.msetup
    let hw := muWsh ms
    let d : BitVec 512 := (s.rdH hw).setWidth 512
    let r := if hw = 0 then RunRead.ok (List.replicate (128 * u.ng) 0x3F800000) false s
      else if !weightScaleOk d (muWrow ms) (128 * (muObg ms + u.ng)) then
        .fault 0x1209 (layoutInfo (dTid d) accLoad slotM.val hw.toNat 0) s
      else runElements (fun st i => runElement st d hw 32 fun k => if k = 0 then 128 * muObg ms + i else muWrow ms)
        (List.range (128 * u.ng)) s
    match r with
    | .ok sw bad2 s1 =>
      let g : Group :=
        { z := o.z, m := o.mm.toNat + 1, wfmt := BitVec.ofNat 8 u.wfmt, afmt := BitVec.ofNat 8 u.afmt,
          p := o.pp.toNat + 1, wsh := hw, wrow := BitVec.ofNat 32 (muWrow ms), zcg := muZcg ms, obg := muObg ms,
          ng := u.ng, ea := u.ea.map (BitVec.ofNat 8), sw := sw.map (BitVec.ofNat 32), passes := 0, bound := 0, cx := [],
          sat := false, bundle := s1.bundlePc }
      issuePass (if early then promoteEarly s1 s1.now.core 1 else s1) o u g early (bad || u.eaBad || bad2) planes
    | .fault q i s1 => s1.refuse slotM q i
    | .transit i s1 => s1.inTransit slotM i
    | .miss s1 => s1.reissue slotM

/-- A run of a weight format (R296). -/
def run (wfmt : Nat) (o : OpMR) (s : State) : State :=
  if s.guard slotM o.g then
    let k := s.me
    if !(k.mat.passes.isEmpty && k.mat.promos.isEmpty && k.mat.swaps = 0) then s.reissue slotM
    else
      let t := towerOf s.now.core
      let w := (s.tower t).tiers
      let ms := k.regs.msetup
      let n := outputCount wfmt
      let ng := if muNg ms = 0 then n / 128 else muNg ms
      let a := s.rdH o.h
      let d : BitVec 512 := a.setWidth 512
      let rows := o.mm.toNat + 1
      let fb := fallbackMask w k.regs.mpin
      let seff := effectiveSplit s s.now.core o.sp.toNat fb
      let reduced := (!detCore s s.now.core && decide (seff < o.sp.toNat)) || w.skip.isSome
      if w.lost ≠ 0 then s.slotFault slotM 0x3033
      else if 12 < muZcg ms + ng || n / 128 < muObg ms + ng then s.slotFault slotM 0x011E
      else match activationPlanes a rows with
        | none => s.refuse slotM 0x1209 (layoutInfo (dTid d) accLoad slotM.val o.h.toNat 0)
        | some pa =>
          match runPlanes a o.h pa (List.range rows) s with
          | .fault q i s1 => s1.refuse slotM q i
          | .transit i s1 => s1.inTransit slotM i
          | .miss s1 => s1.reissue slotM
          | .ok planes bad s1 =>
            let sigma := cursor a 0 / (256 * pa)
            let ha := muAsh ms
            let da : BitVec 512 := (s1.rdH ha).setWidth 512
            let r := if ha = 0 then RunRead.ok (List.replicate rows 0x7F) false s1
              else if !activationScaleOk da (dRank d) sigma (cursor a 1 + rows) then
                .fault 0x1209 (layoutInfo (dTid da) accLoad slotM.val ha.toNat 0) s1
              else runElements (fun st m => runElement st da ha 8 fun x =>
                if x = 0 then sigma else if x = 1 then cursor a 1 + m else cursor a x) (List.range rows) s1
            match r with
            | .fault q i s2 => s2.refuse slotM q i
            | .transit i s2 => s2.inTransit slotM i
            | .miss s2 => s2.reissue slotM
            | .ok ea bad2 s2 =>
              if bit k.regs.mpin 8 && reduced then s2.slotFault slotM 0x3004
              else decideGroup s2 o { wfmt := wfmt, pa := pa, afmt := dFmt d, ng := ng, ea := ea, eaBad := bad2,
                                      seff := seff, fb := fb } bad planes
  else s

/-- m.run8 (R295, R296). -/
def execMRun8 (o : OpMR) (s : State) : Out := .next (run 0x12 o s)
/-- m.run4 (R295, R296). -/
def execMRun4 (o : OpMR) (s : State) : Out := .next (run 0x13 o s)
/-- m.runt (R295, R296). -/
def execMRunt (o : OpMR) (s : State) : Out := .next (run 0x17 o s)

/-! ### Swap, promotion, draining -/

/-- m.swap (R298): the exchange takes place as its own event; a pre-emptor may not (R360). -/
def execMSwap (o : OpT) (s : State) : Out := .next
  (if s.guard slotM o.g then
    if (s.me.run.bind Running.preemptor).isSome then s.layoutFault slotM 0x1109
    else s.setMe { s.me with aff := true, mat := { s.me.mat with swaps := s.me.mat.swaps + 1 } }
  else s)

/-- m.prom (R299). -/
def execMProm (o : OpT) (s : State) : Out := .next
  (if s.guard slotM o.g then s.afterPasses fun s => startPromo s s.now.core else s)

/-- One row of 128 words of a sparse map as a vector of w-bit elements. -/
def rowVector (w at_ : Nat) (f : Nat → Nat) : Vec := lanes 128 w fun j => f (at_ + j)

/-- m.drain (R300). -/
def execMDrain (o : OpT) (s : State) : Out := .next
  (if s.guard slotM o.g then
    let sel := s.rdSB slotM o.a
    let row := fld sel 0 4
    let cg := fld sel 4 4
    if fld sel 9 55 ≠ 0 || 11 < cg then s.mSelectorFault
    else s.afterPasses fun s =>
      let mat := s.me.mat
      let rows := match mat.group with | some g => g.m | none => 0
      let v := if row < rows then rowVector 32 (1536 * row + 128 * cg) fun i => (sget 0 mat.nb i).toNat else 0
      let s1 := s.resultV slotM o.d v
      if bit sel 8 && mat.group.isSome then s1.setMe { s1.me with mat := { s1.me.mat with group := none, nb := [] } }
      else s1
  else s)

/-! ### Accumulators (R301) -/

/-- An instruction on z register a: an open group that targets it is promoted early, and promotions under way finish
first (R119, R292). -/
def State.onZ (s : State) (a : BitVec 6) (f : State → Nat → State) : State :=
  let z := a.toNat % 16
  match s.me.mat.group with
  | some g =>
    if g.z.toNat = z then
      if s.me.mat.passes.isEmpty then s.earlyPromotion.reissue slotM else s.reissue slotM
    else waited
  | none => waited
where
  waited : State := if s.me.mat.passes.isEmpty && s.me.mat.promos.isEmpty then f s (a.toNat % 16) else s.reissue slotM

/-- Row and column group of a selector (R301), none where it is not admitted. -/
def zSelector (sel : Word) : Option (Nat × Nat) :=
  if fld sel 8 56 ≠ 0 || 11 < fld sel 4 4 then none else some (fld sel 0 4, fld sel 4 4)

/-- m.zrd and m.brd: 128 elements of a row. -/
def accumulatorRow (o : OpT) (s : State) (f : Matrix → Nat → Vec) : State :=
  if s.guard slotM o.g then
    match zSelector (s.rdSB slotM o.b) with
    | none => s.mSelectorFault
    | some (row, cg) => s.onZ o.a fun s z => s.resultV slotM o.d (f s.me.mat (24576 * z + 1536 * row + 128 * cg))
  else s

/-- m.zrd (R301). -/
def execMZrd (o : OpT) (s : State) : Out := .next
  (accumulatorRow o s fun mat i => rowVector 32 i fun x => (sget 0 mat.z x).toNat)
/-- m.brd (R301). -/
def execMBrd (o : OpT) (s : State) : Out := .next
  (accumulatorRow o s fun mat i => rowVector 16 i fun x => (sget 0 mat.zb x).toNat)

/-- m.zclr (R301). -/
def execMZclr (o : OpT) (s : State) : Out := .next
  (if s.guard slotM o.g then
    let sel := s.rdSB slotM o.b
    if fld sel 12 52 ≠ 0 then s.mSelectorFault
    else s.onZ o.a fun s z =>
      let mat := s.me.mat
      let gone : Nat → Bool := fun i => i / 24576 = z && bit sel (i % 1536 / 128)
      let zm := (List.range 12).foldl (fun acc i => if bit sel i then setBit acc (12 * z + i) true else acc) mat.zmap
      s.setMe { s.me with mat := { mat with z := mat.z.filter fun e => !gone e.1,
                                            zb := mat.zb.filter fun e => !gone e.1, zmap := zm } }
  else s)

/-! ### Fold and clip reads (R302) -/

/-- m.fold (R302). -/
def execMFold (o : OpT) (s : State) : Out := .next
  (if s.guard slotM o.g then s.afterPasses fun s => s.resultS slotM o.d s.me.mat.fold else s)

/-- The 64 clip flags from place i on. -/
def clipWord (mat : Matrix) (i : Nat) : Word :=
  (List.range 64).foldl (fun acc x => if sget false mat.clip (i + x) then acc ||| (1 <<< x) else acc) 0

/-- m.clip (R302). -/
def execMClip (o : OpT) (s : State) : Out := .next
  (if s.guard slotM o.g then
    let sel := s.rdSB slotM o.a
    if fld sel 10 54 ≠ 0 || 4 < fld sel 6 3 || 11 < fld sel 2 4 then s.mSelectorFault
    else s.afterPasses fun s =>
      let i := fld sel 6 3 * 3072 + fld sel 2 4 * 256 + fld sel 0 2 * 64
      let s1 := s.resultS slotM o.d (clipWord s.me.mat i)
      if bit sel 9 then
        s1.setMe { s1.me with mat := { s1.me.mat with
          clip := s1.me.mat.clip.filter fun e => !(decide (i ≤ e.1) && decide (e.1 < i + 64)) } }
      else s1
  else s)

/-! ### Calibration and fallback -/

/-- m.cal (R303). -/
def execMCal (o : OpT) (s : State) : Out := .next
  (if s.guard slotM o.g then
    let sel := s.rdSB slotM o.a
    if fld sel 0 2 = 0 then
      if fld sel 20 44 ≠ 0 || fld sel 2 3 ≠ 0 || 4 < fld sel 5 3 || 11 < fld sel 8 4 then s.mSelectorFault
      else
        let i := fld sel 5 3 * 3072 + fld sel 8 4 * 256 + fld sel 12 8
        s.resultS slotM o.d ((sget 0 s.me.mat.trim i).signExtend 64)
    else if fld sel 0 2 = 1 then
      if fld sel 2 62 ≠ 0 then s.mSelectorFault
      else if detCore s s.now.core then s.resultS slotM o.d 1
      else
        let s1 := s.resultS slotM o.d 0
        s1.setMe { s1.me with mat := { s1.me.mat with calReq := true } }
    else s.mSelectorFault
  else s)

/-- m.pin (R304). -/
def execMPin (o : OpT) (s : State) : Out := .next
  (if s.guard slotM o.g then
    let w := s.rdSB slotM o.a
    if fld w 9 55 ≠ 0 || fld w 4 4 ≠ 0 || (bit w 3 && decide (4 < fld w 0 3)) then s.mSelectorFault
    else
      let old := s.me.regs.mpin
      (s.resultS slotM o.d old).mapRegs fun r => { r with mpin := w }
  else s)

/-! ### Events of the engine -/

/-- SWAP_EXCHANGE (R129, R130): the halves of core c exchange and SWPC advances. -/
def execSwapExchange (s : State) : Out := .next
  (let mat := s.me.mat
   if mat.swaps = 0 then s
   else s.setMe { s.me with mat := { mat with half := !mat.half, swpc := mat.swpc + 1, swaps := mat.swaps - 1 } })

/-- PROMOTION (R120, R292): the promotions that have been started are performed. -/
def execPromotion (s : State) : Out := .next (performPromos s s.now.core)

/-- What a check has found in a pass: the occasion's unit is 1 for a residue mismatch and 2 for a wrong reference count of
the physical tier in value, 3 for drift of that tier, at the plane in extra (R419, R423); a failed tier is posted to every core
of the tower (R440). -/
def passObserved (s : State) (c : CoreId) (p : Pass) (r : PassSums) : State :=
  let t := towerOf c
  let tier := BitVec.ofNat 3 s.now.value.toNat
  let q := s.now.extra.toNat
  let failed : State :=
    let s1 := tierFail s t tier 0x3001 c.val
    if (kPosition (s.tower t).tiers tier).isSome then restartPasses s1 t (some (c, q)) else s1
  match s.now.unit with
  | 1 =>
    if (s.tower t).tiers.residues.any fun e => e.1 = tier && decide (s.clk < e.2 + 65536) then failed
    else restartPass (s.mapTiers t fun w => { w with residues := (tier, s.clk) :: w.residues.filter fun e => e.1 ≠ tier })
      c p r.clips causeTransient q
  | 2 => failed
  | 3 => restartPass (lowerCap s c p.bundle tier.toNat) c p r.clips causeDrift q
  | _ =>
    match clipStorm p r.clips with
    | some at_ => restartPass (statRecord s c 0 0x3015 p.bundle (payload p.seq causeStorm at_ 0)) c p r.clips causeStorm at_
    | none => finishPass s c p r false

/-- PASS_END (R118, R128): the oldest pass of core c ends, or what has been observed of it restarts it. -/
def execPassEnd (s : State) : Out := .next
  (match s.me.mat.passes with
   | [] => s
   | p :: _ =>
     if p.poisoned then passFault s s.now.core p 0x3040
     else passObserved s s.now.core p (passSums s s.now.core p))

/-- DRIFT_CAP_RISE (R423): after 2^24 clk without drift the cap of the tier in unit rises one step. -/
def execDriftCapRise (s : State) : Out := .next
  (let t := s.now.tower
   let p := s.now.unit % 5
   let w := (s.tower t).tiers
   let cap := w.cap.toList.getD p 0
   if 10 ≤ cap then s
   else
     let s1 := s.mapTiers t fun w => { w with cap := w.cap.setIfInBounds p (capUp cap) }
     (List.finRange 128).foldl (fun st c => if towerOf c = t then statRecord st c 0 0x3022 0 (driftPay p (capUp cap)) else st)
       s1)

/-- COLUMN_RETRIM (R124, R423): one column of core c, at the place in unit, is trimmed again where its tier is calibrated, from the next
pass on; one that the trim cannot hold (value not 0) is counted digitally from now on and reported with tier, macro and column. -/
def execColumnRetrim (s : State) : Out := .next
  (let k := s.me
   let i := s.now.unit % 15360
   if s.now.value = 0 then
     if calReady s (towerOf s.now.core) (i / 3072) then
       s.setMe { k with mat := { k.mat with nextTrim := sset 0 k.mat.nextTrim i (Config.trim s.freeN) } }
     else s
   else
     let s1 := s.setMe { k with mat := { k.mat with digital := sset false k.mat.digital i true } }
     let info : Word := BitVec.ofNat 64 (i / 3072 + i % 3072 / 256 * 2 ^ 8 + i % 256 * 2 ^ 16)
     towerRecord (statRecord s1 s1.now.core 0 0x3020 0 ((0 : BitVec 64) ++ info)) (towerOf s1.now.core) 0x3020 info)

/-- BACKGROUND_CALIBRATION (R124): the columns of the tier in unit that tower t's cores hold receive the trims that the
controller finds, from each core's next pass on; a tier without its initial calibration keeps trim 0. -/
def execBackgroundCalibration (s : State) : Out := .next
  (let p := s.now.unit % 5
   if calReady s s.now.tower p then calibrate s s.now.tower p else s)

/-- REBUILD_COMPLETE (R422): every row of the failed tier stands in the parity tier. -/
def execRebuildComplete (s : State) : Out := .next
  (let t := s.now.tower
   let w := (s.tower t).tiers
   if (reconPosition w).isSome && w.lost = 0 then s.mapTiers t fun w => { w with rebuilt := true } else s)

/-- No core of the tower has a pass in flight, and none runs a deterministic partition (R373, R422). -/
def rolesFree (s : State) (t : TowerId) : Bool :=
  (List.finRange 128).all fun c => towerOf c ≠ t || ((s.core c).mat.passes.isEmpty && !detCore s c)

/-- CHANGE_OF_ROLES (R422): the former parity tier takes the failed tier's K position; no tier holds parity. -/
def execChangeOfRoles (s : State) : Out := .next
  (let t := s.now.tower
   let w := (s.tower t).tiers
   match reconPosition w with
   | some i =>
     if w.rebuilt && rolesFree s t then
       towerRecord (s.mapTiers t fun w => { w with
         map := w.map.setIfInBounds i w.parity, parity := 7, failed := none, rebuilt := false, rolesChanged := true })
         t 0x3031 (tierInfo t ((w.failed).getD 0))
     else s
   | none => s)

end Sys2Proof.Machine
end

