-- ==== Sys2Proof/Machine/Engines.lean ====
section
/-! DEFINITION. The E slot (13): Churn commands (R319, R321), completion rings (R320), barriers (R323), curd queries
(R324), sends and receives (R325, R326), Rennet commands (R327 to R329), and barrier operations at home (R85). -/

namespace Sys2Proof.Machine

/-- Slot E is slot 7 (R188). -/
def slotE : Fin 8 := 7

/-! ### Gated pushes (R307, R308) -/

/-- A push of the bundle in progress enters the gate: major, operands as read at issue, and its key. -/
def State.push (s : State) (maj : BitVec 6) (o : OpT) (v : Vec) (key : Nat) : State :=
  s.enterGate (.push { word := (packT maj 0 o).setWidth 32, a := s.rdSB slotE o.a, b := s.rdSB slotE o.b, v := v,
                       bundle := s.bundlePc } key)

/-- A selector of the E slot that is not admitted (R379). -/
def State.eSelectorFault (s : State) : State := s.slotFault slotE 0x0110

/-! ### Churn commands -/

/-- The opening of a gather is pushed: it is the open one from here on (R321). -/
def openGather (s : State) (o : OpT) (tmpl chan : Nat) : State :=
  let c := s.now.core
  let k := s.core c
  let g : Gather := { tmpl := BitVec.ofNat 8 tmpl, chan := BitVec.ofNat 4 chan, ctx := coreCtx s c, gen := coreGen s c,
                      bundle := s.bundlePc, serial := k.gathers + 1 }
  (s.setCore c { k with gathers := k.gathers + 1, regs := { k.regs with gather := some g } }).push 0x01 o 0 (gatherKey g)

/-- e.cpush (R319). -/
def execECpush (o : OpT) (s : State) : Out := .next
  (if s.guard slotE o.g then
    let sel := s.rdSB slotE o.b
    let unit := fld sel 16 2
    if fld sel 21 43 ≠ 0 || fld sel 4 4 ≠ 0 || 2 ≤ unit || (unit = 0 && fld sel 0 4 = 15) || (bit sel 20 && unit = 1) then
      s.eSelectorFault
    else if bit sel 20 then openGather s o (fld sel 8 8) (fld sel 0 4) else s.push 0x01 o 0 0
  else s)

/-- Indices of the core that are issued and not yet popped as rows (R321). -/
def indicesOut (k : Core) : Nat :=
  (k.gate.filter fun e => match e with | .push p _ => pushMajor p = 0x03 | _ => false).length
    + (k.replay.filter fun e => pushMajor e.push = 0x03).length + k.gidx.length + k.rows.length

/-- e.gidx (R321): the push names its gather by channel, template and serial. -/
def execEGidx (o : OpT) (s : State) : Out := .next
  (if s.guard slotE o.g then
    let b := s.rdSB slotE o.b
    match s.me.regs.gather with
    | none => s.slotFault slotE 0x0120
    | some g =>
      if fld b 1 63 ≠ 0 then s.eSelectorFault
      else if 64 ≤ indicesOut s.me then s.reissue slotE
      else
        let s1 := s.push 0x03 o 0 (gatherKey g)
        if bit b 0 then s1.mapRegs fun r => { r with gather := none } else s1
  else s)

/-! ### Completion rings (R320) -/

/-- e.cpop (R320): the record at HEADC, claimed until the bundle commits, or zeros from an empty ring. -/
def execECpop (o : OpT) (s : State) : Out := .next
  (if s.guard slotE o.g then
    s.notDet slotE 0x0312 fun s =>
      s.atHome slotE (s.rdSB slotE o.a) accAtomic true 32 fun s key =>
        let t := towerNo (key / 2 ^ 40)
        let headc := readNat s key 4
        let off := 32 + 32 * (headc % 2 ^ (readNat s (key + 16) 1 % 16))
        if (s.tower t).claims.contains key then s.reissue slotE
        else if headc = readNat s (key + 4) 4 then s.resultQuad slotE o.d 0
        else
          s.atHome slotE (s.rdSB slotE o.a + BitVec.ofNat 64 off) accAtomic false 32 fun s slot =>
            let e := BitVec.ofNat 256 (readNat s slot 32)
            let s1 := s.setTower t { (s.tower t) with claims := key :: (s.tower t).claims }
            (s1.notePop (.ring key e)).resultQuad slotE o.d e
  else s)

/-! ### Barriers (R323) -/

/-- An operation on the barrier at s[a]: alignment, the checks of R38 and R159, and its key. -/
def barrier (o : OpT) (s : State) (broken : Bool) (f : State → Nat → State) : State :=
  if s.guard slotE o.g then
    let a := s.rdSB slotE o.a
    s.notDet slotE 0x0312 fun s =>
      if fld a 0 3 ≠ 0 then s.slotFault slotE 0x0113
      else if broken then s.eSelectorFault
      else s.atHome slotE a accAtomic true 8 f
  else s

/-- e.barm (R323): the arm is performed at the home as its own event. -/
def execEBarm (o : OpT) (s : State) : Out := .next
  (let b := s.rdSB slotE o.b
   barrier o s (fld b 12 20 ≠ 0) fun s key =>
     s.dueFirst .barrierArm { onCore s.now.core with unit := key, addr := s.rdSB slotE o.a, value := b,
                                                     extra := o.d.setWidth 64 })

/-- e.bexp (R323). -/
def execEBexp (o : OpT) (s : State) : Out := .next
  (let b := s.rdSB slotE o.b
   barrier o s (fld b 32 32 ≠ 0) fun s key => s.push 0x09 o 0 key)

/-- e.barv (R323). -/
def execEBarv (o : OpT) (s : State) : Out := .next (barrier o s false fun s key => s.push 0x0A o 0 key)

/-- BARRIER_ARM (R85, R323): the arm of core c at the home; PHASE lands in s[d], or the arm is refused. -/
def execBarrierArm (s : State) : Out := .next
  (let o := s.now
   let s1 := homeWord s o.core o.unit
   let w := readWord s1 o.unit
   match barArm w (fld o.value 32 32) (fld o.value 0 12) with
   | none => s1.slotFault slotE 0x0123
   | some w' => (writeWord s1 o.unit w').resultS slotE (BitVec.ofNat 6 o.extra.toNat) (BitVec.ofNat 64 (barPhase w)))

/-- An operation of core c's context on the barrier of the occasion. -/
def barrierEvent (s : State) (f : Word → Option Word) : State :=
  let o := s.now
  barrierApply (homeWord s o.core o.unit) o.unit f (coreCtx s o.core) (coreGen s o.core) o.core.val o.addr

/-- BARRIER_EXPECT (R85). -/
def execBarrierExpect (s : State) : Out := .next (barrierEvent s fun w => barExpect w (fld s.now.value 0 32))
/-- BARRIER_ARRIVAL (R85). -/
def execBarrierArrival (s : State) : Out := .next (barrierEvent s barArrive)

/-! ### Curd queries (R324) -/

/-- Elements of the result queue that core c's queries have reserved: two for each that is in the gate or in flight. -/
def reservedElements (s : State) (c : CoreId) : Nat :=
  2 * (((s.core c).gate.filter fun e => match e with
      | .push p _ => pushMajor p = 0x10 || pushMajor p = 0x11
      | _ => false).length
    + ((s.tower (towerOf c)).queries.filter fun q => q.core = c && !q.orphan).length)

/-- A query with its fractions in key. -/
def query (maj : BitVec 6) (o : OpT) (s : State) (frac : Nat) : State :=
  if s.guard slotE o.g then
    if fld (s.rdSB slotE o.b) 16 48 ≠ 0 then s.eSelectorFault
    else if 16 < s.me.results.length + reservedElements s s.now.core + 2 then s.reissue slotE
    else s.push maj o (s.rdV slotE o.a) frac
  else s

/-- e.cq (R324). -/
def execECq (o : OpT) (s : State) : Out := .next (query 0x10 o s 0)
/-- e.cqi (R324). -/
def execECqi (o : OpT) (s : State) : Out := .next (query 0x11 o s (s.rdV slotE o.d).toNat)

/-- e.cqpop (R324): the next result element, provisionally; an empty queue stalls the slot. -/
def execECqpop (o : OpT) (s : State) : Out := .next
  (if s.guard slotE o.g then
    match s.me.results with
    | r :: rs => ((s.setMe { s.me with results := rs }).notePop (.curdRow r)).resultV slotE o.d r
    | [] => s.awaitQueue slotE 1
  else s)

/-! ### Sends and receives (R325, R326) -/

/-- A send outside its limits (R379); a non-zero reserved bit of its header is a selector that is not admitted (log 36). -/
def State.sendFault (s : State) : State := s.slotFault slotE 0x0121

/-- e.osend (R325). -/
def execEOsend (o : OpT) (s : State) : Out := .next
  (if s.guard slotE o.g then
    let h := s.rdSB slotE o.a
    if fld h 43 5 ≠ 0 || fld h 24 8 ≠ 0 then s.eSelectorFault
    else if fld h 40 3 ≠ 0 || 16 < fld h 32 8 then s.sendFault
    else s.push 0x18 o (s.rdV slotE o.d) 0
  else s)

/-- The payload of a send is reached: its tile, and the one of its last byte (R159, R309). -/
def State.payloadReached (s : State) (a : Word) (f : State → State) : State :=
  match reachTile s s.now.core none (fld a 16 48) none false with
  | (.ok e, s1) => match poisonOf s1 (tteKey s1 e (fld a 0 16)) 32 with
    | some x => (hostError s1 x).slotFault slotE x
    | none => f s1
  | (.fault q, s1) => if q = 0x0310 then s1.slotFault slotE 0x0312 else s1.refuse slotE q (flatInfo accLoad 7 a)
  | (.transit, s1) => s1.inTransit slotE (flatInfo accLoad 7 a)
  | (.miss, s1) => s1.reissue slotE

/-- e.usend (R325). -/
def execEUsend (o : OpT) (s : State) : Out := .next
  (if s.guard slotE o.g then
    let h := s.rdSB slotE o.a
    let a := s.rdSB slotE o.b
    let cls := fld h 40 3
    let len := fld h 32 8
    if fld h 43 5 ≠ 0 || fld h 24 8 ≠ 0 then s.eSelectorFault
    else if !(cls = 0 || cls = 1 || cls = 3) || (if cls = 3 then 128 else 8) < len || fld h 0 16 = 0xFFFF then s.sendFault
    else if fld a 0 5 ≠ 0 then s.slotFault slotE 0x0113
    else if len = 0 then s.push 0x19 o 0 0
    else s.payloadReached a fun s => s.payloadReached (a + BitVec.ofNat 64 (32 * (len - 1))) fun s => s.push 0x19 o 0 0
  else s)

/-- e.csend (R325). -/
def execECsend (o : OpT) (s : State) : Out := .next
  (if s.guard slotE o.g then
    let h := s.rdSB slotE o.a
    if fld h 8 56 ≠ 0 then s.eSelectorFault
    else match circuitEntry s s.now.core (fld h 0 8) with
      | .error x => s.refuse slotE x (flatInfo accLoad 7 (s.me.cirt + BitVec.ofNat 64 (8 * fld h 0 8)))
      | .ok e =>
        if e / 2 ^ 63 % 2 = 0 || e / 2 ^ 36 % 8 = 0 then s.sendFault else s.push 0x1A o (s.rdV slotE o.d) 0
  else s)

/-- Entry q of the receive-queue table: RING, SLOG, NLOG, and whether it is valid (R179). -/
def recvEntry (s : State) (q : Nat) : BitVec 256 := BitVec.ofNat 256 (readNat s (recvKey s q) 32)
def recvRing (e : BitVec 256) : Word := BitVec.ofNat 64 (fld e 198 58 * 64)
def recvSlog (e : BitVec 256) : Nat := fld e 164 4
def recvNlog (e : BitVec 256) : Nat := fld e 160 4
def recvValid (e : BitVec 256) : Bool := bit e 128 && decide (recvSlog e < 14)
def recvCtx (e : BitVec 256) : BitVec 16 := BitVec.ofNat 16 (fld e 176 16)
def recvGen (e : BitVec 256) : BitVec 8 := BitVec.ofNat 8 (fld e 168 8)
/-- The address of the slot of packet n. -/
def recvSlot (e : BitVec 256) (n : Nat) : Word := recvRing e + BitVec.ofNat 64 (2 ^ recvSlog e * (n % 2 ^ recvNlog e))

/-- e.recv (R326): the head slot, claimed until the bundle commits unless it only peeks; 0 from an empty queue. A peek
acquires the slot as a pop does. -/
def execERecv (o : OpT) (s : State) : Out := .next
  (if s.guard slotE o.g then
    let sel := s.rdSB slotE o.a
    let q := fld sel 0 8
    let e := recvEntry s q
    let c := s.now.core
    if fld sel 9 55 ≠ 0 then s.eSelectorFault
    else if !recvValid e || recvCtx e ≠ coreCtx s c || recvGen e ≠ coreGen s c then s.layoutFault slotE 0x1108
    else if s.hub.claims.contains q then s.reissue slotE
    else if recvCount s q = 0 then s.resultS slotE o.d 0
    else
      let a := recvSlot e (recvHead s q)
      let n := 2 ^ recvSlog e
      if bit sel 8 then (s.notePop (.receive 256 a n)).resultS slotE o.d a
      else
        let s1 := (s.mapHub fun h => { h with claims := q :: h.claims })
        (s1.notePop (.receive q a n)).resultS slotE o.d a
  else s)

/-! ### Rennet commands (R327 to R329) -/

/-- e.spawn and e.dec: a record's address. -/
def recordPush (maj : BitVec 6) (o : OpT) (s : State) : State :=
  if s.guard slotE o.g then
    if fld (s.rdSB slotE o.a) 0 6 ≠ 0 then s.slotFault slotE 0x0113 else s.push maj o 0 0
  else s

/-- e.spawn (R327). -/
def execESpawn (o : OpT) (s : State) : Out := .next (recordPush 0x20 o s)
/-- e.dec (R327). -/
def execEDec (o : OpT) (s : State) : Out := .next (recordPush 0x21 o s)

/-- e.arm and e.prime: a tower. -/
def armPush (maj : BitVec 6) (o : OpT) (s : State) : State :=
  if s.guard slotE o.g then
    if fld (s.rdSB slotE o.b) 2 62 ≠ 0 then s.eSelectorFault else s.push maj o 0 0
  else s

/-- e.arm (R329). -/
def execEArm (o : OpT) (s : State) : Out := .next (armPush 0x23 o s)
/-- e.prime (R329). -/
def execEPrime (o : OpT) (s : State) : Out := .next (armPush 0x24 o s)

/-- Pushes of the continuation of core c that no consumer has taken yet. -/
def unacceptedPushes (s : State) (c : CoreId) : Bool :=
  (s.core c).replay.any fun e => match (s.core c).run with
    | some r => e.record = r.record && e.ctx = r.ctx && e.gen = r.gen
    | none => false

/-- e.done (R328): with a hold it faults; otherwise the open group is promoted, the full release empties the gate, the gather closes,
and the node ends with the commit of the bundle, once every push has been taken (R25). -/
def execEDone (o : OpT) (s : State) : Out := .next
  (if s.guard slotE o.g then
    let c := s.now.core
    if s.me.held ≠ 0 then s.layoutFault slotE 0x1107
    else if !s.me.mat.passes.isEmpty || !gateClears s c then s.reissue slotE
    else
      let s1 := fullRelease (emptyGate s c) c
      if unacceptedPushes s1 c then s1.reissue slotE
      else (closeGather (performPromos (promoteEarly s1 c 3) c) c).setEnding .done
  else s)

end Sys2Proof.Machine
end

