-- ==== Sys2Proof/Machine/RennetEvents.lean ====
section
/-! DEFINITION. What reaches Rennet and what it does in turn: arming (R21, R137 to R140, R156, R160), decrements and spawns
(R24, R327), GCTL and abandonment (R395, R396), dispatch with staging and displacement (R142 to R147, R349), forced
pre-emption (R353 to R359), fusion (R138), and pod-level records (R18, R180, R181). -/

namespace Sys2Proof.Machine

/-! ### The records of an instance -/

def headerRoots (s : State) (key : Nat) : Word := BitVec.ofNat 64 (readNat s (key + 16) 8 / 8 * 8)
def headerNroots (s : State) (key : Nat) : Nat := fld (readWord s key) 32 12
def headerNodes (s : State) (key : Nat) : Nat := fld (readWord s key) 0 16
def headerLaunch (s : State) (key : Nat) : Word := BitVec.ofNat 64 (fld (readWord s (key + 32)) 6 58 * 64)

/-- Every record that the records of the list reach through their successor lists. -/
def walkRecords (s : State) (t : TowerId) (ctx : BitVec 16) (gen : BitVec 8) : Nat → List Word → List Word → List Word
  | 0, _, seen => seen
  | _, [], seen => seen
  | n + 1, x :: todo, seen =>
    if seen.contains x then walkRecords s t ctx gen n todo seen
    else
      let succs := match (rennetKey s t ctx gen x 64).1 with
        | .ok key =>
          let r := readRecord s key
          match (rennetList t ctx gen (nSucc r) (nNsucc r) s).1 with
          | .ok l => l
          | .error _ => []
        | .error _ => []
      walkRecords s t ctx gen n (todo ++ succs) (x :: seen)

/-- The keys of the records that the roots of the header at key reach, with those named besides; 2^27 bounds the edges of
65,535 records. -/
def recordKeys (s : State) (t : TowerId) (ctx : BitVec 16) (gen : BitVec 8) (key : Nat) (named : List Word) : List Nat :=
  let roots := match (rennetList t ctx gen (headerRoots s key) (headerNroots s key) s).1 with
    | .ok l => l
    | .error _ => []
  (walkRecords s t ctx gen (2 ^ 27) (roots ++ named) []).filterMap fun x => match (rennetKey s t ctx gen x 64).1 with
    | .ok k => some k
    | .error _ => none

def instanceKeys (s : State) (t : TowerId) (a : Armed) : List Nat := recordKeys s t a.ctx a.gen a.hdrKey a.named

/-- The armed entries of tower t changed where their header is at key. -/
def State.mapArmed (s : State) (t : TowerId) (key : Nat) (f : Armed → Armed) : State :=
  let w := s.tower t
  s.setTower t { w with armed := w.armed.map fun a => if a.hdrKey = key then f a else a }

/-! ### Arming (R21, R140) -/

/-- The context of a store to GARM, GPRIME or GCTL (R140): a core's own, in extra, or the tower's arming binding. -/
def storeContext (s : State) : Option (BitVec 16 × BitVec 8) :=
  let o := s.now
  if o.unit = 1 then some (BitVec.ofNat 16 o.extra.toNat, BitVec.ofNat 8 (o.extra.toNat / 65536))
  else
    let b := (s.tower o.tower).armb
    let ctx := BitVec.ofNat 16 (fld b 8 16)
    let gen := BitVec.ofNat 8 (fld b 0 8)
    if bit b 24 && ctxCurrent s ctx gen then some (ctx, gen) else none

/-- A store that Rennet t rejects: nothing changes but the record (R21, R393). -/
def rejectStore (s : State) (code : Code) (c : BitVec 16 × BitVec 8) : State :=
  let o := s.now
  faultRecord s o.tower.val code c.1 c.2 (rennetSrc o.tower) (o.value &&& ~~~(63 : Word)) o.value

/-- A host store is discarded and logged if it is not an aligned one of 8 bytes, which extra tells, or if the tower's Rennet is not
ready (R184, R369, R428). -/
def hostBlocked (s : State) : Bool := s.now.unit ≠ 1 && (s.now.extra ≠ 0 || !bit s.hub.ready (40 + s.now.tower.val))
def blockedRecord (s : State) (offset : Nat) : State :=
  hubRecord s 0x6030 (BitVec.ofNat 64 (0x1000 * s.now.tower.val + offset))

/-- The header that the store names, with the checks of R140. They come before those of R21, so that a header of another context is
reported with 0x0225 whatever its STATE: the spec gives no order (DESIGN CHOICE, log 28). -/
def storeHeader (s : State) (c : BitVec 16 × BitVec 8) : Except Code Nat × State :=
  let r := rennetKey s s.now.tower c.1 c.2 (s.now.value &&& ~~~(63 : Word)) 64
  match r.1 with
  | .error _ => r
  | .ok key =>
    if headerCtx r.2 key ≠ c.1 || headerGen r.2 key ≠ c.2 || ctxBroken r.2 c.1 then (.error 0x0225, r.2) else r

/-- A reserved field of the header, NODES or NROOTS outside its range (R19, R393). -/
def headerBroken (s : State) (key : Nat) : Bool :=
  let h : BitVec 512 := BitVec.ofNat 512 (readNat s key 64)
  fld h 336 176 ≠ 0 || fld h 256 6 ≠ 0 || fld h 192 5 ≠ 0 || fld h 88 8 ≠ 0 || fld h 16 16 ≠ 0
    || headerNodes s key = 0 || headerNroots s key = 0 || decide (1024 < headerNroots s key)

/-- The launch descriptor (R137), none where it fails. -/
def readLaunch (s : State) (t : TowerId) (c : BitVec 16 × BitVec 8) (key : Nat) : Option (BitVec 512) :=
  match (rennetKey s t c.1 c.2 (headerLaunch s key) 64).1 with
  | .error _ => none
  | .ok k =>
    let d : BitVec 512 := BitVec.ofNat 512 (readNat s k 64)
    if fld d 416 16 ≠ 0 || fld d 13 307 ≠ 0 || fld d 3 5 ≠ 0 || bit d 0 || (bit d 2 && !bit d 1)
        || (bit d 1 && (decide (fld d 8 5 < 8) || decide (20 < fld d 8 5))) then none else some d

def launchOf (d : BitVec 512) : Launch :=
  { det := bit d 1, lock := bit d 2, t0 := BitVec.ofNat 64 (fld d 448 64), flen := BitVec.ofNat 5 (fld d 8 5),
    lpeer := BitVec.ofNat 16 (fld d 432 16), rbank := BitVec.ofNat 32 (fld d 320 32) }

/-- The cores named by the level-0 continuations among records (R156). -/
def partitionMask (s : State) (keys : List Nat) : BitVec 128 :=
  keys.foldl (fun m k =>
    let r := readRecord s k
    if nKind r = 0 && nLevel r = 0 && decide (nGroup r < 128) then setBit m (nGroup r) true else m) 0

/-- The towers of a partition's cores. -/
def partitionTowers (m : BitVec 128) : List TowerId := (List.finRange 4).filter fun t => fld m (32 * t.val) 32 ≠ 0

/-- What R156 and R160 find against a deterministic arming. -/
def detRefusal (s : State) (l : Launch) (keys : List Nat) (m : BitVec 128) : Option Code :=
  let ahead := (l.t0 - s.hub.podTime).toNat
  let hot (t : TowerId) : Bool :=
    let w := (s.tower t).tiers
    w.skip.isSome || (w.map.toList.any fun p => decide (112 ≤ w.temp.toList.getD p.toNat 0))
  if keys.any fun k => nKind (readRecord s k) = 0 && nLevel (readRecord s k) ≠ 0 then some 0x0320
  else if decide (ahead < 6450) || decide (2 ^ 29 < ahead) then some 0x0321
  else if ((List.finRange 4).any fun t => (s.tower t).armed.any fun a => a.launch.det && (a.part &&& m) ≠ 0)
      || (partitionTowers m).any hot then some 0x0322
  else none

/-- FUSE and FMASK (R138): a cluster whose state differs waits for the change. -/
def requestFusion (s : State) (d : BitVec 512) : State :=
  (List.finRange 32).foldl (fun st x =>
    if bit d (352 + x.val) then
      let k := st.cluster x
      let f := bit d (384 + x.val)
      st.setCluster x { k with fuseReq := if k.fused = f then none else some f }
    else st) s

/-- The four lines that the launch cache holds of an instance (R139). -/
def launchLines (s : State) (t : TowerId) (ctx : BitVec 16) (gen : BitVec 8) (key : Nat) : List Nat :=
  let line (a : Word) : Option Nat := match (rennetKey s t ctx gen a 8).1 with
    | .ok k => some (k / 128)
    | .error _ => none
  let root : Word := match (rennetKey s t ctx gen (headerRoots s key) 8).1 with
    | .ok k => BitVec.ofNat 64 (readNat s k 8 / 64 * 64)
    | .error _ => 0
  let entry := match (rennetKey s t ctx gen root 64).1 with
    | .ok k => line (nEntry (readRecord s k))
    | .error _ => none
  key / 128 :: [line (headerRoots s key), line root, entry].filterMap id

/-- The launch cache of a tower: 64 instances, the most recently used first, with the context entries that Rennet keeps (R139). -/
def cacheLaunch (s : State) (t : TowerId) (hdr : Word) (c : BitVec 16 × BitVec 8) (key : Nat) : State :=
  let w := s.tower t
  let e : LaunchEntry := { hdr := hdr, ctx := c.1, gen := c.2, lines := launchLines s t c.1 c.2 key }
  s.setTower t { w with
    launchCache := (e :: w.launchCache.filter fun x => !(x.hdr = hdr && x.ctx = c.1 && x.gen = c.2)).take 64,
    ctxKept := (c.1 :: w.ctxKept.filter fun x => x ≠ c.1).take 64 }

/-- A reserved record returns to the head of its queue (R147). -/
def unstage (s : State) (t : TowerId) (g : Staging) : State :=
  let w := s.tower t
  s.setTower t { w with staging := w.staging.filter fun x => x ≠ g, ready := g.entry :: w.ready }

/-- Core c, which joins a deterministic partition, is reserved for no record of another instance (R147, R156). -/
def unstageCore (s : State) (c : CoreId) : State :=
  let t := towerOf c
  ((s.tower t).staging.filter fun g => g.core = c).foldl (fun st g => unstage st t g) s

/-- Steps 3 and 4 of R21. -/
def armInstance (s : State) (t : TowerId) (c : BitVec 16 × BitVec 8) (key : Nat) (d : BitVec 512) (part : BitVec 128) :
    State :=
  let hdr := s.now.value &&& ~~~(63 : Word)
  let s1 := setHeaderRemain (setHeaderState s key 1) key (headerNodes s key)
  let s2 := writeNat s1 (key + 12) 4 (headerArmcnt s key + 1)
  let a : Armed := { hdr := hdr, hdrKey := key, ctx := c.1, gen := c.2, launch := launchOf d, part := part,
                     abandoned := false, named := [], origin := none }
  let s3 := cacheLaunch (requestFusion s2 d) t hdr c key
  let s3a := if a.launch.lock then
      (s3.mapHub fun h => { h with lockstep := h.lockstep ++ [{ key := key, ctx := c.1, gen := c.2, launch := a.launch,
                                                                 records := [], frame := 0, own := [], partner := [], last := none }] })
    else s3
  let s4 := s3a.setTower t { (s3a.tower t) with armed := (s3a.tower t).armed ++ [a] }
  let s5 := (List.finRange 128).foldl (fun st k => if bit part k.val then forcedStop (unstageCore st k) k else st) s4
  match rennetList t c.1 c.2 (headerRoots s key) (headerNroots s key) s5 with
  | (.error x, s6) => faultInstance s6 t.val key x c.1 c.2 (rennetSrc t) hdr 0
  | (.ok roots, s6) => roots.foldl (fun st r => makeReady st t t a r true) s6

/-- GARM_STORE (R21, R139, R140, R329): from a core (unit 1) or the host, the value stored in value. -/
def execGarmStore (s : State) : Out := .next
  (let t := s.now.tower
   if hostBlocked s then blockedRecord s 0
   else match storeContext s with
    | none => rejectStore s 0x0225 (BitVec.ofNat 16 (fld (s.tower t).armb 8 16), BitVec.ofNat 8 (fld (s.tower t).armb 0 8))
    | some c => match storeHeader s c with
      | (.error x, s1) => rejectStore s1 x c
      | (.ok key, s1) =>
        if headerState s1 key ≠ 0 then rejectStore s1 0x0220 c
        else if fld s.now.value 0 6 ≠ 0 then rejectStore s1 0x0221 c
        else if headerBroken s1 key then rejectStore s1 0x0223 c
        else match readLaunch s1 t c key with
          | none => rejectStore s1 0x0222 c
          | some d =>
            let l := launchOf d
            let keys := if l.det then recordKeys s1 t c.1 c.2 key [] else []
            let m := partitionMask s1 keys
            match (if l.det then detRefusal s1 l keys m else none) with
            | some x => rejectStore s1 x c
            | none => armInstance s1 t c key d m)

/-- GPRIME_STORE (R139, R140): the instance's lines come into the launch cache. -/
def execGprimeStore (s : State) : Out := .next
  (let t := s.now.tower
   if hostBlocked s then blockedRecord s 8
   else match storeContext s with
    | none => rejectStore s 0x0225 (BitVec.ofNat 16 (fld (s.tower t).armb 8 16), BitVec.ofNat 8 (fld (s.tower t).armb 0 8))
    | some c => match storeHeader s c with
      | (.error x, s1) => rejectStore s1 x c
      | (.ok key, s1) =>
        if fld s.now.value 0 6 ≠ 0 then rejectStore s1 0x0221 c
        else cacheLaunch s1 t (s.now.value &&& ~~~(63 : Word)) c key)

/-! ### Decrements and spawns -/

/-- The mark of a decrement that a core has pushed: its context is in bits [31:16] and its generation in [39:32]. -/
def pushMark : Nat := 4

/-- A record that a core's push names, with the instance that it belongs to (R327): its key, its header's key, and the
armed entry with its home tower. -/
def pushedRecord (s : State) (t : TowerId) (ctx : BitVec 16) (gen : BitVec 8) (addr : Word) :
    Except Code (Nat × Nat × Option (TowerId × Armed)) × State :=
  let k := rennetKey s t ctx gen addr 64
  match k.1 with
  | .error x => (.error x, k.2)
  | .ok key =>
    let h := rennetKey k.2 t ctx gen (nInst (readRecord k.2 key)) 64
    match h.1 with
    | .error x => (.error x, h.2)
    | .ok hdr => (.ok (key, hdr, findArmed h.2 hdr), h.2)

/-- A decrement of PREDS at the record's home by the Rennet of tower w (R24): zero faults the instance, and the one that takes it to zero makes the
record ready. -/
def decrementRecord (s : State) (t w : TowerId) (a : Armed) (key : Nat) (addr : Word) : State :=
  let n := nPreds (readRecord s key)
  if n = 0 then faultInstance s t.val a.hdrKey 0x0215 a.ctx a.gen (rennetSrc w) a.hdr addr
  else
    let s1 := writeNat s (key + 18) 2 (n - 1)
    if n = 1 then makeReady s1 t w a addr false else s1

/-- A decrement that a core has pushed (R327). -/
def pushedDecrement (s : State) : State :=
  let o := s.now
  let ctx := BitVec.ofNat 16 (fld o.extra 16 16)
  let gen := BitVec.ofNat 8 (fld o.extra 32 8)
  match pushedRecord s o.tower ctx gen o.addr with
  | (.error x, s1) => faultRecord s1 o.tower.val x ctx gen (rennetSrc o.tower) o.addr 0
  | (.ok (key, _, some (t, a)), s1) =>
    decrementRecord (s1.mapArmed t a.hdrKey fun x => { x with named := o.addr :: x.named }) t o.tower a key o.addr
  | (.ok (key, hdr, none), s1) =>
    let n := nPreds (readRecord s1 key)
    if n = 0 then faultInstance s1 o.tower.val hdr 0x0215 ctx gen (rennetSrc o.tower) (nInst (readRecord s1 key)) o.addr
    else writeNat s1 (key + 18) 2 (n - 1)

/-- SUCCESSOR_DECREMENT (R24, R327): of the successor in addr, for the instance whose header is at unit; after the last of a
node's successors the node's record is restored and REMAIN counts down. -/
def execSuccessorDecrement (s : State) : Out := .next
  (let o := s.now
   if bit o.extra 2 then pushedDecrement s
   else match findArmed s o.unit with
    | none => s
    | some (t, a) =>
      let k := rennetKey s o.tower a.ctx a.gen o.addr 64
      let s1 := match k.1 with
        | .error x => faultInstance k.2 t.val a.hdrKey x a.ctx a.gen (rennetSrc o.tower) o.addr 0
        | .ok key => decrementRecord k.2 t o.tower a key o.addr
      if bit o.extra 0 then finishNode s1 t a o.value.toNat (bit o.extra 1) else s1)

/-- SPAWN_AT_HOME_RENNET (R327): the record in addr joins its instance, or the instance faults. -/
def execSpawnAtHomeRennet (s : State) : Out := .next
  (let o := s.now
   let ctx := BitVec.ofNat 16 (fld o.extra 16 16)
   let gen := BitVec.ofNat 8 (fld o.extra 32 8)
   match pushedRecord s o.tower ctx gen o.addr with
   | (.error x, s1) => faultRecord s1 o.tower.val x ctx gen (rennetSrc o.tower) o.addr 0
   | (.ok (_, hdr, none), s1) => faultInstance s1 o.tower.val hdr 0x0216 ctx gen (rennetSrc o.tower) o.addr 0
   | (.ok (key, _, some (t, a)), s1) =>
     let r := readRecord s1 key
     let n := headerRemain s1 a.hdrKey
     if headerState s1 a.hdrKey ≠ 1 || nState r ≠ 0 || nCtx r ≠ a.ctx || nGen r ≠ a.gen || nInst r ≠ a.hdr || n = 65535 then
       faultInstance s1 t.val a.hdrKey 0x0216 a.ctx a.gen (rennetSrc t) o.addr 0
     else
       let s2 := (setHeaderRemain s1 a.hdrKey (n + 1)).mapArmed t a.hdrKey fun x => { x with named := o.addr :: x.named }
       if nPreds r = 0 then makeReady s2 t o.tower a o.addr false else s2)

/-! ### Stopping an instance (R396) -/

/-- Every hold of core c is released at its home without write-back, and compatible waiters are granted (R70, R396). -/
def releaseHolds (s : State) (c : CoreId) : State :=
  let k := s.core c
  (List.range 64).foldl (fun st i =>
    if bit k.held i then
      match (flatKeyOf st (coreView st c) (bSync (bindEntry k i))).1 with
      | .ok key =>
        let t := towerNo (key / 2 ^ 40)
        grantWaiters t key (st.tower t).syncs.length (writeWord st key (syncRelease (readWord st key) (!bit k.hmode i)))
      | .error _ => st
    else st) s

/-- Core c stops (R396 step 3): the uncommitted bundle and the gate are discarded and nothing is saved; the record takes
STATE 6. -/
def killCore (s : State) (c : CoreId) : State :=
  match (s.core c).run with
  | none => s
  | some r =>
    let s1 := undoBundle s c
    let s2 := releaseHolds (s1.setCore c { (s1.core c) with gate := [], quantum := [] }) c
    goIdle (leaveRecord s2 r.recKey 6) c

/-- Entries of a queue of records that p names take STATE 6. -/
def discardEntries (s : State) (es : List ReadyEntry) : State := es.foldl (fun st e => leaveRecord st e.recKey 6) s

/-- The copies of a channel that p does not name. -/
def Channel.without (ch : Channel) (p : CopyReq → Bool) : Channel :=
  { ch with queue := ch.queue.filter fun r => !p r,
            running := match ch.running with | some x => if p x.req then none else some x | none => none }

/-- The requests of all channels that p names leave. -/
def dropCopies (s : State) (p : CopyReq → Bool) : State :=
  { s with clusters := s.clusters.map fun x => { x with chans := x.chans.map fun ch => ch.without p },
           hub := { s.hub with chans := s.hub.chans.map fun v => v.map fun ch => ch.without p } }

/-- The record that runs as a copy node of a request. -/
def CopyReq.nodeEntry (r : CopyReq) : Option ReadyEntry :=
  match r.source with | .node _ e => some e | _ => none

/-- Copy nodes in any channel. -/
def copyNodes (s : State) : List ReadyEntry :=
  let all := (s.clusters.toList.flatMap fun x => x.chans.toList) ++ s.hub.chans.toList.flatMap Vector.toList
  all.flatMap fun ch => (ch.queue ++ (match ch.running with | some x => [x.req] | none => [])).filterMap CopyReq.nodeEntry

/-- Steps 2 to 4 of R396 in tower t, for the records that p names by instance, context and generation. -/
def stopTower (s : State) (t : TowerId) (p : Nat → BitVec 16 → BitVec 8 → Bool) : State :=
  let q : ReadyEntry → Bool := fun e => p e.instKey e.ctx e.gen
  let w := s.tower t
  let out := w.ready.filter q ++ (w.susp.map Suspended.entry).filter q ++ (w.staging.map Staging.entry).filter q
    ++ ((w.displaced.map fun d => d.run.entry none).filter q)
  let gone : Bool := match w.curd with | some c => p c.instKey c.ctx c.gen | none => false
  let s1 := discardEntries s out
  let s2 := match w.curd with | some c => if gone then leaveRecord s1 c.recKey 6 else s1 | none => s1
  s2.setTower t { (s2.tower t) with
    ready := w.ready.filter fun e => !q e, susp := w.susp.filter fun x => !q x.entry,
    staging := w.staging.filter fun x => !q x.entry, displaced := w.displaced.filter fun d => !q (d.run.entry none),
    curd := if gone then none else w.curd }
    |> fun st => leaveWaiters st t fun x => x.core.isNone && ((w.susp.filter fun y => q y.entry).any fun y =>
      y.entry.record = x.record)

/-- Steps 2 to 4 of R396 on the whole device. -/
def stopRecords (s : State) (p : Nat → BitVec 16 → BitVec 8 → Bool) : State :=
  let s1 := (List.finRange 128).foldl (fun st c => match (st.core c).run with
    | some r => if p r.instKey r.ctx r.gen then killCore st c else st
    | none => st) s
  let s2 := (List.finRange 4).foldl (fun st t => stopTower st t p) s1
  let nodes := (copyNodes s2).filter fun e => p e.instKey e.ctx e.gen
  dropCopies (discardEntries s2 nodes) fun r => match r.nodeEntry with
    | some e => p e.instKey e.ctx e.gen
    | none => match r.source with
      | .staging t _ k => !((s2.tower t).staging.any fun g => g.ticket = k)
      | _ => false

/-! ### GCTL (R395, R396) -/

/-- A GCTL command that is refused (R393, R396). -/
def refuseCommand (s : State) (c : BitVec 16 × BitVec 8) : State := rejectStore s 0x0224 c

/-- A GCTL command of operation op: its address as Rennet reads it in the context of the arming binding. -/
def command (s : State) (op : Nat) (f : State → BitVec 16 × BitVec 8 → Nat → State) : State :=
  let t := s.now.tower
  let v := s.now.value
  if hostBlocked s then blockedRecord s 0x10
  else match storeContext s with
    | none => refuseCommand s (BitVec.ofNat 16 (fld (s.tower t).armb 8 16), BitVec.ofNat 8 (fld (s.tower t).armb 0 8))
    | some c =>
      if fld v 2 4 ≠ 0 || fld v 0 2 ≠ op then refuseCommand s c
      else match rennetKey s t c.1 c.2 (v &&& ~~~(63 : Word)) 64 with
        | (.error x, s1) => rejectStore s1 x c
        | (.ok key, s1) => f s1 c key

/-- The instance of a faulted record that a resume or restart may act on: STATE 5, instance STATE 2, not deterministic,
context and generation those of the binding (R140, R396). -/
def faultedInstance (s : State) (t : TowerId) (c : BitVec 16 × BitVec 8) (key : Nat) : Option (TowerId × Armed) :=
  let r := readRecord s key
  if nState r ≠ 5 || nCtx r ≠ c.1 || nGen r ≠ c.2 then none
  else match (rennetKey s t c.1 c.2 (nInst r) 64).1 with
    | .error _ => none
    | .ok hdr => match findArmed s hdr with
      | some (home, a) => if headerState s hdr = 2 && !a.launch.det then some (home, a) else none
      | none => none

/-- The instance runs again once none of its records stands at STATE 5 (R396). -/
def settleInstance (s : State) (home : TowerId) (a : Armed) : State :=
  if (instanceKeys s home a).any fun k => recordState s k = 5 then s else setHeaderState s a.hdrKey 1

/-- GCTL_RESUME (R396): the continuation resumes from its save, at the head of its queue. -/
def execGctlResume (s : State) : Out := .next
  (command s 0 fun s c key =>
    let r := readRecord s key
    match faultedInstance s s.now.tower c key with
    | none => refuseCommand s c
    | some (home, a) =>
      match saveAreaKey s (coreNo (32 * (nodeTower home r (fld r 96 7)).val)) c.1 c.2 (nSave r) with
      | (none, s1) => refuseCommand s1 c
      | (some base, s1) =>
        let h := readHead s1 base
        let t := nodeTower home r h.core
        if nKind r ≠ 0 || readNat s1 (base + 0x1B00) 16 / 2 ^ 99 % 2 = 0 then refuseCommand s1 c
        else
          let e := { mkReady s1 t a (s.now.value &&& ~~~(63 : Word)) key r with
                       head := true, only := if h.aff then some (coreNo h.core) else none }
          settleInstance (pushReady (leaveRecord s1 key 4) t home e) home a)

/-- The save header of a restarted continuation: SKIND ← 0 and AFF ← 0. -/
def clearSave (s : State) (base : Nat) : State :=
  let w := readWord s (base + 24)
  writeWord s (base + 24) (setFld (setBit w 7 false) 12 4 0)

/-- GCTL_RESTART (R396): the node runs from its start, at the tail of its queue; a pod-level one is placed again. -/
def execGctlRestart (s : State) : Out := .next
  (command s 1 fun s c key =>
    let r := readRecord s key
    match faultedInstance s s.now.tower c key with
    | none => refuseCommand s c
    | some (home, a) =>
      let t := nodeTower home r (fld r 96 7)
      let s1 := if nKind r = 0 then
          (match saveAreaKey s (coreNo (32 * t.val)) c.1 c.2 (nSave r) with
            | (some base, s2) => clearSave s2 base
            | (none, s2) => s2)
        else s
      let s3 := leaveRecord s1 key 1
      let addr := s.now.value &&& ~~~(63 : Word)
      let s4 := if nLevel r = 3 then
          s3.due .podRecordForward { Occasion.none with tower := home, unit := key, addr := addr,
                                                        value := BitVec.ofNat 64 a.hdrKey }
        else pushReady s3 t home (mkReady s3 t a addr key r)
      settleInstance s4 home a)

/-- GCTL_ABANDON (R396): the instance takes STATE 3 and everything of it stops. -/
def execGctlAbandon (s : State) : Out := .next
  (command s 2 fun s c key =>
    let st := headerState s key
    if headerCtx s key ≠ c.1 || headerGen s key ≠ c.2 || !(st = 1 || st = 2) then refuseCommand s c
    else
      let s1 := setHeaderState s key 3
      match findArmed s1 key with
      | none => s1
      | some (home, _) =>
        let s2 := s1.mapArmed home key fun x => { x with abandoned := true }
        (stopRecords s2 fun k _ _ => k = key).due .abandonComplete { onTower home with unit := key })

/-- ABANDON_COMPLETE (R396): nothing of the instance runs; its completion record and its fault record are written. -/
def execAbandonComplete (s : State) : Out := .next
  (let t := s.now.tower
   let key := s.now.unit
   match (s.tower t).armed.find? fun a => a.hdrKey = key && a.abandoned with
   | none => s
   | some a =>
     let s1 := stopRecords s fun k _ _ => k = key
     let s2 := offerInstance s1 t a 0x0230
     let s3 := faultRecord s2 t.val 0x0230 a.ctx a.gen (rennetSrc t) a.hdr 0
     disarm s3 t fun x => x.hdrKey = key)

/-! ### Dispatch -/

/-- The staging entries of a record at its first pick-up (R145, R146), or the code that faults it. -/
def stagingPlan (s : State) (c : CoreId) (e : ReadyEntry) (r : BitVec 512) : Except Code (List (BitVec 128)) × State :=
  match saveAreaKey s c e.ctx e.gen (nSave r) with
  | (none, s1) => (.error 0x021A, s1)
  | (some base, s1) => match poisonOf s1 base 8 with
    | some x => (.error x, s1)
    | none =>
      let w := readWord s1 base
      let n := fld w 0 4
      if 8 < n || fld w 4 2 ≠ 0 then (.error 0x0218, s1)
      else (List.range n).foldl (fun (acc : Except Code (List (BitVec 128)) × State) i =>
        match acc.1 with
        | .error _ => acc
        | .ok l =>
          match rennetKey acc.2 (towerOf c) e.ctx e.gen (BitVec.ofNat 64 (fld w 6 58 * 64 + 16 * i)) 16 with
          | (.error x, s2) => (.error x, s2)
          | (.ok key, s2) =>
            let d := BitVec.ofNat 128 (readNat s2 key 16)
            if fld d 9 55 ≠ 0 then (.error 0x0218, s2) else (.ok (l ++ [d]), s2)) (.ok [], s1)

/-- A request joins the queue of a channel. -/
def pushCopy (s : State) (d : Dest4) (r : CopyReq) : State :=
  let ch := s.churnChan d
  let n := if r.gath.isSome then ch.seq else ch.seq + 1
  s.setChurnChan d { ch with queue := ch.queue ++ [{ r with ordinal := n }], seq := n }

/-- One copy of the staging list with the ticket on channel 15 of the core's cluster (R146). -/
def stageCopy (s : State) (t : TowerId) (c : CoreId) (e : ReadyEntry) (ticket : Nat) (d : BitVec 128) : State :=
  let p := BitVec.ofNat 64 (fld d 64 64)
  pushCopy s { kind := 1, unit := (clusterOf c).val, chan := 15 }
    { param := if bit d 8 then setFld p 0 7 c.val else p, tmpl := BitVec.ofNat 8 (fld d 0 8), gath := none, ctx := e.ctx,
      gen := e.gen, rbank := (s.core c).preRbank, source := .staging t c ticket, ordinal := 0 }

/-- An entry goes to core c (R142, R146): staged first, or picked up at once. -/
def dispatchTo (s : State) (t : TowerId) (c : CoreId) (e : ReadyEntry) : State :=
  match findArmed s e.instKey with
  | none => leaveRecord s e.recKey 6
  | some (home, a) =>
    let r := readRecord s e.recKey
    if !ctxCurrent s e.ctx e.gen then discardNode s home a e.recKey
    else if recordBroken r then refusePickup s t home e 0x0213
    else if nState r = 4 then pickUp s c e false
    else match stagingPlan s c e r with
      | (.error x, s1) => refusePickup s1 t home e x
      | (.ok [], s1) => pickUp s1 c e false
      | (.ok (d :: ds), s1) =>
        let w := s1.tower t
        let g : Staging := { entry := e, core := c, list := ds, mac := (d :: ds).any fun x => bit x 8, failed := 0,
                             ticket := w.stagings, ended := false }
        stageCopy (s1.setTower t { w with staging := w.staging ++ [g], stagings := w.stagings + 1 }) t c e w.stagings d

/-- A copy of the staging list with the ticket has ended with a status: the next of the list runs, or its last copy has ended
(R146). A list that has been given up has no ticket here (R147). -/
def stagingDone (s : State) (t : TowerId) (c : CoreId) (ticket : Nat) (status : Code) : State :=
  let w := s.tower t
  match w.staging.find? fun g => g.core = c && g.ticket = ticket with
  | none => s
  | some g =>
    let put (g2 : Staging) : State :=
      s.setTower t { w with staging := w.staging.map fun x => if x = g then g2 else x }
    if status ≠ 0 then put { g with failed := status, list := [], ended := true }
    else match g.list with
      | [] => put { g with ended := true }
      | d :: ds => stageCopy (put { g with list := ds }) t c g.entry ticket d

/-- A staged record that may be dispatched now: its last copy has ended, and its cluster waits for no change of fusion (R138, R146). -/
def stagedNext (s : State) (t : TowerId) : Option Staging :=
  (s.tower t).staging.find? fun g => g.ended && (g.failed ≠ 0 || !fusionWaits s (clusterOf g.core))

/-- STAGED_DISPATCH (R146): the reserved record of the core is picked up, or faulted with the status of its copy. -/
def execStagedDispatch (s : State) : Out := .next
  (let c := s.now.core
   let t := towerOf c
   let w := s.tower t
   match w.staging.find? fun g => g.core = c with
   | none => s
   | some g =>
     let s1 := s.setTower t { w with staging := w.staging.filter fun x => x ≠ g }
     if g.failed ≠ 0 then
       (match findArmed s1 g.entry.instKey with
        | some (home, _) => refusePickup s1 t home g.entry g.failed
        | none => leaveRecord s1 g.entry.recKey 6)
     else if fusionWaits s (clusterOf c) then s
     else if coreMayRun s c g.entry then pickUp s1 c g.entry g.mac else unstage s t g)

/-- The best entry for a unit other than a core. -/
def chooseTarget (s : State) (t : TowerId) (p : Target → Bool) : Option ReadyEntry :=
  bestEntry s (queueHeads [] ((s.tower t).ready.filter fun e => p e.target && entryLive s e))

/-- The first channel 0 to 14 of a Churn that is idle (R29, R143). -/
def freeChannel (s : State) (kind unit : Nat) : Option Nat :=
  (List.range 15).find? fun i =>
    let ch := s.churnChan { kind := kind, unit := unit, chan := i }
    ch.queue.isEmpty && ch.running.isNone

/-- A copy node goes to a channel of its Churn (R143, R317). -/
def dispatchCopy (s : State) (t : TowerId) (kind unit chan : Nat) (e : ReadyEntry) : State :=
  let s0 := dropReady s t e
  match findArmed s0 e.instKey with
  | none => leaveRecord s0 e.recKey 6
  | some (home, a) =>
    let r := readRecord s0 e.recKey
    if !ctxCurrent s0 e.ctx e.gen then discardNode s0 home a e.recKey
    else if recordBroken r then refusePickup s0 t home e 0x0213
    else
      let owner := if kind = 1 then unit else 32 + unit
      let s1 := setRecordState s0 e.recKey 2 true owner
      pushCopy s1 { kind := kind, unit := unit, chan := chan }
        { param := BitVec.ofNat 64 (fld r 0 64), tmpl := BitVec.ofNat 8 (fld r 256 8), gath := none, ctx := e.ctx, gen := e.gen,
          rbank := none, source := .node t e, ordinal := 0 }

/-- A curd program goes to the tower's curd units, whose sequencer will read it (R143, R342). -/
def dispatchCurd (s : State) (t : TowerId) (e : ReadyEntry) : State :=
  let s0 := dropReady s t e
  match findArmed s0 e.instKey with
  | none => leaveRecord s0 e.recKey 6
  | some (home, a) =>
    if !ctxCurrent s0 e.ctx e.gen then discardNode s0 home a e.recKey
    else if recordBroken (readRecord s0 e.recKey) then refusePickup s0 t home e 0x0213
    else
      let s1 := setRecordState s0 e.recKey 2 true t.val
      let p : CurdProgram :=
        { record := e.record, recKey := e.recKey, inst := e.inst, instKey := e.instKey, ctx := e.ctx, gen := e.gen,
          words := [], pc := 0, clock := 0, lastRow := none, refresh := 0, fu := 0, nu := 0, aw := 0, args := [], wbase := 0,
          pages := [], cflg := 0, units := [], writes := [], loads := [] }
      (s1.setTower t { (s1.tower t) with curd := some p }).due .curdProgramStart (onTower t)

/-! ### Priority 3 (R144, R147) -/

/-- The cores of tower t that serve the queues of a target (R134). -/
def targetCores (t : TowerId) (g : Target) : List CoreId :=
  (List.finRange 128).filter fun c => towerOf c = t && (match g with
    | .core d => c = d
    | .cluster x => clusterOf c = x
    | .tower => true
    | _ => false)

/-- Priority-3 records that head their queues and find no idle core in their group, in the order in which they would be taken
(R144). -/
def urgentEntries (s : State) (t : TowerId) : List ReadyEntry :=
  (queueHeads [] ((s.tower t).ready.filter fun e => e.prio = 3 && !(targetCores t e.target).isEmpty && entryLive s e)).filter fun e =>
    !(targetCores t e.target).any fun c => coreIdle s c

/-- A core that is reserved for staging and that a priority-3 record takes (R138, R147). -/
def reservedCore (s : State) (t : TowerId) : Option (Staging × ReadyEntry) :=
  (s.tower t).staging.findSome? fun g =>
    if g.entry.prio = 3 || fusionWaits s (clusterOf g.core) then none
    else (bestEntry s ((urgentEntries s t).filter fun e => coreMayRun s g.core e)).map fun e => (g, e)

/-- The order in which R144 chooses a core to displace: lowest running priority, earliest pick-up, lowest number. -/
def displacedBefore (s : State) (c d : CoreId) : Bool :=
  match (s.core c).run, (s.core d).run with
  | some x, some y =>
    if x.prio ≠ y.prio then decide (x.prio.toNat < y.prio.toNat)
    else if x.pickup ≠ y.pickup then decide (x.pickup < y.pickup) else decide (c.val < d.val)
  | _, _ => false

/-- The records that no core asked to displace its continuation will take: each asked core takes the first that it may run. -/
def unserved (s : State) : List CoreId → List ReadyEntry → List ReadyEntry
  | [], es => es
  | c :: cs, es => unserved s cs (eraseFirst (fun e => coreMayRun s c e) es)

/-- The cores that may be asked to displace their continuation for a record (R144, R156). -/
def displaceable (s : State) (t : TowerId) (e : ReadyEntry) : List CoreId :=
  (targetCores t e.target).filter fun c => coreMayRun s c e && (s.core c).displace.isNone
    && (match (s.core c).run with | some r => decide (r.prio.toNat < 3) && !r.launch.det | none => false)

/-- The core that is asked to displace its continuation, for the first urgent record that no request serves yet and that some core
can be asked for (R144). -/
def displaceChoice (s : State) (t : TowerId) : Option CoreId :=
  let asked := (List.finRange 128).filter fun c => towerOf c = t && (s.core c).displace.isSome
  (unserved s asked (urgentEntries s t)).findSome? fun e => match displaceable s t e with
    | [] => none
    | c :: rest => some (rest.foldl (fun b d => if displacedBefore s d b then d else b) c)

/-- DISPATCH (R142, R143, R147): unit 0 a core, 1 the Churn of the cluster in value, 2 a hub Churn, 3 the curd units, 4 a
core that was reserved for staging. A level-3 copy placed on tower t runs on hub Churn t: the spec says only that the hub Churns
execute it (R17; DESIGN CHOICE, log 59). -/
def execDispatch (s : State) : Out := .next
  (let t := s.now.tower
   match s.now.unit with
   | 0 => match dispatchCore s t with
     | none => s
     | some c => match chooseFor s c with
       | none => s
       | some e => dispatchTo (dropReady s t e) t c e
   | 1 =>
     let x := clusterNo s.now.value.toNat
     match chooseTarget s t (fun g => g = .churn x), freeChannel s 1 x.val with
     | some e, some ch => dispatchCopy s t 1 x.val ch e
     | _, _ => s
   | 2 => match chooseTarget s t (fun g => g = .hubChurn), freeChannel s 2 t.val with
     | some e, some ch => dispatchCopy s t 2 t.val ch e
     | _, _ => s
   | 3 => match chooseTarget s t (fun g => g = .curd) with
     | some e => if (s.tower t).curd.isNone then dispatchCurd s t e else s
     | none => s
   | _ => match reservedCore s t with
     | some (g, e) => dispatchTo (dropReady (unstage s t g) t e) t g.core e
     | none => s)

/-- DISPLACEMENT_REQUEST (R144, R349) reaches the core: a forced pre-emption starts at once where no yield can be taken. -/
def execDisplacementRequest (s : State) : Out := .next
  (let c := s.now.core
   let k := s.core c
   match k.run with
   | none => s
   | some r =>
     let s1 := s.setCore c { k with displace := some s.clk }
     if r.yseq = 0 || k.seqMode ≠ .none then s1.dueFirst .yieldTimeout (onCore c) else s1)

/-- YIELD_TIMEOUT (R349, R353): the forced pre-emption of the core's continuation. -/
def execYieldTimeout (s : State) : Out := .next
  (let c := s.now.core
   let s1 := undoBundle s c
   if (s.core c).displace.isNone then s
   else if (s1.core c).mat.passes.isEmpty then forcedStop s1 c
   else s1.setCore c { (s1.core c) with stall := some { kind := waitForced, obj := 0, arg := 0, key := 0, slot := 0, dst := 0 } })

/-- PREEMPT_WRITEBACK_DONE (R359): the dirty lines of the core have reached their homes; the displaced record takes STATE 4
and the head of its queue with the stamp of its last dispatch. -/
def execPreemptWritebackDone (s : State) : Out := .next
  (let t := s.now.tower
   match (s.tower t).displaced with
   | [] => s
   | d :: ds =>
     let s1 := fullRelease (s.setTower t { (s.tower t) with displaced := ds }) d.core
     if headerState s1 d.run.instKey = 3 then leaveRecord s1 d.run.recKey 6
     else pushReady (leaveRecord s1 d.run.recKey 4) t d.run.home
       { d.run.entry (if d.aff then some d.core else none) with head := true })

/-! ### Fusion (R33, R138) -/

/-- FUSION_CHANGE: the four L1s of the cluster in unit are written back and invalidated, and its state changes. It waits for the host
link while a dirty host line stands there (R33, R437). -/
def execFusionChange (s : State) : Out := .next
  (let x := clusterNo s.now.unit
   let k := s.cluster x
   match k.fuseReq with
   | none => s
   | some f =>
     if (clusterCores x).any (fun c => (s.core c).run.isSome) || waitsForLink s (clusterCores x) (fun _ => true) then s
     else
       let s1 := (clusterCores x).foldl (fun st c =>
         dropLines (writeBackLines st c fun _ => true) c fun _ => true) s
       s1.setCluster x { (s1.cluster x) with fused := f, fuseReq := none })

/-! ### Wakes (R27, R234) -/

/-- The condition of a suspended record's wait is met: its object, its grant, or the walker's answer. -/
def suspReady (s : State) (t : TowerId) (x : Suspended) : Bool :=
  match x.wait.kind with
  | 5 => (s.tower t).syncs.any fun y => y.granted && y.core.isNone && y.record = x.entry.record && y.key = x.wait.key
  | 6 => (List.finRange 4).any fun u => (s.tower u).answers.any fun a => a.1 = x.entry.record
  | _ => (waitResult s 0 x.wait).isSome

/-- A record that waits no more takes STATE 4 and joins its ready queue (R27). -/
def wakeRecord (s : State) (t : TowerId) (x : Suspended) : State :=
  match findArmed s x.entry.instKey with
  | none => leaveRecord s x.entry.recKey 6
  | some (home, _) => pushReady (leaveRecord s x.entry.recKey 4) t home { x.entry with stamp := stampNow s }

/-- WAKE: the suspended record in addr takes STATE 4 and joins its ready queue. -/
def execWake (s : State) : Out := .next
  (let t := s.now.tower
   let w := s.tower t
   match w.susp.find? fun x => x.entry.record = s.now.addr && suspReady s t x with
   | none => s
   | some x => wakeRecord (s.setTower t { w with susp := eraseFirst (fun y => y = x) w.susp }) t x)

/-! ### Pod-level records (R18, R180, R181) -/

/-- The key of the header of the n-th record that tower t has received from another device (log 25). -/
def foreignKey (t : TowerId) (n : Nat) : Nat := 2 ^ 45 + (t.val * 2 ^ 32 + n) * 128

/-- A record of another device arrives (R181): it runs from this copy, without successors, in an instance of its own. On a tower whose
RENN is 0 it is faulted (R369). -/
def receiveRecord (s : State) : State :=
  let o := s.now
  let t := o.tower
  let w := s.tower t
  let r : BitVec 512 := setFld (setFld (BitVec.ofNat 512 (leNat o.data)) 176 16 0) 92 4 1
  let key := foreignKey t w.foreign
  let hdr : BitVec 512 := setFld (setFld (setFld (0 : BitVec 512) 0 60 (1 + 2 ^ 44)) 60 4 1) 64 24
    ((nCtx r).toNat + (nGen r).toNat * 2 ^ 16)
  let s1 := writeNat (writeNat s key 64 hdr.toNat) (key + 64) 64 r.toNat
  let a : Armed := { hdr := nInst r, hdrKey := key, ctx := nCtx r, gen := nGen r,
                     launch := { det := false, lock := false, t0 := 0, flen := 0, lpeer := 0, rbank := 0 }, part := 0,
                     abandoned := false, named := [],
                     origin := some (BitVec.ofNat 16 o.unit, BitVec.ofNat 16 o.value.toNat, towerNo o.extra.toNat) }
  let s2 := s1.setTower t { (s1.tower t) with armed := (s1.tower t).armed ++ [a], foreign := w.foreign + 1 }
  if !bit s2.hub.ready (40 + t.val) then faultNode s2 t.val (key + 64) key Config.rennetAbsent a.ctx a.gen (rennetSrc t) o.addr 0
  else if !bit (ctxTowers s2 a.ctx) t.val then faultNode s2 t.val (key + 64) key 0x0210 a.ctx a.gen (rennetSrc t) o.addr 0
  else if !ctxCurrent s2 a.ctx a.gen then discardNode s2 t a (key + 64)
  else if recordBroken r then faultNode s2 t.val (key + 64) key 0x0213 a.ctx a.gen (rennetSrc t) o.addr 0
  else pushReady s2 t t (mkReady s2 t a o.addr (key + 64) r)

/-- Tower place n of a pod group entry: device and tower. -/
def podPlace (e : BitVec 256) (n : Nat) : Nat × TowerId := (fld e (24 * n + 8) 16, towerNo (fld e (24 * n) 2))

/-- A pod-level record is placed on the next tower of its entry (R18): here, or sent to another device. The position advances for a
node that is faulted on the tower it is placed on, too: the spec does not say (DESIGN CHOICE, log 59). -/
def placeRecord (s : State) (t : TowerId) (a : Armed) (key : Nat) (addr : Word) : State :=
  let r := readRecord s key
  let fault (st : State) (x : Code) : State := faultNode st t.val key a.hdrKey x a.ctx a.gen (rennetSrc t) addr 0
  match rennetKey s t a.ctx a.gen (ctxWord s a.ctx 384 + BitVec.ofNat 64 (32 * nGroup r)) 32 with
  | (.error x, s1) => fault s1 x
  | (.ok k, s1) =>
    let e : BitVec 256 := BitVec.ofNat 256 (readNat s1 k 32)
    let n := fld e 252 4
    if n = 0 || decide (8 < n) then fault s1 0x0219
    else
      let i := 256 * a.ctx.toNat + nGroup r
      let w := s1.tower t
      let at_ := sget 0 w.podPos i % n
      let s2 := s1.setTower t { w with podPos := sset 0 w.podPos i ((at_ + 1) % n) }
      let q := podPlace e at_
      if q.1 = ownId s2 then
        if !bit s2.hub.ready (40 + q.2.val) then fault s2 Config.rennetAbsent
        else if !bit (ctxTowers s2 a.ctx) q.2.val then fault s2 0x0210
        else
          let s3 := setRecordState s2 key 1 false 0
          pushReady s3 q.2 t (mkReady s3 q.2 a addr key r)
      else
        let s3 := setRecordState s2 key 1 false 0
        let tag := (s3.tower t).nextTag
        let s4 := s3.setTower t { (s3.tower t) with nextTag := tag + 1,
                                                    forwarded := (s3.tower t).forwarded ++ [(tag, a.hdrKey, key, addr)] }
        let p := newPacket s4 { dst := q.1, drq := q.2.val, unit := true, sep := rennetSrc t, cls := 0, len := 2, tag := tag,
                                ctx := a.ctx, gen := a.gen } (readBytes s4 key 64)
        sendPacket p.2 p.1

/-- POD_RECORD_FORWARD (R181): the home Rennet places a record (data empty), or a record of another device arrives with its
64 bytes in data, its device in unit, its tag in value and its home tower in extra. -/
def execPodRecordForward (s : State) : Out := .next
  (let o := s.now
   if !o.data.isEmpty then receiveRecord s
   else match findArmed s o.value.toNat with
    | none => s
    | some (t, a) => placeRecord s t a o.unit o.addr)

/-- POD_RECORD_RESPONSE (R181): extra 1 sends the FAULT of a record of another device back, whose header is at unit;
otherwise the response with the tag in value ends the record that was sent away, with FAULT in addr. -/
def execPodRecordResponse (s : State) : Out := .next
  (let o := s.now
   let t := o.tower
   let w := s.tower t
   if o.extra = 1 then
     match w.armed.find? fun a => a.hdrKey = o.unit with
     | none => s
     | some a => match a.origin with
       | none => s
       | some (dev, tag, home) =>
         let s1 := disarm s t fun x => x.hdrKey = o.unit
         let p := newPacket s1 { dst := dev.toNat, drq := home.val, unit := true, sep := rennetSrc t, cls := 1, len := 1,
                                 tag := tag, ctx := a.ctx, gen := a.gen } (leBytes 32 (headerFault s1 o.unit))
         sendPacket p.2 p.1
   else
     match w.forwarded.find? fun f => f.1 = BitVec.ofNat 16 o.value.toNat with
     | none => s
     | some f =>
       let s1 := s.setTower t { w with forwarded := w.forwarded.filter fun x => x ≠ f }
       match w.armed.find? fun a => a.hdrKey = f.2.1 with
       | none => s1
       | some a =>
         if o.addr = 0 then completeNode s1 t a f.2.2.1 false
         else faultNode s1 t.val f.2.2.1 a.hdrKey (BitVec.ofNat 16 o.addr.toNat) a.ctx a.gen (rennetSrc t) f.2.2.2 0)

end Sys2Proof.Machine
end

