-- ==== Sys2Proof/Machine/Windows.lean ====
section
/-! DEFINITION. Replay windows of the cores (R149 to R151): what a consumer does with an entry that it accepts, refusals and
their back-off, and the records that full rings refuse Rennet (R316). -/

namespace Sys2Proof.Machine

/-- The occasion of a Rennet command of a core: the context in bits [31:16] and the generation in [39:32] of extra. -/
def commandOccasion (c : CoreId) (t : TowerId) (e : ReplayEntry) (marks : Nat) : Occasion :=
  { Occasion.none with core := c, tower := t, addr := e.push.a,
                       extra := BitVec.ofNat 64 (marks + e.ctx.toNat * 2 ^ 16 + e.gen.toNat * 2 ^ 32) }

/-- Rennet takes a command (R327, R329). -/
def acceptRennet (s : State) (c : CoreId) (e : ReplayEntry) : State :=
  let t := towerNo e.dest.unit
  let arm : Occasion := { Occasion.none with core := c, tower := t, unit := 1, value := e.push.a,
                                             extra := BitVec.ofNat 64 (e.ctx.toNat + e.gen.toNat * 65536) }
  match pushMajor e.push with
  | 0x20 => s.due .spawnAtHomeRennet (commandOccasion c t e 0)
  | 0x21 => s.due .successorDecrement (commandOccasion c t e pushMark)
  | 0x23 => s.due .garmStore arm
  | _ => s.due .gprimeStore arm

/-- An index reaches its Churn (R321): it joins the rows that are owed, or its gather has closed and it is dropped with one
record. -/
def acceptIndex (s : State) (c : CoreId) (e : ReplayEntry) : State :=
  let k := s.core c
  match k.live.find? fun l => gatherKey l.gather = e.key with
  | some l =>
    s.setCore c { k with gidx := k.gidx ++ [{ gather := l.gather, bundle := e.push.bundle, index := BitVec.ofNat 32 e.push.a.toNat,
                                              last := bit e.push.b 0 }] }
  | none =>
    statRecord s c 1 0x4030 e.push.bundle
      (BitVec.ofNat 128 (2 ^ 16 + e.key / 16 % 256 * 2 ^ 32 + e.key % 16 * 2 ^ 40))

/-- A Churn takes a copy or the opening of a gather (R319). -/
def acceptCopy (s : State) (c : CoreId) (e : ReplayEntry) : State :=
  pushCopy s e.dest { param := e.push.a, tmpl := BitVec.ofNat 8 (fld e.push.b 8 8), gath := if opensGather e.push then some e.key else none, ctx := e.ctx,
                      gen := e.gen, rbank := e.rbank, source := .push c e.push.bundle, ordinal := 0 }

/-- n bytes of a vector register from byte 0 on. -/
def vecBytes (v : Vec) (n : Nat) : List Byte := leBytes n v.toNat

/-- The hub takes a send (R325): an ordered packet into its injection queue, an unordered one on its way, a circuit packet
to its slot. -/
def acceptSend (s : State) (c : CoreId) (e : ReplayEntry) : State :=
  let h := e.push.a
  let p : Send := { dst := fld h 0 16, drq := fld h 16 8, unit := false, sep := c.val, cls := fld h 40 3, len := fld h 32 8,
                    tag := BitVec.ofNat 16 (fld h 48 16), ctx := e.ctx, gen := e.gen }
  match pushMajor e.push with
  | 0x18 =>
    let q := newPacket s { p with cls := 2 } (vecBytes e.push.v (32 * p.len))
    (q.2.mapHub fun h => { h with inject := h.inject ++ [q.1] }).due .orderedInject Occasion.none
  | 0x19 =>
    let q := newPacket s p e.payload
    sendPacket q.2 q.1
  | _ =>
    let w : Word := BitVec.ofNat 64 (leNat e.payload)
    let n := fld w 36 3
    let q := newPacket s { p with dst := fld w 47 16, drq := fld w 39 8, cls := 5, len := n, tag := 0 }
      (vecBytes e.push.v (32 * n))
    let slot := fld h 0 8
    let start := nextSlot (max (e.exit.toNat + 8) s.hub.podTime.toNat) slot
    let circuit : Circuit := { slot := slot, start := start, due := BitVec.ofNat 64 (start + fld w 24 12), late := false,
                               packet := q.1 }
    (q.2.mapHub fun h => { h with circuits := h.circuits ++ [circuit] })
where
  /-- The first start of a slot at or after a pod time (R178). -/
  nextSlot (t slot : Nat) : Nat := t + (1024 + 4 * slot - t % 1024) % 1024

/-- The consumer takes an entry. One of a context that has been killed since is dropped (R398). -/
def acceptEntry (s : State) (c : CoreId) (e : ReplayEntry) : State :=
  if !ctxCurrent s e.ctx e.gen then s
  else match e.dest.kind with
    | 0 => acceptRennet s c e
    | 3 => acceptSend s c e
    | _ => if pushMajor e.push = 0x03 then acceptIndex s c e else acceptCopy s c e

/-- REPLAY_ACK (R149): the oldest entry of the window for the destination in unit is taken, unless it is a duplicate, and leaves; the
consumer expects the next number, the gate goes on emptying at marks, and the next entry is offered. -/
def execReplayAck (s : State) : Out := .next
  (let c := s.now.core
   let d := Dest4.ofCode s.now.unit
   let k := s.core c
   match k.replay.find? fun e => e.dest = d with
   | none => s
   | some e =>
     let k1 := { k with replay := eraseFirst (fun x => x = e) k.replay }
     let s1 := if isDuplicate k e then s.setCore c k1
       else acceptEntry (s.setCore c { k1 with expected := (d, e.seq + 1) :: k.expected.filter fun x => x.1 ≠ d }) c e
     emptyFreed (offerWindow s1 c d) c)

/-- The record of a NAK of a core's push (R151, R428). -/
def nakRecord (s : State) (c : CoreId) (e : ReplayEntry) (n : Nat) (code : Code) : State :=
  statRecord s c 7 (if n = 64 then 0x5010 else code) e.push.bundle
    (BitVec.ofNat 128 (n % 2 ^ 16 + e.seq.toNat * 2 ^ 16 + e.dest.kind * 2 ^ 24 + e.dest.chan * 2 ^ 32))

/-- The code of a refusal, by the queue that refuses (R151). -/
def nakCode (e : ReplayEntry) : Code :=
  if e.dest.kind = 3 then (if pushMajor e.push = 0x18 then 0x5007 else 0x5005) else 0x5012

/-- A refusal by a receive ring of this device (R179). -/
def recvRefuses (s : State) (e : ReplayEntry) : Bool :=
  e.dest.kind = 3 && pushMajor e.push = 0x19 && e.dest.unit = ownId s

/-- NAKC of receive queue q advances (R179). -/
def countNak (s : State) (q : Nat) : State :=
  writeNat s (recvKey s q + 4) 4 (readNat s (recvKey s q + 4) 4 + 1)

/-- REPLAY_NAK (R149 to R151): the oldest entry of the window is refused; a record is appended and the back-off begins. -/
def execReplayNak (s : State) : Out := .next
  (let c := s.now.core
   let d := Dest4.ofCode s.now.unit
   match (s.core c).replay.find? fun e => e.dest = d with
   | none => s
   | some e =>
     let n := e.naks + 1
     let s1 := nakRecord (if recvRefuses s e then countNak s d.chan else s) c e n (nakCode e)
     let k := s1.core c
     let e1 := { e with naks := n, held := some (s.clk + backoff k.retry n) }
     s1.setCore c { k with replay := k.replay.map fun x => if x = e then e1 else x })

/-- A record that Rennet keeps can be offered now (R316, R401). -/
def offerReady (s : State) (t : TowerId) (x : Offer) : Bool := decide (x.held ≤ s.clk) && !offerWaits s t x

/-- A record that a full ring refused Rennet, or that waited for a handover, is offered again (R316, R401). -/
def reoffer (s : State) (t : TowerId) : State :=
  let w := s.tower t
  match w.offers.find? (offerReady s t) with
  | none => s
  | some x => offerRecord (s.setTower t { w with offers := eraseFirst (fun y => y = x) w.offers }) t x

/-- RETRY_BACKOFF_EXPIRY (R149, R150): value 0, the entries that core's window for the destination in unit holds are sent
again; 1, the Rennet of tower offers a record again. -/
def execRetryBackoffExpiry (s : State) : Out := .next
  (let o := s.now
   if o.value = 1 then reoffer s o.tower
   else
     let d := Dest4.ofCode o.unit
     let k := s.core o.core
     offerWindow (s.setCore o.core { k with replay := k.replay.map fun e => if e.dest = d then { e with held := none } else e })
       o.core d)

end Sys2Proof.Machine
end

