-- ==== Sys2Proof/Machine/Churn.lean ====
section
/-! DEFINITION. Churn (13): templates (R310 to R312), the nest of a copy (R313), its completion (R314 to R316, R411, R414),
gathers (R321, R442), holds of granules (R130), and the apertures of BAR 4 (R183, R184). -/

namespace Sys2Proof.Machine

/-! ### Templates (R311) -/

def tSdesc (m : BitVec 1024) : Word := BitVec.ofNat 64 (fld m 966 58 * 64)
def tDdesc (m : BitVec 1024) : Word := BitVec.ofNat 64 (fld m 908 58 * 64)
def tRing (m : BitVec 1024) : Word := BitVec.ofNat 64 (fld m 849 59 * 32)
def tBara (m : BitVec 1024) : Word := BitVec.ofNat 64 (fld m 785 61 * 8)
def tSbase (m : BitVec 1024) (k : Nat) : Nat := fld m (576 + 32 * k) 32
def tDbase (m : BitVec 1024) (k : Nat) : Nat := fld m (384 + 32 * k) 32
def tCount (m : BitVec 1024) (k : Nat) : Nat := fld m (288 + 16 * k) 16
def tSstr (m : BitVec 1024) (k : Nat) : Int := sextNat 8 (fld m (240 + 8 * k) 8)
def tDstr (m : BitVec 1024) (k : Nat) : Int := sextNat 8 (fld m (192 + 8 * k) 8)
def tKind (m : BitVec 1024) : Nat := fld m 28 4
def tPmode (m : BitVec 1024) : Nat := fld m 26 2
def tPsd (m : BitVec 1024) : Nat := fld m 23 3
def tPdd (m : BitVec 1024) : Nat := fld m 20 3
def tRnd (m : BitVec 1024) : Nat := fld m 17 3
def tSat (m : BitVec 1024) : Bool := bit m 16

/-- What the template alone breaks of R312, for a copy or the opening of a gather. -/
def templateBroken (m : BitVec 1024) (gath : Bool) : Bool :=
  !bit m 0 || fld m 846 3 ≠ 0 || fld m 768 17 ≠ 0 || fld m 32 160 ≠ 0 || fld m 1 15 ≠ 0
    || tKind m ≠ gath.toNat || tPmode m = 3 || decide (5 < tPsd m) || decide (5 < tPdd m) || decide (5 < tRnd m)
    || ((List.range 6).any fun k => tCount m k = 0)
    || (if gath then tDdesc m ≠ 0 || tRing m ≠ 0 || tBara m ≠ 0 || (List.range 5).any fun k => tCount m (k + 1) ≠ 1
        else tDdesc m = 0)

/-- What the descriptors of a copy break of R312. -/
def copyDescriptorsBroken (src dst : BitVec 512) : Bool :=
  !descriptorOk src || !descriptorOk dst || ((dFmt src = 0 || dFmt dst = 0) && dEsize src ≠ dEsize dst)

/-- What the descriptor of a gather breaks: its row is at most 512 bytes. -/
def gatherDescriptorBroken (m : BitVec 1024) (src : BitVec 512) : Bool :=
  !descriptorOk src || decide (4096 < tCount m 0 * 2 ^ dEsize src)

/-! ### A Churn's own accesses -/

/-- Access codes of R54. -/
def accChurnRead : Nat := 3
def accChurnWrite : Nat := 4

/-- The tower by whose tables a Churn translates: its cluster's, or for hub Churn e tower e. -/
def copyTower (d : Dest4) : TowerId := if d.kind = 1 then clusterTower (clusterNo d.unit) else towerNo d.unit
/-- The layout unit of a Churn (log 6). -/
def churnUnit (d : Dest4) : Nat := if d.kind = 1 then 32 + d.unit % 8 else 40 + d.unit % 4
def copyView (s : State) (d : Dest4) (r : CopyReq) : View := { ctxView s (copyTower d) r.ctx r.gen with unit := churnUnit d }
/-- The fault queue that a Churn reports to (R411). -/
def copyQueue (d : Dest4) : Nat := if d.kind = 1 then (copyTower d).val else 4

/-- How an access of a Churn ends. -/
inductive Reached where
  | ok (tte : BitVec 64)
  | stop (status fcode : Code)
  /-- A handover is in progress (R401), the tile cache misses (R49), or a link is down (R431). -/
  | wait
  deriving DecidableEq, Repr

/-- The memory key of a flat address whose tile a Churn has reached; none if it must wait. -/
def churnKey (s : State) (a : Word) (r : Reach) : Option (Except Code Nat) :=
  match r with
  | .transit | .miss => none
  | .fault x => some (.error x)
  | .ok e => some (match entryFault s e with
    | some x => .error x
    | none =>
      if lostBank s e then .error 0x2111
      else if tteKind e = 3 && !s.hub.cxlUp then .error 0x6001
      else .ok (tteKey s e (fld a 0 16)))

/-- Bytes at a flat address that the Churn reads as one block: their value, the code of the read, or a wait. -/
def churnBlock (s : State) (v : View) (a : Word) (n : Nat) : Option (Except Code Nat) × State :=
  let r := lookupFlat s v none accChurnRead (fld a 16 48)
  match churnKey r.2 a (reachOf r.1) with
  | none => (none, r.2)
  | some (.error x) => (some (.error x), r.2)
  | some (.ok key) =>
    if 2 ^ 44 ≤ key && decide (key < 2 ^ 45) then (some (.error 0x1204), r.2)
    else match poisonOf r.2 key n with
      | some x => (some (.error x), hostError r.2 x)
      | none => (some (.ok (readNat r.2 key n)), r.2)

/-- A template with its descriptors, as the Churn has read and checked them. -/
inductive TemplateRead where
  | ready (m : BitVec 1024) (src dst : BitVec 512)
  /-- The template, zero where its own read failed, and the destination descriptor as far as it was read. -/
  | bad (m : BitVec 1024) (dst : BitVec 512) (status fcode : Code)
  | wait
  deriving DecidableEq, Repr

/-- A destination descriptor that was not read: its TID, which the completion record shows, is free (R315; log 23). -/
def unreadDescriptor (s : State) : BitVec 512 := (Config.unreadDtid s.freeN).setWidth 512 <<< 432

/-- A descriptor of template m (R312, R411). -/
def churnDescriptor (s : State) (v : View) (m : BitVec 1024) (a : Word) (f : State → BitVec 512 → TemplateRead × State) :
    TemplateRead × State :=
  match churnBlock s v a 64 with
  | (none, s1) => (.wait, s1)
  | (some (.error x), s1) => (.bad m (unreadDescriptor s1) 0x4002 x, s1)
  | (some (.ok d), s1) => f s1 (BitVec.ofNat 512 d)

/-- The template of a request in its context, checked by R312. -/
def readTemplate (s : State) (v : View) (tmpl : BitVec 8) (gath : Bool) : TemplateRead × State :=
  match churnBlock s v (ctxWord s v.ctx 448 + BitVec.ofNat 64 (128 * tmpl.toNat)) 128 with
  | (none, s1) => (.wait, s1)
  | (some (.error x), s1) => (.bad 0 0 0x4002 x, s1)
  | (some (.ok t), s1) =>
    let m := BitVec.ofNat 1024 t
    if templateBroken m gath then (.bad m (unreadDescriptor s1) 0x4001 0, s1)
    else churnDescriptor s1 v m (tSdesc m) fun s2 src =>
      if gath then (if gatherDescriptorBroken m src then .bad m 0 0x4001 0 else .ready m src 0, s2)
      else churnDescriptor s2 v m (tDdesc m) fun s3 dst =>
        (if copyDescriptorsBroken src dst then .bad m dst 0x4001 0 else .ready m src dst, s3)

/-- A bank, or a tile of a macro window, at a K position that is lost with its tiers (R408). -/
def lostTile (s : State) (e : BitVec 64) : Bool :=
  lostBank s e || (tteKind e = 4 && bit (s.tower (towerOf (coreNo (tteFrame e)))).tiers.lost (tteFrame e / 128 % 16 / 3))

/-- A Churn reaches the tile by an on-package link that is down: a cluster Churn a place beyond its tower, a hub Churn a tower (R431). -/
def beyondLink (s : State) (v : View) (e : BitVec 64) : Bool :=
  let there : Option TowerId := match tteKind e with
    | 1 => some (clusterTower (clusterNo (tteFrame e / 512)))
    | 2 => some (towerNo (tteFrame e / 2 ^ 32))
    | 4 => some (towerOf (coreNo (tteFrame e)))
    | _ => none
  let hub := decide (40 ≤ v.unit)
  (match there with | some t => (hub || t ≠ v.tower) && !towerLinked s t | none => false)
    || (!hub && there ≠ some v.tower && !towerLinked s v.tower)

/-- The entry of a tile that a copy or gather reaches (R31, R313, R411, R431). -/
def copyReach (s : State) (v : View) (acc : Nat) (desc : BitVec 512) (tile : Nat) : Reached × State :=
  let r := lookupTensor s v none acc desc tile
  (match reachOf r.1 with
   | .transit | .miss => .wait
   | .fault x => .stop 0x4003 x
   | .ok e => match entryFault r.2 e with
     | some x => .stop 0x4003 x
     | none =>
       if lostTile r.2 e then .stop 0x4010 0x2111
       else if tteKind e = 2 && !bit s.hub.ready (28 + tteFrame e / 2 ^ 32 % 4) then .stop 0x4006 0
       else if tteKind e = 3 && !s.hub.cxlUp then .stop 0x4011 0x6001
       else if beyondLink s v e then .wait
       else .ok e, r.2)

/-- An access of a Churn to the word at key (R38, R79). -/
def flushHome (s : State) (key : Nat) (dirty : Bool) : State := touchHome s (key / 8 * 8) 8 dirty

/-- An element of w bits at bit b of a tile at its home, with the poison met. -/
def readHomeBits (s : State) (e : BitVec 64) (b w : Nat) : Except Code Nat × State :=
  let key := tteKey s e (b / 8)
  let n := (b % 8 + w + 7) / 8
  let s1 := flushHome s key false
  match poisonOf s1 key n with
  | some x => (.error x, s1)
  | none => (.ok (readNat s1 key n / 2 ^ (b % 8) % 2 ^ w), s1)

/-- The parity macro under byte key of a macro half (R30, R113): the XOR of the bytes of the four K positions, behind them in the half. -/
def parityKey (key : Nat) : Nat := key / 2 ^ 20 * 2 ^ 20 + 786432 + key % 2 ^ 20 % 196608
def parityByte (s : State) (key : Nat) : Byte :=
  let b := key / 2 ^ 20 * 2 ^ 20 + key % 2 ^ 20 % 196608
  readByte s b ^^^ readByte s (b + 196608) ^^^ readByte s (b + 393216) ^^^ readByte s (b + 589824)

/-- The parity macros follow n bytes that have been written in a macro half. -/
def updateParity (s : State) (key n : Nat) : State :=
  if 2 ^ 44 ≤ key && decide (key < 2 ^ 45) then upTo n (fun i st => writeByte st (parityKey (key + i)) (parityByte st (key + i))) s
  else s

/-- An element of w bits written at its home, a sub-byte one merged into its byte (R313). -/
def putHomeBits (s : State) (key b w v : Nat) : State :=
  let s1 := flushHome s key true
  updateParity (if 8 ≤ w then writeBytesRaw s1 key (leBytes (w / 8) v)
    else writeByte s1 key (setFld (readByte s1 key) (b % 8) w v)) key ((w + 7) / 8)

/-! ### The nest of a copy (R313) -/

def copyTotal (m : BitVec 1024) : Nat := upTo 6 (fun k n => n * tCount m k) 1

/-- i[k] of element pos: i[0] steps fastest (R155). -/
def copyIndex (m : BitVec 1024) (pos k : Nat) : Nat := pos / upTo k (fun j n => n * tCount m j) 1 % tCount m k

/-- A coordinate as a natural number, beyond every dimension where it is negative. -/
def coordNat (x : Int) : Nat := if x < 0 then 2 ^ 64 else x.toNat

def srcCoord (m : BitVec 1024) (param : Word) (pos k : Nat) : Nat :=
  let shift : Int := if k ≠ tPsd m then 0
    else match tPmode m with
      | 1 => sextNat 32 (fld param 0 32)
      | 2 => sextNat 32 (fld param 32 32)
      | _ => 0
  coordNat ((tSbase m k : Nat) + (copyIndex m pos k : Nat) * tSstr m k + shift)

def dstCoord (m : BitVec 1024) (param : Word) (pos k : Nat) : Nat :=
  let shift : Int := if k = tPdd m && tPmode m = 1 then sextNat 32 (fld param 32 32) else 0
  coordNat ((tDbase m k : Nat) + (copyIndex m pos k : Nat) * tDstr m k + shift)

/-- The core for which a copy was pushed or staged (R360). -/
def actingCore (r : CopyReq) : Option CoreId :=
  match r.source with | .push c _ => some c | .staging _ c _ => some c | _ => none

/-- A macro-window entry as PMODE 2 aims it (R313). -/
def aimed (m : BitVec 1024) (param : Word) (e : BitVec 64) : BitVec 64 :=
  if tteKind e = 4 && tPmode m = 2 then setFld e 0 7 (fld param 0 7) else e

/-- What forbids a write to the destination entry (R313, R360, R408). -/
def destinationFault (s : State) (r : CopyReq) (e : BitVec 64) : Option (Code × Code) :=
  if lostTile s e then some (0x4010, 0x2111)
  else if !tteWr e then some (0x4003, 0x1205)
  else if outsideReserve r.rbank e then some (0x4005, 0)
  else if tteKind e = 4 && r.rbank.isSome && actingCore r = some (coreNo (tteFrame e)) then some (0x4003, 0x1109)
  else none

/-- How a copy goes on with its next element. -/
inductive Element where
  | wrote (s : State) (cp : Copy)
  | stop (s : State) (status fcode : Code)
  /-- A pass still reads the shadow half (R130). -/
  | held (s : State)
  /-- A handover is in progress (R401), or the tile cache misses (R49). -/
  | wait (s : State)

/-- The rounding mode and saturation of a conversion into the entry (R35, R313). -/
def copyRounding (s : State) (m : BitVec 1024) (e : BitVec 64) : Nat × Bool :=
  let b := entryBankfmt s e
  if tteKind e = 1 && fld b 0 8 ≠ 0 then (fld b 11 3, bit b 14) else (tRnd m, tSat m)

/-- Convert of R313 into the entry: the bits alone between equal formats, and into a bank whose FMT is 0, which copies bytes where the two
elements have as many (R35; log 46). -/
def copyConvert (s : State) (cp : Copy) (ed : BitVec 64) (x rm : Nat) (sat : Bool) (rnd : BitVec 32) : Nat × Flags :=
  let a := dFmt cp.src
  let b := dFmt cp.dst
  if a = b || (tteKind ed = 1 && fld (entryBankfmt s ed) 0 8 = 0 && dEsize cp.src = dEsize cp.dst) then (x, 0)
  else convertFmt a b x rm sat rnd

/-- The element is converted and written, and the copy counts it. -/
def writeElement (s : State) (cp : Copy) (es : BitVec 64) (bs : Nat) (ed : BitVec 64) (td bd : Nat) (dc : Nat → Nat) :
    Element :=
  match readHomeBits s es bs (2 ^ dEsize cp.src) with
  | (.error x, s1) => .stop (hostError s1 x) (if x = 0x6002 then 0x4011 else 0x4010) x
  | (.ok x, s1) =>
    let rs := copyRounding s1 cp.tmpl ed
    let rnd := if rs.1 = 5 then srElement (ctxWord s1 cp.req.ctx 512) (dTid cp.dst)
      (fun k => if k < dRank cp.dst then dc k else 0) else 0
    let y := copyConvert s1 cp ed x rs.1 rs.2 rnd
    let w := 2 ^ dEsize cp.dst
    let key := tteKey s1 ed (bd / 8)
    let s2 := putHomeBits s1 key bd w y.1
    let at_ := 8 * key + bd % 8
    let lo := if at_ = cp.runHi then cp.runLo else at_
    let hi := at_ + w
    let s3 := if hi % 64 = 0 && decide (lo + 64 ≤ hi) then { s2 with poison := sset 0 s2.poison (hi / 64 - 1) 0 } else s2
    let fresh := if 8 ≤ w then w / 8 else if at_ = cp.runHi && at_ % 8 ≠ 0 then 0 else 1
    let first := decide (cp.hi < cp.lo)
    .wrote s3 { cp with
      pos := cp.pos + 1, bytes := cp.bytes + fresh, flags := cp.flags ||| y.2, runLo := lo, runHi := hi,
      lo := if first then td else min cp.lo td, hi := if first then td else max cp.hi td }

/-- The next element in nest order. -/
def copyElement (s : State) (d : Dest4) (cp : Copy) : Element :=
  let m := cp.tmpl
  let v := copyView s d cp.req
  let dc : Nat → Nat := dstCoord m cp.req.param cp.pos
  match tileAddress cp.src (srcCoord m cp.req.param cp.pos), tileAddress cp.dst dc with
  | some (ts, bs), some (td, bd) =>
    match copyReach s v accChurnRead cp.src ts with
    | (.wait, s1) => .wait s1
    | (.stop a b, s1) => .stop s1 a b
    | (.ok es, s1) =>
      match copyReach s1 v accChurnWrite cp.dst td with
      | (.wait, s2) => .wait s2
      | (.stop a b, s2) => .stop s2 a b
      | (.ok e, s2) =>
        let ed := aimed m cp.req.param e
        match destinationFault s2 cp.req ed with
        | some (a, b) => .stop s2 a b
        | none =>
          if tteKind ed = 4 then
            let c := coreNo (tteFrame ed)
            let mat := (s2.core c).mat
            match cp.latch.find? fun x => x.1 = c with
            | some x =>
              if x.2 ≠ mat.swpc then .stop s2 0x4004 0
              else if mat.passes.any fun p => p.half = !mat.half then .held s2
              else writeElement s2 cp es bs ed td bd dc
            | none =>
              if mat.passes.any fun p => p.half = !mat.half then .held s2
              else writeElement s2 { cp with latch := (c, mat.swpc) :: cp.latch } es bs ed td bd dc
          else writeElement s2 cp es bs ed td bd dc
  | _, _ => .stop s 0x4003 0x1201

/-- Two elements of a tensor lie in one aligned block of n bits of a tile. -/
def sameBlock (n : Nat) (a b : Option (Nat × Nat)) : Bool :=
  match a, b with
  | some x, some y => x.1 = y.1 && x.2 / n = y.2 / n
  | _, _ => false

/-- The copy stands at an edge: its next element begins another 64-byte granule of the source, and another aligned word of 4 bytes of the
destination, or another granule of a macro window (R37, R62, R76, R130). -/
def copyEdge (cp : Copy) : Bool :=
  let m := cp.tmpl
  let src : Nat → Option (Nat × Nat) := fun i => tileAddress cp.src (srcCoord m cp.req.param i)
  let dst : Nat → Option (Nat × Nat) := fun i => tileAddress cp.dst (dstCoord m cp.req.param i)
  !(sameBlock 512 (src (cp.pos - 1)) (src cp.pos)
    || sameBlock (if cp.latch.isEmpty then 32 else 512) (dst (cp.pos - 1)) (dst cp.pos))

/-- Elements in nest order, until the copy ends, is held, waits, or stands at an edge with n of them written. -/
def runCopy (d : Dest4) : Nat → Nat → State → Copy → State × Copy
  | 0, _, s, cp => (s, cp)
  | f + 1, n, s, cp =>
    if n = 0 && copyEdge cp then (s, cp)
    else match copyElement s d cp with
    | .wrote s1 cp1 => if cp1.pos < copyTotal cp1.tmpl then runCopy d f (n - 1) s1 cp1 else (s1, { cp1 with ended := true })
    | .stop s1 a b => (s1, { cp with ended := true, status := a, fcode := b })
    | .held s1 => (s1, { cp with hold := true, held := s1.clk })
    | .wait s1 => (s1, cp)

/-- The running copy of channel d goes on: how far in this step is free (log 3). -/
def continueCopy (s : State) (d : Dest4) (cp : Copy) : State :=
  let r := runCopy d (copyTotal cp.tmpl - cp.pos) (Config.copyChunk s.freeN + 1) s cp
  r.1.setChurnChan d { (r.1.churnChan d) with running := some r.2 }

def newCopy (r : CopyReq) (m : BitVec 1024) (src dst : BitVec 512) : Copy :=
  { req := r, tmpl := m, src := src, dst := dst, pos := 0, bytes := 0, lo := 1, hi := 0, flags := 0, status := 0, fcode := 0,
    latch := [], ended := false, hold := false, naks := 0, held := 0, runLo := 0, runHi := 0 }

/-! ### Gathers (R321) -/

/-- What the Churn reads as it opens a gather; none while the access waits. -/
def openRows (s : State) (v : View) (tmpl : BitVec 8) : Option GatherOpen × State :=
  match readTemplate s v tmpl true with
  | (.wait, s1) => (none, s1)
  | (.bad _ _ a _, s1) => (some { status := a, tmpl := 0, src := 0 }, s1)
  | (.ready m src _, s1) => (some { status := 0, tmpl := m, src := src }, s1)

/-- What the Churn has read for a gather of core c is noted. -/
def setOpening (s : State) (c : CoreId) (key : Nat) (o : GatherOpen) : State :=
  let k := s.core c
  s.setCore c { k with live := k.live.map fun l => if gatherKey l.gather = key then { l with opening := some o } else l }

/-- The opening of a gather reaches the head of its channel; one that has closed since is passed over. -/
def startGather (s : State) (d : Dest4) (r : CopyReq) (key : Nat) (rest : List CopyReq) : State :=
  let done (st : State) : State := st.setChurnChan d { (st.churnChan d) with queue := rest }
  match r.source with
  | .push c _ =>
    if (s.core c).live.any fun l => gatherKey l.gather = key then
      match openRows s (copyView s d r) r.tmpl with
      | (none, s1) => s1
      | (some o, s1) => done (setOpening s1 c key o)
    else done s
  | _ => done s

/-- COPY_START (R310 to R313, R321): the request at the head of the channel in unit starts, or its copy goes on. -/
def execCopyStart (s : State) : Out := .next
  (let d := Dest4.ofCode s.now.unit
   let ch := s.churnChan d
   match ch.running with
   | some cp => if cp.ended || cp.hold then s else continueCopy s d cp
   | none => match ch.queue with
     | [] => s
     | r :: rest =>
       let begin_ (st : State) (cp : Copy) : State :=
         st.setChurnChan d { (st.churnChan d) with queue := rest, running := some cp }
       if !ctxCurrent s r.ctx r.gen then s.setChurnChan d { ch with queue := rest }
       else match r.gath with
       | some key => startGather s d r key rest
       | none => match readTemplate s (copyView s d r) r.tmpl false with
         | (.wait, s1) => s1
         | (.bad m dst a b, s1) => begin_ s1 { newCopy r m 0 dst with ended := true, status := a, fcode := b }
         | (.ready m src dst, s1) =>
           let cp := newCopy r m src dst
           continueCopy (begin_ s1 cp) d cp)

/-! ### Completion -/

/-- SRC of a copy's records (R411). -/
def copySrc (r : CopyReq) : Nat :=
  match r.source with
  | .push c _ => c.val
  | .host => 136
  | .node t _ => rennetSrc t
  | .staging t _ _ => rennetSrc t

/-- INFO of R411. -/
def copyInfo (d : Dest4) (cp : Copy) : Word :=
  BitVec.ofNat 64 (cp.req.tmpl.toNat + d.chan * 2 ^ 8 + cp.bytes % 2 ^ 32 * 2 ^ 32)

/-- A record of a copy in its Churn's fault queue. -/
def copyRecord (s : State) (d : Dest4) (cp : Copy) (code : Code) (addr info : Word) : State :=
  faultRecord s (copyQueue d) code cp.req.ctx cp.req.gen (copySrc cp.req) addr info

/-- The memory key of the object at address a of a copy, a DRAM frame that can be written, of which n bytes are read first (R314): none
if it is unusable or a is 0, and no answer while the access waits (R49, R401). -/
def copyObject (s : State) (d : Dest4) (cp : Copy) (a : Word) (n : Nat) : Option (Option Nat) × State :=
  let v := copyView s d cp.req
  if a = 0 then (some none, s)
  else
    let r := lookupFlat s v none accChurnWrite (fld a 16 48)
    (match reachOf r.1 with
     | .ok e =>
       let key := tteKey r.2 e (fld a 0 16)
       some (if (entryFault r.2 e).isNone && tteKind e = 2 && tteWr e && (poisonOf r.2 key n).isNone then some key else none)
     | .fault _ => some none
     | .transit | .miss => none, r.2)

/-- Where the end of a copy writes: the ring's header and next slot, and the barrier (R314). -/
structure CopyTargets where
  ring : Option Nat
  slot : Option Nat
  bara : Option Nat
  deriving DecidableEq, Repr

/-- The objects of a copy, once the Churn has reached them all. -/
def copyTargets (s : State) (d : Dest4) (cp : Copy) : Option CopyTargets × State :=
  match copyObject s d cp (tRing cp.tmpl) 32 with
  | (none, s1) => (none, s1)
  | (some ring, s1) =>
    let at_ : Word := match ring with | some key => tRing cp.tmpl + BitVec.ofNat 64 (ringNext s1 key) | none => 0
    match copyObject s1 d cp at_ 0 with
    | (none, s2) => (none, s2)
    | (some slot, s2) =>
      match copyObject s2 d cp (tBara cp.tmpl) 8 with
      | (none, s3) => (none, s3)
      | (some bara, s3) => (some { ring := ring, slot := slot, bara := bara }, s3)

/-- The completion record (R315). -/
def completionEntry (d : Dest4) (cp : Copy) : BitVec 256 :=
  cp.req.ordinal ++ BitVec.ofNat 32 cp.bytes ++ BitVec.ofNat 16 cp.req.tmpl.toNat ++ cp.status ++ cp.fcode
    ++ BitVec.ofNat 8 d.chan ++ BitVec.ofNat 8 (if d.kind = 1 then d.unit else 32 + d.unit) ++ dTid cp.dst
    ++ BitVec.ofNat 48 cp.lo ++ BitVec.ofNat 48 cp.hi ++ (0 : BitVec 9) ++ cp.flags ++ (1 : BitVec 1)

/-- A RING or BARA at a that is unusable is reported (R314). -/
def unusable (s : State) (d : Dest4) (cp : Copy) (a : Word) : State :=
  copyRecord s d cp 0x4023 a (setFld (copyInfo d cp) 16 16 cp.status.toNat)

/-- Step 3 of R314. -/
def completeBarrier (s : State) (d : Dest4) (cp : Copy) (bara : Option Nat) : State :=
  let a := tBara cp.tmpl
  if a = 0 then s
  else match bara with
    | none => unusable s d cp a
    | some key =>
      barrierApply (flushHome s key true) key
        (fun w => (barBytes w (cp.bytes % 2 ^ 32)).map fun x => if cp.status = 0 then x else barFail x)
        cp.req.ctx cp.req.gen (copySrc cp.req) a

/-- Step 4 of R314, and the next of a staging list (R146). -/
def completeSource (s : State) (d : Dest4) (cp : Copy) : State :=
  match cp.req.source with
  | .node _ e =>
    (match findArmed s e.instKey with
     | none => leaveRecord s e.recKey 6
     | some (home, a) =>
       if cp.status = 0 then completeNode s home a e.recKey false
       else faultNode s home.val e.recKey e.instKey cp.status e.ctx e.gen (copySrc cp.req) e.record (copyInfo d cp))
  | .staging t c ticket => stagingDone s t c ticket cp.status
  | _ => s

/-- What follows the record: the barrier, the node, and the channel is free. -/
def afterRecord (s : State) (d : Dest4) (cp : Copy) (bara : Option Nat) : State :=
  completeSource (completeBarrier (dropWalked (s.setChurnChan d { (s.churnChan d) with running := none }) (copyTower d) (churnUnit d))
    d cp bara) d cp

/-- RETRY of a Churn (R150). -/
def churnRetry (s : State) (d : Dest4) : Word := if d.kind = 1 then (s.cluster (clusterNo d.unit)).retry else s.hub.retry

/-- COPY_COMPLETE (R314 to R316, R411, R414): the copy of the channel in unit has ended. -/
def execCopyComplete (s : State) : Out := .next
  (let d := Dest4.ofCode s.now.unit
   match (s.churnChan d).running with
   | none => s
   | some cp =>
     if !cp.ended then s
     else match copyTargets s d cp with
       | (none, s1) => s1
       | (some x, s1) =>
         let ring := tRing cp.tmpl
         let next (st : State) : State := afterRecord st d cp x.bara
         if ring = 0 then next (if cp.status = 0 then s1 else copyRecord s1 d cp cp.status 0 (copyInfo d cp))
         else match x.ring with
           | none => next (unusable s1 d cp ring)
           | some key => match ringPut s1 key x.slot (completionEntry d cp) with
             | .taken s2 => next ((ringVectors s2 key).foldl raise s2)
             | .noSlots => next (copyRecord s1 d cp 0x4022 ring (copyInfo d cp))
             | .unusable => next (unusable s1 d cp ring)
             | .full s2 =>
               let n := cp.naks + 1
               s2.setChurnChan d { (s2.churnChan d) with
                 running := some { cp with naks := n, held := s.clk + backoff (churnRetry s d) n } })

/-! ### Holds (R130) -/

/-- The report of a granule that was held (R414). -/
def holdRecord (s : State) (d : Dest4) (cp : Copy) : State :=
  match cp.req.source with
  | .push c bundle =>
    statRecord s c 1 0x4031 bundle
      (BitVec.ofNat 128 ((s.clk - cp.held) % 2 ^ 16 + cp.req.tmpl.toNat * 2 ^ 16 + d.chan * 2 ^ 24))
  | _ => copyRecord s d cp 0x4031 0 (copyInfo d cp)

/-- GRANULE_HOLD_RELEASE (R130): the pass that read the shadow half has ended, and the copy of the channel in unit goes on. -/
def execGranuleHoldRelease (s : State) : Out := .next
  (let d := Dest4.ofCode s.now.unit
   match (s.churnChan d).running with
   | some cp =>
     if cp.hold && (match copyElement s d cp with | .held _ => false | _ => true) then
       continueCopy (holdRecord s d cp) d { cp with hold := false, held := 0 }
     else s
   | none => s)

/-! ### Rows of a gather -/

/-- Elements of a row from n down, with the status that ends it; none while a handover is in progress. -/
def rowElements (v : View) (o : GatherOpen) (index : Nat) : Nat → State → Option (Except Code Nat) × State
  | 0, s => (some (.ok 0), s)
  | n + 1, s =>
    match rowElements v o index n s with
    | (some (.ok acc), s1) =>
      let m := o.tmpl
      let w := 2 ^ dEsize o.src
      match tileAddress o.src (fun k => tSbase m k + if k = 0 then n else if k = 1 then index else 0) with
      | none => (some (.error 0x4003), s1)
      | some (tile, b) => match copyReach s1 v accChurnRead o.src tile with
        | (.wait, s2) => (none, s2)
        | (.stop x _, s2) => (some (.error x), s2)
        | (.ok e, s2) => match readHomeBits s2 e b w with
          | (.error x, s3) => (some (.error (if x = 0x6002 then 0x4011 else 0x4010)), hostError s3 x)
          | (.ok x, s3) => (some (.ok (acc + x * 2 ^ (w * n))), s3)
    | r => r

/-- What the Churn has read for the gather of an index: as it opened, or now for a gather that is reopened (R443). -/
def gatherOpening (s : State) (v : View) (k : Core) (g : Gather) : Option GatherOpen × State :=
  match k.live.find? fun l => l.gather = g with
  | some l => match l.opening with
    | some o => (some o, s)
    | none => if l.reopened then openRows s v g.tmpl else (none, s)
  | none => (none, s)

/-- The row of an index: its status and bytes, with the opening; none if it must wait. -/
def gatherRow (s : State) (c : CoreId) (i : GatherIndex) : Option (Code × Vec × GatherOpen) × State :=
  let v : View := { ctxView s (towerOf c) i.gather.ctx i.gather.gen with unit := 32 + (clusterOf c).val % 8 }
  match gatherOpening s v (s.core c) i.gather with
  | (none, s1) => (none, s1)
  | (some o, s1) =>
    if o.status ≠ 0 then (some (o.status, 0, o), s1)
    else match rowElements v o i.index.toNat (tCount o.tmpl 0) s1 with
      | (none, s2) => (none, s2)
      | (some (.error x), s2) => (some (x, 0, o), s2)
      | (some (.ok x), s2) => (some (0, BitVec.ofNat 4096 x, o), s2)

/-- GATHER_ROW_DELIVER (R261, R321, R442): the row of the oldest accepted index of the core joins its queue of 16 rows. -/
def execGatherRowDeliver (s : State) : Out := .next
  (let c := s.now.core
   match (s.core c).gidx with
   | [] => s
   | i :: rest =>
     if 16 ≤ (s.core c).rows.length then s
     else match gatherRow s c i with
       | (none, s1) => s1
       | (some (x, row, o), s1) =>
         let s2 := if x = 0 then s1 else statRecord s1 c 1 x i.bundle 0
         let k := s2.core c
         setOpening (s2.setCore c { k with gidx := rest, rows := k.rows ++ [(i.gather.serial, row)] }) c (gatherKey i.gather) o)

/-! ### The aperture (R183, R184) -/

/-- The channel and register of an offset in BAR 4. -/
def apertureChannel (off : Nat) : Option (Dest4 × Nat) :=
  let ch := off % 0x1000 / 0x40
  if 16 ≤ ch then none
  else if off < 0x4000 then some ({ kind := 2, unit := off / 0x1000, chan := ch }, off % 0x40)
  else if 0x80000 ≤ off && decide (off < 0xA0000) && decide (ch < 15) then
    some ({ kind := 1, unit := (off - 0x80000) / 0x1000, chan := ch }, off % 0x40)
  else none

/-- A host write to a channel register: value at the offset in addr, extra 0 for an aligned write of 8 bytes. One of another
size, to an unbound or stale channel, or to a Churn that is not ready is discarded and logged (R184, R369). -/
def apertureWrite (s : State) (reg : Nat) (f : State → Dest4 → Channel → State) : State :=
  let off := s.now.addr.toNat
  let discard : State := hubRecord s 0x6030 s.now.addr
  match apertureChannel off with
  | none => discard
  | some (d, r) =>
    let ch := s.churnChan d
    let b := ch.binding
    let up := if d.kind = 1 then bit s.hub.ready (32 + (copyTower d).val) else bit s.hub.ready 44
    if s.now.extra ≠ 0 || r ≠ reg || !up || !bit b 24
        || !ctxCurrent s (BitVec.ofNat 16 (fld b 8 16)) (BitVec.ofNat 8 (fld b 0 8)) then discard
    else f s d ch

/-- CHURN_PARAM_WRITE (R183). -/
def execChurnParamWrite (s : State) : Out := .next
  (apertureWrite s 0 fun s d ch => s.setChurnChan d { ch with param := s.now.value })

/-- CHURN_GO_WRITE (R183, R184): a copy with the last PARAM, buffered by the hub where the queue is full. -/
def execChurnGoWrite (s : State) : Out := .next
  (apertureWrite s 8 fun s d ch =>
    let b := ch.binding
    pushCopy s d { param := ch.param, tmpl := BitVec.ofNat 8 s.now.value.toNat, gath := none,
                   ctx := BitVec.ofNat 16 (fld b 8 16), gen := BitVec.ofNat 8 (fld b 0 8), rbank := none, source := .host,
                   ordinal := 0 })

end Sys2Proof.Machine
end

