-- ==== Sys2Proof/Machine/Curd.lean ====
section
/-! DEFINITION. The curd units (14): queries (R338), and programs from their start to their end (R341 to R347, R415). -/

namespace Sys2Proof.Machine

/-! ### Queries (R338) -/

/-- The first query of tower t that its units have not accepted, of those whose core holds none back. -/
def openQuery (s : State) (t : TowerId) : Option Query :=
  let qs := (s.tower t).queries.filter fun q => q.result.isNone
  qs.find? fun q => decide (q.held ≤ s.clk) && (match qs.find? fun x => x.core = q.core with | some x => x = q | none => true)

def State.replaceQuery (s : State) (t : TowerId) (q q' : Query) : State :=
  s.setTower t { (s.tower t) with queries := (s.tower t).queries.map fun x => if x = q then q' else x }

/-- A query is refused with NAK: a record, and the back-off of the core (R149 to R151). -/
def refuseQuery (s : State) (t : TowerId) (q : Query) : State :=
  let n := q.naks + 1
  let x := (Config.queryNak s.freeN).toNat
  let s1 := statRecord s q.core 7 (if n = 64 then 0x5010 else 0x5012) q.push.bundle
    (BitVec.ofNat 128 (n % 2 ^ 16 + x % 256 * 2 ^ 16 + x / 256 % 16 * 2 ^ 24 + x / 4096 * 2 ^ 32))
  s1.replaceQuery t q { q with naks := n, held := s.clk + backoff (s.core q.core).retry n }

/-- CURD_QUERY_ACCEPT (R336, R338, R339): the next query of the tower is refused with NAK where its directory entry is not in the cache,
which a miss fills, where a program runs on its unit, or where the unit's row port is not free in time; else it is accepted and answered. -/
def execCurdQueryAccept (s : State) : Out := .next
  (let t := s.now.tower
   match openQuery s t with
   | none => s
   | some q =>
     if queryMisses s t q then refuseQuery (fillDirectory s t q.table) t q
     else if queryBlocked s t q then refuseQuery (useDirectory s t q.table) t q
     else
       let r := answerQuery (takePort (useDirectory s t q.table) t q) t q
       r.2.replaceQuery t q { q with result := some r.1 })

/-- CURD_RESULT_DELIVER (R324, R338): the elements of the core's answered queries join its result queue, in issue order. -/
def execCurdResultDeliver (s : State) : Out := .next
  (let c := s.now.core
   deliverAnswers s c (s.tower (towerOf c)).queries)

/-! ### Node bodies (R341) -/

def qProg (r : BitVec 512) : Word := BitVec.ofNat 64 (fld r 390 58 * 64)
def qPlen (r : BitVec 512) : Nat := fld r 377 13
def qFu (r : BitVec 512) : Nat := fld r 368 9
def qNu (r : BitVec 512) : Nat := fld r 359 9
def qAw (r : BitVec 512) : Nat := fld r 350 9
def qWnp (r : BitVec 512) : Nat := fld r 332 12
def qWpg (r : BitVec 512) : Nat := fld r 272 48
def qArgs (r : BitVec 512) : Word := BitVec.ofNat 64 (fld r 3 61 * 8)

/-- A body field outside its range (R342). -/
def bodyBroken (r : BitVec 512) : Bool :=
  qPlen r = 0 || decide (4096 < qPlen r) || decide (383 < qFu r) || qNu r = 0 || decide (384 < qFu r + qNu r)
    || decide (4096 < qNu r * qAw r) || qWnp r = 0

/-- n items of k bytes from a flat address on. -/
def flatItems (s : State) (v : View) (k : Nat) (a : Word) : Nat → Except Code (List Nat)
  | 0 => .ok []
  | n + 1 => match flatRead s v a k with
    | .error x => .error x
    | .ok x => match flatItems s v k (a + BitVec.ofNat 64 k) n with
      | .error y => .error y
      | .ok xs => .ok (x :: xs)

/-- A word of the program store is an instruction there (R344). -/
def wordOk (plen aw i : Nat) (w : BitVec 32) : Bool :=
  match decodeCurd w with
  | .ok (.qArg _ _ imm) => decide (imm.toNat < aw)
  | .ok (.qLoop _ _ imm) =>
    let x := (i : Int) + sextNat 12 imm.toNat
    decide (0 ≤ x) && decide (x < (plen : Nat))
  | .ok _ => true
  | .error _ => false

/-- The translations of n pages from page p on: KIND 2 tiles of the tower, not encrypted (R342); a wait while a handover is in
progress. -/
def windowPages (v : View) (p : Nat) : Nat → State → Option (Except Code (List (BitVec 64))) × State
  | 0, s => (some (.ok []), s)
  | n + 1, s =>
    let r := resolveFlat s v p
    match reachOf r.1 with
    | .transit | .miss => (none, r.2)
    | .fault _ => (some (.error 0x4111), r.2)
    | .ok e =>
      if (entryFault r.2 e).isSome || tteKind e ≠ 2 || fld e 32 2 ≠ v.tower.val || bit e 57
          || !bit s.hub.ready (28 + v.tower.val) then (some (.error 0x4111), r.2)
      else match windowPages v (p + 1) n r.2 with
        | (some (.ok es), s1) => (some (.ok (e :: es)), s1)
        | q => q

/-! ### A running program -/

/-- Row operations in flight: rows written and blocks loaded up to a program clock take place (R345). -/
def performRows (s : State) (p : CurdProgram) (clock : Nat) : State :=
  let s1 := (p.writes.filter fun x => decide (x.1 ≤ clock)).foldl (fun st x => writeBytes st x.2.1 x.2.2) s
  (p.loads.filter fun x => decide (x.1 ≤ clock)).foldl (fun st x =>
    (x.2.2.zip (List.range x.2.2.length)).foldl (fun st y =>
      { st with lanes := sset 0 st.lanes (x.2.1 + y.2) y.1,
                badLanes := if x.2.1 % 512 = 0 then sset false st.badLanes (x.2.1 + y.2) false else st.badLanes }) st) s1

/-- Register results that an instruction at the clock sees (R343). -/
def CurdUnit.land (u : CurdUnit) (clock : Nat) : CurdUnit :=
  (u.fly.filter fun x => decide (x.clock ≤ clock)).foldl (fun v x =>
    if x.lane then { v with w := v.w.set x.reg.toNat x.value } else { v with i := v.i.set x.reg.toNat (x.value.setWidth 64) })
    { u with fly := u.fly.filter fun x => decide (clock < x.clock) }

/-- A result in flight, in the order in which results are seen. -/
def insertWrite (x : CurdWrite) : List CurdWrite → List CurdWrite
  | [] => [x]
  | y :: ys => if x.clock < y.clock then x :: y :: ys else y :: insertWrite x ys

def CurdUnit.later (u : CurdUnit) (clock : Nat) (lane : Bool) (reg : BitVec 3) (v : BitVec 8192) : CurdUnit :=
  { u with fly := insertWrite { clock := clock, lane := lane, reg := reg, value := v } u.fly }

def CurdUnit.ri (u : CurdUnit) (n : BitVec 3) : Word := u.i.get n.toFin
def CurdUnit.rw (u : CurdUnit) (n : BitVec 3) : BitVec 8192 := u.w.get n.toFin

def lane32 (x : BitVec 8192) (e : Nat) : Nat := fld x (32 * e) 32
/-- A lane register from its 256 lanes. -/
def lanes32 (f : Nat → Nat) : BitVec 8192 :=
  BitVec.ofNat 8192 (upTo 256 (fun i acc => acc + f i % 2 ^ 32 * 2 ^ (32 * i)) 0)

/-- Everything that is due at the program's clock has taken place. -/
def curdSettle (s : State) (p : CurdProgram) : State × CurdProgram :=
  (performRows s p p.clock,
   { p with units := p.units.map fun u => u.land p.clock, writes := p.writes.filter fun x => decide (p.clock < x.1),
            loads := p.loads.filter fun x => decide (p.clock < x.1) })

/-- The node faults and its program stops; row operations that were issued stand (R347). INFO is that of R415. -/
def curdFault (s : State) (t : TowerId) (p : CurdProgram) (code : Code) : State :=
  let s1 := performRows s p (p.clock + 2 ^ 33)
  let s2 := s1.setTower t { (s1.tower t) with curd := none }
  match findArmed s2 p.instKey with
  | none => leaveRecord s2 p.recKey 6
  | some (home, _) =>
    faultNode s2 home.val p.recKey p.instKey code p.ctx p.gen (rennetSrc t) p.record
      (BitVec.ofNat 64 (p.pc % 4096 + p.clock % 2 ^ 32 * 2 ^ 32))

/-- The next instruction issues 4 × (W + 1) clk later at index pc; running past the end, or a clock above 2^32, faults the
node (R343, R347). -/
def curdAdvance (s : State) (t : TowerId) (p : CurdProgram) (w : BitVec 4) (pc : Nat) : State :=
  let q := { p with pc := pc, clock := p.clock + 4 * (w.toNat + 1) }
  if p.words.length ≤ pc || decide (2 ^ 32 < q.clock) then curdFault s t q 0x4116
  else s.setTower t { (s.tower t) with curd := some q }

/-- An instruction of the tower's program: its effect, then the next in order. -/
def curdStep (s : State) (w : BitVec 4) (f : State → TowerId → CurdProgram → Except Code CurdProgram) : Out := .next
  (let t := s.now.tower
   match (s.tower t).curd with
   | none => s
   | some p0 =>
     let r := curdSettle s p0
     match f r.1 t r.2 with
     | .error x => curdFault r.1 t r.2 x
     | .ok p => curdAdvance r.1 t p w (p.pc + 1))

/-- Every unit of the program, with its number j. -/
def CurdProgram.mapUnits (p : CurdProgram) (f : Nat → CurdUnit → CurdUnit) : CurdProgram :=
  { p with units := (p.units.zip (List.range p.units.length)).map fun x => f x.2 x.1 }

/-- A scalar result of every unit, seen lat clk later. -/
def CurdProgram.scalar (p : CurdProgram) (lat : Nat) (d : BitVec 3) (f : Nat → CurdUnit → Word) : CurdProgram :=
  p.mapUnits fun j u => u.later (p.clock + lat) false d ((f j u).setWidth 8192)

/-- A lane result of every unit, lane by lane. -/
def CurdProgram.lanewise (p : CurdProgram) (lat : Nat) (d : BitVec 3) (f : CurdUnit → Nat → Nat) : CurdProgram :=
  p.mapUnits fun _ u => u.later (p.clock + lat) true d (lanes32 (f u))

/-- A row operation: it holds the row port for 40 clk (R343). -/
def rowOperation (p : CurdProgram) (f : CurdProgram → Except Code CurdProgram) : Except Code CurdProgram :=
  match p.lastRow with
  | some r => if p.clock < r + 40 then .error 0x4112 else f { p with lastRow := some p.clock }
  | none => f { p with lastRow := some p.clock }

/-- A unit's step in each unit, until one faults. -/
def eachUnit (f : Nat → CurdUnit → Except Code CurdUnit) : Nat → List CurdUnit → Except Code (List CurdUnit)
  | _, [] => .ok []
  | j, u :: us => match f j u with
    | .error x => .error x
    | .ok v => match eachUnit f (j + 1) us with
      | .error x => .error x
      | .ok vs => .ok (v :: vs)

def CurdProgram.tryUnits (p : CurdProgram) (f : Nat → CurdUnit → Except Code CurdUnit) : Except Code CurdProgram :=
  match eachUnit f 0 p.units with
  | .error x => .error x
  | .ok us => .ok { p with units := us }

/-! ### The window (R346) -/

/-- The memory key of a row of the window, for a store where write is set. -/
def rowKey (s : State) (p : CurdProgram) (a : Word) (bytes : Nat) (write : Bool) : Except Code Nat :=
  let page := a.toNat / 65536
  if page < p.wbase || a.toNat % bytes ≠ 0 then .error 0x4113
  else match p.pages[page - p.wbase]? with
    | none => .error 0x4113
    | some e => if write && !tteWr e then .error 0x4113 else .ok (tteKey s e (a.toNat % 65536))

/-- Bytes of an element of a row (R345). -/
def rowWidth (f : BitVec 3) : Nat := 2 ^ (f.toNat % 4)

/-! ### Tables (R345) -/

/-- The table that register b names for unit j, with its lane-space unit. -/
def programTable (s : State) (t : TowerId) (p : CurdProgram) (j : Nat) (x : Word) : Except Code (BitVec 256 × Nat) :=
  let e := tableEntry s t x.toNat
  let u := p.fu + j
  if 4096 ≤ x.toNat || !tableValid s t e || tableCtx e ≠ p.ctx || tableGen e ≠ p.gen
      || decide (u < tableFu e) || decide (tableFu e + tableNu e ≤ u) then .error 0x4114
  else .ok (e, u)

/-- An entry widened to 32 bits (R345). -/
def qWiden (fmt bits v : Nat) : Nat :=
  match fmt with
  | 0x11 | 0x12 => intCode 32 (sextNat bits v)
  | 0x02 | 0x03 | 0x04 | 0x05 => (convertFmt fmt 0x01 v 0 false 0).1
  | _ => v

/-! ### Start and end (R342, R347) -/

/-- CURD_PROGRAM_START (R342): the body, the program and the arguments are read and checked, the window is translated, and
clock 0 begins. A window page under handover makes the start wait (R401). -/
def execCurdProgramStart (s : State) : Out := .next
  (let t := s.now.tower
   match (s.tower t).curd with
   | none => s
   | some p =>
     if !p.words.isEmpty then s
     else
       let r := readRecord s p.recKey
       let v := ctxView s t p.ctx p.gen
       if bodyBroken r then curdFault s t p 0x4110
       else match flatItems s v 4 (qProg r) (qPlen r), flatItems s v 8 (qArgs r) (qNu r * qAw r) with
         | .ok ws, .ok as =>
           let words : List (BitVec 32) := ws.map fun x => BitVec.ofNat 32 x
           if (words.zip (List.range words.length)).all fun x => wordOk (qPlen r) (qAw r) x.2 x.1 then
             match windowPages v (qWpg r) (qWnp r) s with
             | (none, s1) => s1
             | (some (.error x), s1) => curdFault s1 t p x
             | (some (.ok pages), s1) =>
               let s2 := flushCombined s1 t
               let held : L2Line → Bool := fun l => pages.any fun e => tteKey s2 e 0 / 65536 = dramKey t (128 * l.line) / 65536
               s2.setTower t { (s2.tower t) with
                 l2 := (s2.tower t).l2.filter fun l => !held l,
                 curd := some { p with
                   words := words, args := as.map fun x => BitVec.ofNat 64 x, fu := qFu r, nu := qNu r, aw := qAw r,
                   wbase := qWpg r, pages := pages,
                   units := List.replicate (qNu r) { i := Vector.replicate 8 0, w := Vector.replicate 8 0, fly := [] } } }
           else curdFault s t p 0x4110
         | _, _ => curdFault s t p 0x4110)

/-- CURD_REFRESH_WINDOW (R343): 160 clk pass while the program clock stands. -/
def execCurdRefreshWindow (s : State) : Out := .next
  (let t := s.now.tower
   match (s.tower t).curd with
   | none => s
   | some p =>
     let s1 := s.setTower t { (s.tower t) with curd := some { p with refresh := p.refresh + 4096 } }
     { s1 with clk := s1.clk + 160, hub := { s1.hub with podTime := s1.hub.podTime + 160 } })

/-! ### Instructions (R345) -/

/-- q.nop (R344). -/
def execQNop (w : BitVec 4) (s : State) : Out := curdStep s w fun _ _ p => .ok p

/-- q.arg (R345): the words from ARGS on as step 1 of R342 has read them. -/
def execQArg (w : BitVec 4) (d : BitVec 3) (imm : BitVec 12) (s : State) : Out := curdStep s w fun _ _ p =>
  .ok (p.scalar 8 d fun j _ => p.args.getD (j * p.aw + imm.toNat) 0)

/-- q.addi (R345). -/
def execQAddi (w : BitVec 4) (d a : BitVec 3) (imm : BitVec 12) (s : State) : Out := curdStep s w fun _ _ p =>
  .ok (p.scalar 4 d fun _ u => u.ri a + imm.signExtend 64)

/-- q.rd (R345, R346): a poisoned row faults the node (R415). -/
def execQRd (w : BitVec 4) (d a : BitVec 3) (f : BitVec 3) (s : State) : Out := curdStep s w fun s _ p =>
  rowOperation p fun p => p.tryUnits fun _ u =>
    let n := rowWidth f
    match rowKey s p (u.ri a) (256 * n) false with
    | .error x => .error x
    | .ok key => match poisonOf s key (256 * n) with
      | some _ => .error 0x4117
      | none =>
        let x := readNat s key (256 * n)
        let v := lanes32 fun e =>
          let y := x / 2 ^ (8 * n * e) % 2 ^ (8 * n)
          if bit f 2 then intCode 32 (sextNat (8 * n) y) else y
        .ok (u.later (p.clock + 48) true d v)

/-- q.wr (R345, R346): the row is performed 40 clk after its issue. -/
def execQWr (w : BitVec 4) (a b : BitVec 3) (f : BitVec 3) (s : State) : Out := curdStep s w fun s _ p =>
  rowOperation p fun p =>
    let n := rowWidth f
    p.units.foldl (fun acc u =>
      match acc with
      | .error x => .error x
      | .ok q => match rowKey s p (u.ri a) (256 * n) true with
        | .error x => .error x
        | .ok key =>
          let row := (List.range 256).flatMap fun e => leBytes n (lane32 (u.rw b) e)
          .ok { q with writes := q.writes ++ [(p.clock + 40, key, row)] }) (.ok p)

/-- q.look (R337, R345). -/
def execQLook (w : BitVec 4) (d a b : BitVec 3) (s : State) : Out := curdStep s w fun s t p =>
  rowOperation p fun p => p.tryUnits fun j u =>
    match programTable s t p j (u.ri b) with
    | .error x => .error x
    | .ok (e, n) =>
      .ok (u.later (p.clock + 44) true d (lanes32 fun l =>
        let x := lane32 (u.rw a) l % 65536
        if elementLost s t n e x l then 0 else qWiden (tableFmt e) (tableBits e) (lookUp s t n e x)))

/-- q.lerp (R337, R345): not on a raw table; an NV sets CFLG. -/
def execQLerp (w : BitVec 4) (d a b : BitVec 3) (s : State) : Out := curdStep s w fun s t p =>
  rowOperation p fun p =>
    let value (u : CurdUnit) (e : BitVec 256) (n l : Nat) : Nat × Bool :=
      let x := lane32 (u.rw a) l
      if elementLost s t n e (x / 256 % 65536) l then (0, false) else lerpUp s t n e (x / 256 % 65536) (x % 256)
    let nv := (p.units.zip (List.range p.units.length)).any fun x => match programTable s t p x.2 (x.1.ri b) with
      | .ok (e, n) => (List.range 256).any fun l => (value x.1 e n l).2
      | .error _ => false
    let r := p.tryUnits fun j u =>
      match programTable s t p j (u.ri b) with
      | .error x => .error x
      | .ok (e, n) =>
        if tableFmt e = 0 then .error 0x4115
        else .ok (u.later (p.clock + 56) true d (lanes32 fun l => qWiden (tableFmt e) (tableBits e) (value u e n l).1))
    r.map fun q => { q with cflg := if nv then q.cflg ||| fNV else q.cflg }

/-- q.tld (R334, R345): one block of the unit's copy, with the guard slot of the block before, 40 clk after its issue. -/
def execQTld (w : BitVec 4) (a b : BitVec 3) (imm : BitVec 12) (s : State) : Out := curdStep s w fun s t p =>
  rowOperation p fun p =>
    let k := imm.toNat
    (p.units.zip (List.range p.units.length)).foldl (fun acc x =>
      match acc with
      | .error y => .error y
      | .ok q => match programTable s t p x.2 (x.1.ri b) with
        | .error y => .error y
        | .ok (e, u) =>
          let vs : List (BitVec 32) := (List.range (min 256 (tableLen e - 256 * k))).map fun l =>
            BitVec.ofNat 32 (lane32 (x.1.rw a) l % 2 ^ tableBits e)
          let guard := if k = 0 then [] else vs.take 1
          .ok { q with loads := q.loads ++ [(p.clock + 40, laneKey t u (tableRow e + k) 0, vs),
                                            (p.clock + 40, laneKey t u (tableRow e + k - 1) 256, guard)] }) (.ok p)

/-- q.add (R345). -/
def execQAdd (w : BitVec 4) (d a b : BitVec 3) (s : State) : Out := curdStep s w fun _ _ p =>
  .ok (p.lanewise 4 d fun u e => lane32 (u.rw a) e + lane32 (u.rw b) e)

/-- A saturating operation on lanes (R107, R345): SAT sets CFLG. -/
def curdSaturating (d a b : BitVec 3) (f : Int → Int → Int × Bool) (p : CurdProgram) : CurdProgram :=
  let op (u : CurdUnit) (e : Nat) : Int × Bool := f (sextNat 32 (lane32 (u.rw a) e)) (sextNat 32 (lane32 (u.rw b) e))
  let sat := p.units.any fun u => (List.range 256).any fun e => (op u e).2
  let q := p.lanewise 4 d fun u e => intCode 32 (op u e).1
  { q with cflg := if sat then q.cflg ||| fSAT else q.cflg }

/-- q.adds (R345). -/
def execQAdds (w : BitVec 4) (d a b : BitVec 3) (s : State) : Out := curdStep s w fun _ _ p =>
  .ok (curdSaturating d a b (fun x y => satAdd 32 x y) p)

/-- q.sub (R345). -/
def execQSub (w : BitVec 4) (d a b : BitVec 3) (s : State) : Out := curdStep s w fun _ _ p =>
  .ok (p.lanewise 4 d fun u e => lane32 (u.rw a) e + (2 ^ 32 - lane32 (u.rw b) e))

/-- q.subs (R345). -/
def execQSubs (w : BitVec 4) (d a b : BitVec 3) (s : State) : Out := curdStep s w fun _ _ p =>
  .ok (curdSaturating d a b (fun x y => satAdd 32 x (-y)) p)

/-- The field of q.ext and q.exts: least bit and width (R345). -/
def extField (imm : BitVec 12) (x : Nat) : Nat := x / 2 ^ (imm.toNat % 32) % 2 ^ (imm.toNat / 32 % 32 + 1)

/-- q.ext (R345). -/
def execQExt (w : BitVec 4) (d a : BitVec 3) (imm : BitVec 12) (s : State) : Out := curdStep s w fun _ _ p =>
  .ok (p.lanewise 4 d fun u e => extField imm (lane32 (u.rw a) e))

/-- q.exts (R345). -/
def execQExts (w : BitVec 4) (d a : BitVec 3) (imm : BitVec 12) (s : State) : Out := curdStep s w fun _ _ p =>
  .ok (p.lanewise 4 d fun u e => intCode 32 (sextNat (imm.toNat / 32 % 32 + 1) (extField imm (lane32 (u.rw a) e))))

/-- q.ins (R345). -/
def execQIns (w : BitVec 4) (d a b : BitVec 3) (imm : BitVec 12) (s : State) : Out := curdStep s w fun _ _ p =>
  .ok (p.lanewise 4 d fun u e => (lane32 (u.rw a) e * 2 ^ (imm.toNat % 32) % 2 ^ 32) ||| lane32 (u.rw b) e)

/-- q.loop (R345): unit 0's new value decides. -/
def execQLoop (w : BitVec 4) (a : BitVec 3) (imm : BitVec 12) (s : State) : Out := .next
  (let t := s.now.tower
   match (s.tower t).curd with
   | none => s
   | some p0 =>
     let r := curdSettle s p0
     let p := r.2
     let q := p.scalar 4 a fun _ u => u.ri a - 1
     let taken : Bool := match p.units with | u :: _ => decide (u.ri a ≠ 1) | [] => false
     curdAdvance r.1 t q w (if taken then ((p.pc : Int) + sextNat 12 imm.toNat).toNat else p.pc + 1))

/-- q.end (R347): row operations in flight finish, CFLG is written, and the node completes. -/
def execQEnd (_ : BitVec 4) (s : State) : Out := .next
  (let t := s.now.tower
   match (s.tower t).curd with
   | none => s
   | some p =>
     let s1 := performRows s p (p.clock + 2 ^ 33)
     let s2 := s1.setTower t { (s1.tower t) with curd := none }
     match findArmed s2 p.instKey with
     | none => leaveRecord s2 p.recKey 6
     | some (home, a) =>
       let b := readByte s2 (p.recKey + 43)
       completeNode (writeByte s2 (p.recKey + 43) (setFld b 0 6 p.cflg.toNat)) home a p.recKey false)

end Sys2Proof.Machine
end

