-- ==== Sys2Proof/Machine/Riscv.lean ====
section
/-! DEFINITION. The RV64IMC base that a walker core implements in machine mode (R53): the expansion of 16-bit instructions, and what an
instruction computes. The spec names the RISC-V unprivileged specification; its encodings and effects are taken from there (log 60). -/

namespace Sys2Proof.Machine

/-! ### Encodings -/

/-- I, R, S, B, U and J words from their fields; an immediate is given as its bits. -/
def rvI (imm rs1 f3 rd op : Nat) : Nat := imm % 4096 * 2 ^ 20 + rs1 * 2 ^ 15 + f3 * 2 ^ 12 + rd * 2 ^ 7 + op
def rvR (f7 rs2 rs1 f3 rd op : Nat) : Nat := f7 * 2 ^ 25 + rs2 * 2 ^ 20 + rs1 * 2 ^ 15 + f3 * 2 ^ 12 + rd * 2 ^ 7 + op
def rvS (imm rs2 rs1 f3 op : Nat) : Nat := rvR (imm / 32 % 128) rs2 rs1 f3 (imm % 32) op
def rvB (imm rs2 rs1 f3 : Nat) : Nat :=
  rvR (imm / 4096 % 2 * 64 + imm / 32 % 64) rs2 rs1 f3 (imm / 2 % 16 * 2 + imm / 2048 % 2) 0x63
def rvJ (imm rd : Nat) : Nat :=
  (imm / 2 ^ 20 % 2 * 2 ^ 19 + imm / 2 % 1024 * 2 ^ 9 + imm / 2048 % 2 * 2 ^ 8 + imm / 4096 % 256) * 2 ^ 12 + rd * 2 ^ 7 + 0x6F

/-- Bit i of an instruction, placed at bit j of an immediate. -/
def rvAt (c i j : Nat) : Nat := c / 2 ^ i % 2 * 2 ^ j

/-- len low bits in two's complement, as the low 32 bits of a sign-extended immediate. -/
def rvSext (len x : Nat) : Nat := (BitVec.ofInt 32 (sextNat len x)).toNat

/-- The immediates of C.ADDI and its kin, C.J, C.BEQZ, and the offsets of the compressed loads and stores. -/
def rvcImm6 (c : Nat) : Nat := rvSext 6 (rvAt c 12 5 + c / 4 % 32)
def rvcJump (c : Nat) : Nat := rvSext 12 (rvAt c 12 11 + rvAt c 11 4 + c / 2 ^ 9 % 4 * 256 + rvAt c 8 10 + rvAt c 7 6 + rvAt c 6 7
  + c / 8 % 8 * 2 + rvAt c 2 5)
def rvcBranch (c : Nat) : Nat :=
  rvSext 9 (rvAt c 12 8 + c / 2 ^ 10 % 4 * 8 + c / 2 ^ 5 % 4 * 64 + c / 8 % 4 * 2 + rvAt c 2 5)
def rvcWord (c : Nat) : Nat := c / 2 ^ 10 % 8 * 8 + rvAt c 6 2 + rvAt c 5 6
def rvcDouble (c : Nat) : Nat := c / 2 ^ 10 % 8 * 8 + c / 2 ^ 5 % 4 * 64

/-- Quadrant 0. -/
def rvExpand0 (c : Nat) : Option Nat :=
  let rd := 8 + c / 4 % 8
  let rs1 := 8 + c / 2 ^ 7 % 8
  match c / 2 ^ 13 with
  | 0 =>
    let imm := c / 2 ^ 11 % 4 * 16 + c / 2 ^ 7 % 16 * 64 + rvAt c 6 2 + rvAt c 5 3
    if imm = 0 then none else some (rvI imm 2 0 rd 0x13)
  | 2 => some (rvI (rvcWord c) rs1 2 rd 0x03)
  | 3 => some (rvI (rvcDouble c) rs1 3 rd 0x03)
  | 6 => some (rvS (rvcWord c) rd rs1 2 0x23)
  | 7 => some (rvS (rvcDouble c) rd rs1 3 0x23)
  | _ => none

/-- The register operations of quadrant 1. -/
def rvExpandAlu (c : Nat) : Option Nat :=
  let rd := 8 + c / 2 ^ 7 % 8
  let rs2 := 8 + c / 4 % 8
  let shamt := rvAt c 12 5 + c / 4 % 32
  match c / 2 ^ 10 % 4 with
  | 0 => some (rvI shamt rd 5 rd 0x13)
  | 1 => some (rvI (0x400 + shamt) rd 5 rd 0x13)
  | 2 => some (rvI (rvcImm6 c) rd 7 rd 0x13)
  | _ => match c / 2 ^ 12 % 2, c / 2 ^ 5 % 4 with
    | 0, 0 => some (rvR 0x20 rs2 rd 0 rd 0x33)
    | 0, 1 => some (rvR 0 rs2 rd 4 rd 0x33)
    | 0, 2 => some (rvR 0 rs2 rd 6 rd 0x33)
    | 0, _ => some (rvR 0 rs2 rd 7 rd 0x33)
    | _, 0 => some (rvR 0x20 rs2 rd 0 rd 0x3B)
    | _, 1 => some (rvR 0 rs2 rd 0 rd 0x3B)
    | _, _ => none

/-- Quadrant 1. -/
def rvExpand1 (c : Nat) : Option Nat :=
  let rd := c / 2 ^ 7 % 32
  match c / 2 ^ 13 with
  | 0 => some (rvI (rvcImm6 c) rd 0 rd 0x13)
  | 1 => if rd = 0 then none else some (rvI (rvcImm6 c) rd 0 rd 0x1B)
  | 2 => some (rvI (rvcImm6 c) 0 0 rd 0x13)
  | 3 =>
    if rd = 2 then
      let imm := rvSext 10 (rvAt c 12 9 + rvAt c 6 4 + rvAt c 5 6 + c / 8 % 4 * 128 + rvAt c 2 5)
      if imm = 0 then none else some (rvI imm 2 0 2 0x13)
    else if rvcImm6 c = 0 then none
    else some (rvcImm6 c % 2 ^ 20 * 2 ^ 12 + rd * 2 ^ 7 + 0x37)
  | 4 => rvExpandAlu c
  | 5 => some (rvJ (rvcJump c) 0)
  | 6 => some (rvB (rvcBranch c) 0 (8 + c / 2 ^ 7 % 8) 0)
  | _ => some (rvB (rvcBranch c) 0 (8 + c / 2 ^ 7 % 8) 1)

/-- Quadrant 2. -/
def rvExpand2 (c : Nat) : Option Nat :=
  let rd := c / 2 ^ 7 % 32
  let rs2 := c / 4 % 32
  match c / 2 ^ 13 with
  | 0 => some (rvI (rvAt c 12 5 + rs2) rd 1 rd 0x13)
  | 2 => if rd = 0 then none else some (rvI (rvAt c 12 5 + c / 2 ^ 4 % 8 * 4 + c / 4 % 4 * 64) 2 2 rd 0x03)
  | 3 => if rd = 0 then none else some (rvI (rvAt c 12 5 + c / 2 ^ 5 % 4 * 8 + c / 4 % 8 * 64) 2 3 rd 0x03)
  | 4 => match c / 2 ^ 12 % 2, rs2 with
    | 0, 0 => if rd = 0 then none else some (rvI 0 rd 0 0 0x67)
    | 0, _ => some (rvR 0 rs2 0 0 rd 0x33)
    | _, 0 => some (if rd = 0 then 0x00100073 else rvI 0 rd 0 1 0x67)
    | _, _ => some (rvR 0 rs2 rd 0 rd 0x33)
  | 6 => some (rvS (c / 2 ^ 9 % 16 * 4 + c / 2 ^ 7 % 4 * 64) rs2 2 2 0x23)
  | 7 => some (rvS (c / 2 ^ 10 % 8 * 8 + c / 2 ^ 7 % 8 * 64) rs2 2 3 0x23)
  | _ => none

/-- The 32-bit instruction that a 16-bit one stands for, none where it is illegal. -/
def rvExpand (c : Nat) : Option Nat :=
  match c % 4 with
  | 0 => rvExpand0 c
  | 1 => rvExpand1 c
  | _ => rvExpand2 c

/-! ### Arithmetic -/

/-- The low 32 bits sign-extended. -/
def rvWord (x : Word) : Word := (x.setWidth 32).signExtend 64

/-- OP and OP-IMM by funct3, alt for subtraction and the arithmetic shift. -/
def rvAlu (f3 : Nat) (alt : Bool) (a b : Word) : Word :=
  match f3 with
  | 0 => if alt then a - b else a + b
  | 1 => a <<< (b.toNat % 64)
  | 2 => if a.slt b then 1 else 0
  | 3 => if a.ult b then 1 else 0
  | 4 => a ^^^ b
  | 5 => if alt then a.sshiftRight (b.toNat % 64) else a >>> (b.toNat % 64)
  | 6 => a ||| b
  | _ => a &&& b

/-- OP-32 and OP-IMM-32: none for a funct3 that they lack. -/
def rvAlu32 (f3 : Nat) (alt : Bool) (a b : Word) : Option Word :=
  let x : BitVec 32 := a.setWidth 32
  match f3 with
  | 0 => some (rvWord (if alt then a - b else a + b))
  | 1 => some ((x <<< (b.toNat % 32)).signExtend 64)
  | 5 => some ((if alt then x.sshiftRight (b.toNat % 32) else x >>> (b.toNat % 32)).signExtend 64)
  | _ => none

/-- Division and remainder of n bits: by zero the quotient is all ones and the remainder the dividend; an overflow wraps. -/
def rvDiv {n : Nat} (a b : BitVec n) : BitVec n := if b = 0 then BitVec.allOnes n else a.sdiv b
def rvRem {n : Nat} (a b : BitVec n) : BitVec n := if b = 0 then a else a.srem b
def rvDivu {n : Nat} (a b : BitVec n) : BitVec n := if b = 0 then BitVec.allOnes n else a / b
def rvRemu {n : Nat} (a b : BitVec n) : BitVec n := if b = 0 then a else a % b

/-- The M extension by funct3. -/
def rvMul (f3 : Nat) (a b : Word) : Word :=
  match f3 with
  | 0 => a * b
  | 1 => BitVec.ofInt 64 (a.toInt * b.toInt / 2 ^ 64)
  | 2 => BitVec.ofInt 64 (a.toInt * (b.toNat : Int) / 2 ^ 64)
  | 3 => BitVec.ofNat 64 (a.toNat * b.toNat / 2 ^ 64)
  | 4 => rvDiv a b
  | 5 => rvDivu a b
  | 6 => rvRem a b
  | _ => rvRemu a b

/-- The M extension on words. -/
def rvMul32 (f3 : Nat) (a b : Word) : Option Word :=
  let x : BitVec 32 := a.setWidth 32
  let y : BitVec 32 := b.setWidth 32
  match f3 with
  | 0 => some ((x * y).signExtend 64)
  | 4 => some ((rvDiv x y).signExtend 64)
  | 5 => some ((rvDivu x y).signExtend 64)
  | 6 => some ((rvRem x y).signExtend 64)
  | 7 => some ((rvRemu x y).signExtend 64)
  | _ => none

/-- The branches by funct3. -/
def rvTaken (f3 : Nat) (a b : Word) : Option Bool :=
  match f3 with
  | 0 => some (a = b)
  | 1 => some (a ≠ b)
  | 4 => some (a.slt b)
  | 5 => some (!a.slt b)
  | 6 => some (a.ult b)
  | 7 => some (!a.ult b)
  | _ => none

/-! ### One instruction -/

/-- What an instruction asks of its hart: a result for rd and the next pc; a load of n bytes; a store; a trap with its cause; the return
from one; or it is illegal. -/
inductive RvEffect where
  | write (rd : Nat) (v : Word) (pc : Word)
  | load (rd : Nat) (a : Word) (n : Nat) (signed : Bool)
  | store (a : Word) (n : Nat) (v : Word)
  | trap (cause : Nat)
  | mret
  | illegal
  deriving DecidableEq, Repr

/-- The sign-extended immediates of the I, S, B, U and J layouts. -/
def rvImmI (w : Nat) : Word := BitVec.ofInt 64 (sextNat 12 (w / 2 ^ 20))
def rvImmS (w : Nat) : Word := BitVec.ofInt 64 (sextNat 12 (w / 2 ^ 25 * 32 + w / 2 ^ 7 % 32))
def rvImmB (w : Nat) : Word :=
  BitVec.ofInt 64 (sextNat 13 (rvAt w 31 12 + rvAt w 7 11 + w / 2 ^ 25 % 64 * 32 + w / 2 ^ 8 % 16 * 2))
def rvImmU (w : Nat) : Word := BitVec.ofInt 64 (sextNat 32 (w / 2 ^ 12 * 2 ^ 12))
def rvImmJ (w : Nat) : Word :=
  BitVec.ofInt 64 (sextNat 21 (rvAt w 31 20 + w / 2 ^ 12 % 256 * 2 ^ 12 + rvAt w 20 11 + w / 2 ^ 21 % 1024 * 2))

/-- A result that may be missing. -/
def rvResult (rd : Nat) (pc : Word) (v : Option Word) : RvEffect :=
  match v with
  | some x => .write rd x pc
  | none => .illegal

/-- The effect of the 32-bit instruction w at pc, of len bytes, with the registers x. -/
def rvDecode (x : Nat → Word) (pc : Word) (len w : Nat) : RvEffect :=
  let rd := w / 2 ^ 7 % 32
  let f3 := w / 2 ^ 12 % 8
  let f7 := w / 2 ^ 25
  let a := x (w / 2 ^ 15 % 32)
  let b := x (w / 2 ^ 20 % 32)
  let next := pc + BitVec.ofNat 64 len
  match w % 128 with
  | 0x37 => .write rd (rvImmU w) next
  | 0x17 => .write rd (pc + rvImmU w) next
  | 0x6F => .write rd next (pc + rvImmJ w)
  | 0x67 => if f3 = 0 then .write rd next (setBit (a + rvImmI w) 0 false) else .illegal
  | 0x63 => match rvTaken f3 a b with
    | some true => .write 0 0 (pc + rvImmB w)
    | some false => .write 0 0 next
    | none => .illegal
  | 0x03 => if f3 = 7 then .illegal else .load rd (a + rvImmI w) (2 ^ (f3 % 4)) (decide (f3 < 4))
  | 0x23 => if 4 ≤ f3 then .illegal else .store (a + rvImmS w) (2 ^ f3) b
  | 0x13 =>
    if f3 = 1 && f7 / 2 ≠ 0 then .illegal
    else if f3 = 5 && f7 / 2 ≠ 0 && f7 / 2 ≠ 0x10 then .illegal
    else .write rd (rvAlu f3 (f3 = 5 && f7 / 2 = 0x10) a (rvImmI w)) next
  | 0x1B =>
    if f3 = 1 && f7 ≠ 0 then .illegal
    else if f3 = 5 && f7 ≠ 0 && f7 ≠ 0x20 then .illegal
    else rvResult rd next (rvAlu32 f3 (f3 = 5 && f7 = 0x20) a (rvImmI w))
  | 0x33 =>
    if f7 = 1 then .write rd (rvMul f3 a b) next
    else if f7 = 0 || (f7 = 0x20 && (f3 = 0 || f3 = 5)) then .write rd (rvAlu f3 (f7 = 0x20) a b) next
    else .illegal
  | 0x3B =>
    if f7 = 1 then rvResult rd next (rvMul32 f3 a b)
    else if f7 = 0 || (f7 = 0x20 && (f3 = 0 || f3 = 5)) then rvResult rd next (rvAlu32 f3 (f7 = 0x20) a b)
    else .illegal
  | 0x0F => if f3 = 0 || f3 = 1 then .write 0 0 next else .illegal
  | 0x73 =>
    if w = 0x00000073 then .trap 11
    else if w = 0x00100073 then .trap 3
    else if w = 0x30200073 then .mret
    else if w = 0x10500073 then .write 0 0 next
    else .illegal
  | _ => .illegal

/-- The effect of the instruction whose first 32 bits are raw. -/
def rvEffect (x : Nat → Word) (pc : Word) (raw : BitVec 32) : RvEffect :=
  let n := raw.toNat
  if n % 4 = 3 then rvDecode x pc 4 n
  else match rvExpand (n % 2 ^ 16) with
    | some w => rvDecode x pc 2 w
    | none => .illegal

end Sys2Proof.Machine
end

