-- ==== Sys2Proof/Machine/Walker.lean ====
section
/-! DEFINITION. The walkers (R53 to R56): invalidations (R52, R403), handovers of shared ranges (R57, R58, R438), the migration
pools (R445), and the walker's own instructions (R55). -/

namespace Sys2Proof.Machine

/-! ### Invalidation (R52) -/

/-- Whether a place of a load or store lies in the tiles that p names. -/
def loadTouches (p : BitVec 16 → Nat → Bool) (l : Load) : Bool :=
  match l.data with
  | .element q _ _ _ => p q.tid q.tile
  | .row _ _ ls => ls.any fun x => p x.2.1.tid x.2.1.tile
  | .descriptor q _ => p q.tid q.tile
  | .word _ => false

/-- A gate entry that acts on the tiles: a store, an atomic, an expect or an arrival. -/
def gateTouches (p : BitVec 16 → Nat → Bool) (e : GateEntry) : Bool :=
  match e with
  | .store _ bs => bs.any fun b => p b.place.tid b.place.tile
  | .com _ _ tile _ _ => p 0 tile
  | .quant _ tile _ _ _ => p 0 tile
  | .push q _ => (pushMajor q = 0x09 || pushMajor q = 0x0A) && p 0 (fld q.a 16 48)

/-- A wait for an object of the flat view that lies in the tiles. Where its address is not at hand, as that of a bound sync object of a
record that has left its core, it may. -/
def waitTouches (p : BitVec 16 → Nat → Bool) (binds : Option (Vector (BitVec 256) 64)) (w : Wait) : Bool :=
  if w.kind = 1 || w.kind = 2 then p 0 (fld w.obj 16 48)
  else if w.kind = 5 then
    match binds with
    | some b => p 0 (fld (bSync (b.toList.getD (w.obj.toNat % 64) 0)) 16 48)
    | none => true
  else false

/-- The accesses of core c that were translated under the old mapping complete or are rolled back (R52, R403): sums in its quantum
buffer reach their homes, what lies before the restart point leaves the gate, but for pushes whose windows have no room (R151), and the
rest is rolled back. -/
def settleCore (s : State) (c : CoreId) (ctx : BitVec 16) (gen : BitVec 8) (p : BitVec 16 → Nat → Bool) : State :=
  let k := s.core c
  if k.run.isSome && coreCtx s c = ctx && coreGen s c = gen then
    if k.loads.any (loadTouches p) || k.gate.any (gateTouches p) || k.stall.any (waitTouches p (some k.binds)) then
      let r := leaveAll c (k.gate.take k.freed) s
      let s1 := (r.2.filter (gateTouches p)).foldl (fun st e => leaveGate st c e) r.1
      let stay := r.2.filter fun e => !gateTouches p e
      let k1 := s1.core c
      flushQuantum (rollback (s1.setCore c { (k1.mapCurrent fun q => { q with gateLen := q.gateLen + stay.length - k.freed }) with
        gate := stay ++ k.gate.drop k.freed, freed := stay.length }) c) c
    else flushQuantum s c
  else s

/-- Records of tower t that wait in memory for an object in the tiles are queued again: their waits are issued anew (R52). -/
def settleSuspended (s : State) (t : TowerId) (ctx : BitVec 16) (gen : BitVec 8) (p : BitVec 16 → Nat → Bool) : State :=
  let mine : Suspended → Bool := fun x => x.entry.ctx = ctx && x.entry.gen = gen && waitTouches p none x.wait
  let w := s.tower t
  let hit := w.susp.filter mine
  let s1 := leaveWaiters (s.setTower t { w with susp := w.susp.filter fun x => !mine x }) t fun x =>
    x.core.isNone && !x.granted && hit.any fun y => y.entry.record = x.record
  hit.foldl (fun st x => wakeRecord st t x) s1

/-- A curd program whose window meets the tiles faults (R403). -/
def settleCurd (s : State) (t : TowerId) (ctx : BitVec 16) (gen : BitVec 8) (p : BitVec 16 → Nat → Bool) : State :=
  match (s.tower t).curd with
  | some q =>
    if q.ctx = ctx && q.gen = gen && (List.range q.pages.length).any fun i => p 0 (q.wbase + i) then curdFault s t q 0x4113 else s
  | none => s

/-- A running copy that reads from the tiles stops at its element, with the code of the fresh walk, or 0x1202 where that walk
gives an entry (R52, R403; log 54). -/
def settleCopy (s : State) (d : Dest4) (ctx : BitVec 16) (gen : BitVec 8) (p : BitVec 16 → Nat → Bool) : State :=
  match (s.churnChan d).running with
  | none => s
  | some cp =>
    if cp.ended || cp.req.ctx ≠ ctx || cp.req.gen ≠ gen then s
    else match tileAddress cp.src (srcCoord cp.tmpl cp.req.param cp.pos) with
      | none => s
      | some (ts, _) =>
        if p (dTid cp.src) ts then
          let v := copyView s d cp.req
          let x : Code := match reachOf (tensorWalk s v (dTtab cp.src) ts) with
            | .fault x => x
            | _ => 0x1202
          s.setChurnChan d { (s.churnChan d) with
            running := some { cp with ended := true, hold := false, status := 0x4003, fcode := x } }
        else s

/-- The lines of a context that an invalidation covers. -/
def coveredLine (ctx : BitVec 16) (gen : BitVec 8) (p : BitVec 16 → Nat → Bool) (l : L1Line) : Bool :=
  l.ctx = ctx && l.gen = gen && p l.tid l.tile

/-- A dirty host line that an invalidation covers waits for the link: the invalidation is not complete before it is written back (R52,
R437). -/
def invalidateWaits (s : State) (ctx : BitVec 16) (gen : BitVec 8) (p : BitVec 16 → Nat → Bool) : Bool :=
  waitsForLink s (List.finRange 128) (coveredLine ctx gen p)

/-- An invalidation of the tiles that p names in a context, complete (R52). -/
def invalidate (s : State) (ctx : BitVec 16) (gen : BitVec 8) (p : BitVec 16 → Nat → Bool) : State :=
  let s0 := (List.finRange 4).foldl (fun st t => settleSuspended (flushCombined st t) t ctx gen p) s
  let s1 := (List.finRange 128).foldl (fun st c => settleCore st c ctx gen p) s0
  let mine := coveredLine ctx gen p
  let s2 := (List.finRange 128).foldl (fun st c => dropLines (writeBackLines st c mine) c mine) s1
  let s3 := (List.finRange 4).foldl (fun st t =>
    let w := st.tower t
    settleCurd (st.setTower t { w with
      tiles := w.tiles.filter fun e => !(e.ctx = ctx && e.gen = gen && p e.tid e.tile)
      walked := w.walked.filter fun e => !(e.ctx = ctx && e.gen = gen && p e.tid e.tile) }) t ctx gen p) s2
  churnChannels.foldl (fun st d => settleCopy st d ctx gen p) s3

/-- The tiles of a selector word (R54, R55): TID in [63:48], tile in [23:0]. -/
def selected (sel : Word) (tid : BitVec 16) (tile : Nat) : Bool :=
  (fld sel 48 16 = 0xFFFF || fld sel 48 16 = tid.toNat) && (fld sel 0 24 = 0xFFFFFF || fld sel 0 24 = tile % 2 ^ 24)

/-! ### Migration pools (R445) -/

def poolKey (s : State) (t : TowerId) : Nat := dramKey t (fld (s.tower t).mpool 13 51 * 8192)
def poolCount (s : State) (t : TowerId) : Nat :=
  let n := (readWord s (poolKey s t)).toNat
  if fld (s.tower t).mpool 13 51 = 0 || decide (1023 < n) then 0 else n

/-- A frame is taken from the pool of tower t, none if it holds none. -/
def poolTake (s : State) (t : TowerId) : Option (Nat × State) :=
  let n := poolCount s t
  if n = 0 then none
  else some (fld (readWord s (poolKey s t + 8 * n)) 0 21, writeWord s (poolKey s t) (BitVec.ofNat 64 (n - 1)))

/-- Frame f of tower t belongs to a shared range of the device, or no longer does (R59). -/
def markMigrated (s : State) (t : TowerId) (f : Nat) (b : Bool) : State :=
  { s with migrated := sset false s.migrated (dramKey t (f * 65536) / 65536) b }

/-- A frame returns to the pool of tower t. R445 does not say what a pool whose COUNT is 1,023 does with one more: the frame is in no pool
then (log 59). -/
def poolGive (s0 : State) (t : TowerId) (f : Nat) : State :=
  let s := markMigrated s0 t f false
  let n := poolCount s t + 1
  if fld (s.tower t).mpool 13 51 = 0 || decide (1023 < n) then s
  else writeWord (writeWord s (poolKey s t) (BitVec.ofNat 64 n)) (poolKey s t + 8 * n) (BitVec.ofNat 64 f)

/-! ### Copies of 64 KiB (R55) -/

/-- The memory key of an operand of wk.chn on tower t. -/
def chunkKey (t : TowerId) (a : Word) : Nat :=
  let pa := fld a 16 47 * 65536
  if bit a 63 then hostKey pa else dramKey t pa

/-- A tile that a hub Churn cannot reach: outside the DRAM (R41), on DRAM that is not ready (R369), or beyond a link that is
down (R437). -/
def chunkFault (s : State) (t : TowerId) (a : Word) : Option Code :=
  if bit a 63 then (if s.hub.cxlUp then none else some 0x4011)
  else if dramFrames ≤ fld a 16 47 then some 0x4003
  else if !bit s.hub.ready (28 + t.val) then some 0x4006 else none

/-- 64 KiB from one key to another: up to the first poisoned word of the source (R406). -/
def copyBytes (s0 : State) (src dst : Nat) : Code × State :=
  let s := if src < 2 ^ 42 then flushRange s0 (towerNo (src / 2 ^ 40)) src 65536 else s0
  match s.poison.find? fun e => decide (src / 8 ≤ e.1) && decide (e.1 < src / 8 + 8192) with
  | some e => (0x4010, writeBytes s dst (readBytes s src (8 * e.1 - src)))
  | none => (0, writeBytes s dst (readBytes s src 65536))

/-- wk.chn: the status of the copy. -/
def copyChunk (s : State) (t : TowerId) (a b : Word) : Code × State :=
  match chunkFault s t a, chunkFault s t b with
  | some x, _ => (x, s)
  | none, some x => (x, s)
  | none, none => copyBytes s (chunkKey t a) (chunkKey t b)

/-! ### Flat-table leaves (R58) -/

/-- A new table level: 4096 empty entries. -/
def emptyLevel (s : State) (key : Nat) : State := writeBytes s key (List.replicate 32768 0)

/-- The key of the leaf of address a in tower t's copy of a flat table, missing levels created from the pool; 0x1110 if it has
no frame to give. -/
def leafKey (s : State) (t : TowerId) (a : Word) : List Nat → Nat → Except Code Nat × State
  | [], pa => (.ok (dramKey t (pa + 8 * fld a 16 12)), s)
  | lo :: los, pa =>
    let key := dramKey t (pa + 8 * fld a lo 12)
    let e := readWord s key
    if bit e 63 && tteKind e = 6 then leafKey s t a los (tteFrame e * 65536)
    else match poolTake s t with
      | none => (.error 0x1110, s)
      | some (f, s1) =>
        let s2 := emptyLevel s1 (dramKey t (f * 65536))
        let s3 := writeWord s2 key (setFld (setBit (setFld (0 : BitVec 64) 60 3 6) 63 true) 0 48 f)
        leafKey s3 t a los (f * 65536)

/-- What a handover has taken and written so far: frames, and leaves with their former values, latest first. -/
structure Moved where
  frames : List Nat
  leaves : List (Nat × Word)
  deriving DecidableEq, Repr

/-- A leaf is written into the copy of every tower of the partition. -/
def writeLeaves (a : Word) (leaf : BitVec 64) (flatb : Word) : List TowerId → Moved → State → Option Code × Moved × State
  | [], m, s => (none, m, s)
  | t :: ts, m, s => match leafKey s t a [52, 40, 28] flatb.toNat with
    | (.error x, s1) => (some x, m, s1)
    | (.ok key, s1) =>
      writeLeaves a leaf flatb ts { m with leaves := (key, readWord s1 key) :: m.leaves } (writeWord s1 key leaf)

def partTowers (s : State) (ctx : BitVec 16) : List TowerId := (List.finRange 4).filter fun t => bit (ctxTowers s ctx) t.val

/-- A leaf of a KIND with OWN 0. -/
def mkLeaf (kind : Nat) (rest : BitVec 58) : BitVec 64 := (1 : BitVec 1) ++ BitVec.ofNat 3 kind ++ (0 : BitVec 2) ++ rest

/-- A page that the host's leaf h maps has been copied to frame f of tower t, with status c.1: its leaf is written (R59). -/
def movePage (t : TowerId) (v : View) (a : Word) (h : BitVec 64) (f : Nat) (m : Moved) (c : Code × State) :
    Option Code × Moved × State :=
  if c.1 = 0 then
    writeLeaves a (mkLeaf 2 (setFld (setFld (0 : BitVec 58) 50 2 (fld h 50 2)) 0 48 (t.val * 2 ^ 32 + f)))
      v.flatb (partTowers c.2 v.ctx) m c.2
  else (some c.1, m, c.2)

/-! ### Requests (R53, R54) -/

/-- The answer to a range request reaches the core that waits for it, or stands for a suspended record (R266). -/
def answerRange (s : State) (t : TowerId) (r : WalkReq) (status : Code) : State :=
  let rel := decide (r.kind = 4)
  let kept : State := s.setTower t { (s.tower t) with
    answers := (s.tower t).answers ++ [(r.record, 2 * (r.a2.toNat % 32) + rel.toNat, status)] }
  match r.core with
  | some c => match (s.core c).stall, (s.core c).run with
    | some w, some q =>
      if w.kind = 6 && w.obj = r.a2 && w.arg = (if rel then 1 else 0) && q.record = r.record then completeRange s c w status
      else kept
    | _, _ => kept
  | none => kept

/-- The range entry of a request takes OWN. -/
def setOwner (s : State) (v : View) (i own : Nat) : State :=
  let key := rangeEntryKey s v i
  writeWord s key (setFld (readWord s key) 54 2 own)

def reqView (s : State) (t : TowerId) (r : WalkReq) : View := ctxView s t r.ctx r.gen

/-- The pages of a range entry as flat tiles. -/
def inRange (e : BitVec 128) (tid : BitVec 16) (tile : Nat) : Bool :=
  tid = 0 && decide (rBase e ≤ tile) && decide (tile < rBase e + rLen e)

/-- A handover ends with an owner and a status (R58, R438). -/
def endHandover (s : State) (t : TowerId) (h : Handover) (own : Nat) (status : Code) : State :=
  let s1 := setOwner s (reqView s t h.req) h.index own
  answerRange (s1.setTower t { (s1.tower t) with handover := none }) t h.req status

/-- The walker of tower t reports an invalidation that INVSEL asked for (R52, R186). -/
def reportInvalidation (s : State) (t : TowerId) : State :=
  let left := setBit s.hub.invLeft t.val false
  (s.mapHub fun h => { h with invLeft := left, invsel := if left = 0 then setBit h.invsel 47 false else h.invsel })

def State.setWalker (s : State) (t : TowerId) (k : Walker) : State := s.setTower t { (s.tower t) with walker := k }

/-- The current request ends. -/
def endRequest (s : State) (t : TowerId) : State :=
  s.setWalker t { (s.tower t).walker with cur := none, running := false }

/-- The view under which a request of a layout unit is walked: the control registers of the core that asks, which it loaded at its
pick-up, or the context's entry (R26, R51). -/
def tileView (s : State) (t : TowerId) (r : WalkReq) : View :=
  match r.core with
  | some c => if coreCtx s c = r.ctx && coreGen s c = r.gen then { coreView s c with tower := t, unit := r.unit }
    else { reqView s t r with unit := r.unit }
  | none => { reqView s t r with unit := r.unit }

/-- The layout unit that stands for the walker's own look at a host page (R58). -/
def pageUnit : Nat := 45

/-- The walker answers the request of a layout unit with an entry, or with a code that is not 0: the entry is installed, and the held
access is replayed (R49, R55). An answer for a stale generation is discarded (R402). -/
def answerTile (s : State) (t : TowerId) (r : WalkReq) (code : Code) (e : BitVec 64) : State :=
  if !ctxCurrent s r.ctx r.gen then s
  else
    let x := hostEntry r.leaf e
    let s1 := if code = 0 && r.unit ≠ pageUnit then installTile s (tileView s t r) r.tid r.tile x else s
    let w := s1.tower t
    s1.setTower t { w with walked := w.walked ++
      [{ unit := r.unit, ctx := r.ctx, gen := r.gen, tid := r.tid, tile := r.tile, code := code, tte := x }] }

/-- The current request fails with a code (R55). -/
def failRequest (s : State) (t : TowerId) (code : Code) : State :=
  match (s.tower t).walker.cur with
  | none => endRequest s t
  | some r =>
    let s1 := endRequest s t
    match r.kind with
    | 3 => answerRange s1 t r code
    | 4 => answerRange s1 t r code
    | 5 => reportInvalidation s1 t
    | _ => answerTile s1 t r (if code = 0 then 0x1001 else code) 0

/-- The 4 bytes of the routine store at an offset (R53). -/
def storeWord (s : State) (t : TowerId) (off : Nat) : BitVec 32 :=
  BitVec.ofNat 32 (leNat ((List.range 4).map fun i => sget 0 (s.tower t).store (off + i)))

/-- The instruction of R55 at the walker's pc, if one stands there. -/
def walkerInstr (s : State) (t : TowerId) : Option Instr := decodeWalker (storeWord s t (s.tower t).walker.pc.toNat)

/-- The registers of R54 on entry to a routine. -/
def routineRegs (x : Vector Word 32) (r : WalkReq) : Vector Word 32 :=
  ((((((x.set 10 (BitVec.ofNat 64 r.kind)).set 11 (BitVec.ofNat 64 (r.ctx.toNat * 256 + r.gen.toNat))).set 12 r.a2).set 13
    r.a3).set 14 (BitVec.ofNat 64 r.acc)).set 15 (BitVec.ofNat 64 r.tag.toNat))

/-! ### The walker's instructions (R55) -/

def Walker.get (k : Walker) (n : BitVec 5) : Word := k.x.get n.toFin
/-- Writes of x0 discard the result. -/
def Walker.put (k : Walker) (n : BitVec 5) (v : Word) : Walker := if n = 0 then k else { k with x := k.x.set n.toNat v }

/-- A result, and the next instruction. -/
def walkerResult (s : State) (t : TowerId) (d : BitVec 5) (v : Word) : State :=
  let k := (s.tower t).walker
  s.setWalker t { k.put d v with pc := k.pc + 4 }

/-- Load-address-misaligned, taken in machine mode (R55; log 11). -/
def walkerTrap (s : State) (t : TowerId) (cause : Nat) (val : Word) : State :=
  let k := (s.tower t).walker
  s.setWalker t { k with mepc := k.pc, mcause := BitVec.ofNat 64 cause, mtval := val,
                         mstatus := setFld (setBit (setBit k.mstatus 7 (bit k.mstatus 3)) 3 false) 11 2 3,
                         pc := k.mtvec &&& ~~~(3 : Word) }

/-- wk.ldp (R55): a poisoned word fails the request (log 21); an address beyond the tower's frames does not exist (R41). -/
def execWkLdp (_ sr d : BitVec 5) (s : State) : Out :=
  let t := s.now.tower
  let a := (s.tower t).walker.get sr
  if fld a 0 3 ≠ 0 then .next (walkerTrap s t 4 a)
  else if dramBytes ≤ a.toNat then .fault .noSuchFrame
  else
    let key := dramKey t a.toNat
    let s1 := touchHome s key 8 false
    .next (match poisonOf s1 key 8 with
      | some _ => failRequest s1 t 0x1001
      | none => walkerResult s1 t d (readWord s1 key))

/-- wk.ldh (R55): while the link is down the read returns as an error, which fails the request (R437), and so does a poisoned
completion (R428). -/
def execWkLdh (_ sr d : BitVec 5) (s : State) : Out := .next
  (let t := s.now.tower
   let a := (s.tower t).walker.get sr
   if fld a 0 3 ≠ 0 then walkerTrap s t 4 a
   else if !s.hub.cxlUp then failRequest s t 0x6001
   else
     let key := hostKey a.toNat
     match poisonOf s key 8 with
     | some _ => failRequest (hubRecord s 0x6002 0) t 0x6002
     | none => walkerResult s t d (readWord s key))

/-- wk.done (R55): an unknown tag does nothing; an entry with V = 0 fails the request with 0x1202. -/
def execWkDone (tr sr _ : BitVec 5) (s : State) : Out := .next
  (let t := s.now.tower
   let k := (s.tower t).walker
   let e := k.get sr
   let s1 := s.setWalker t { k with pc := k.pc + 4 }
   match k.cur with
   | none => s1
   | some r =>
     if r.tag ≠ (k.get tr).setWidth 16 then s1
     else if !bit e 63 then failRequest s1 t 0x1202
     else match r.kind with
       | 3 => answerRange (endRequest s1 t) t r 0
       | 4 => answerRange (endRequest s1 t) t r 0
       | 5 => reportInvalidation (endRequest s1 t) t
       | _ => answerTile (endRequest s1 t) t r 0 e)

/-- wk.fail (R55). -/
def execWkFail (tr sr _ : BitVec 5) (s : State) : Out := .next
  (let t := s.now.tower
   let k := (s.tower t).walker
   let x : Code := (k.get sr).setWidth 16
   let s1 := s.setWalker t { k with pc := k.pc + 4 }
   match k.cur with
   | none => s1
   | some r => if r.tag ≠ (k.get tr).setWidth 16 then s1 else failRequest s1 t (if x = 0 then 0x1001 else x))

/-- wk.inv (R52, R55): it retires once the invalidation is complete, which dirty host lines delay while the link is down (R437). -/
def execWkInv (tr sr d : BitVec 5) (s : State) : Out := .next
  (let t := s.now.tower
   let k := (s.tower t).walker
   let c := k.get sr
   let ctx := BitVec.ofNat 16 (fld c 8 16)
   let gen := BitVec.ofNat 8 (fld c 0 8)
   if invalidateWaits s ctx gen (selected (k.get tr)) then s
   else walkerResult (invalidate s ctx gen (selected (k.get tr))) t d 0)

/-- wk.chn (R55). -/
def execWkChn (tr sr d : BitVec 5) (s : State) : Out := .next
  (let t := s.now.tower
   let k := (s.tower t).walker
   let r := copyChunk s t (k.get sr) (k.get tr)
   walkerResult r.2 t d (r.1.setWidth 64))

/-! ### Routines (R53, R54) -/

/-- An instruction of RV64IMC of the routine that runs on tower t (R53, R56; log 60): loads and stores reach the tower's DRAM at their
homes, in program order. An illegal instruction fails the request (R55). -/
def rvStep (s : State) (t : TowerId) : Out :=
  let k := (s.tower t).walker
  let raw := storeWord s t k.pc.toNat
  let next := k.pc + (if raw.toNat % 4 = 3 then 4 else 2)
  match rvEffect (fun n => k.get (BitVec.ofNat 5 n)) k.pc raw with
  | .illegal => .next (failRequest s t 0x1004)
  | .trap c => .next (walkerTrap s t c 0)
  | .mret => .next (s.setWalker t { k with
      pc := k.mepc, mstatus := setBit (setBit k.mstatus 3 (bit k.mstatus 7)) 7 true })
  | .write rd v pc => .next (s.setWalker t { k.put (BitVec.ofNat 5 rd) v with pc := pc })
  | .load rd a n signed =>
    if a.toNat % n ≠ 0 then .next (walkerTrap s t 4 a)
    else if dramBytes ≤ a.toNat then .fault .noSuchFrame
    else
      let key := dramKey t a.toNat
      let s1 := touchHome s key n false
      .next (match poisonOf s1 key n with
        | some _ => failRequest s1 t 0x1001
        | none =>
          let x := readNat s1 key n
          s1.setWalker t { k.put (BitVec.ofNat 5 rd) (if signed then BitVec.ofInt 64 (sextNat (8 * n) x) else BitVec.ofNat 64 x) with
            pc := next })
  | .store a n v =>
    if a.toNat % n ≠ 0 then .next (walkerTrap s t 6 a)
    else if dramBytes ≤ a.toNat then .fault .noSuchFrame
    else
      let key := dramKey t a.toNat
      .next ((writeNat (touchHome s key n true) key n v.toNat).setWalker t { k with pc := next })

/-- One instruction of the routine that runs on tower t: one of R55 or one of RV64IMC. -/
def walkerStep (s : State) (t : TowerId) : Out :=
  let s1 := { s with now := onTower t }
  match walkerInstr s t with
  | some (.wkLdp a b d) => execWkLdp a b d s1
  | some (.wkLdh a b d) => execWkLdh a b d s1
  | some (.wkDone a b d) => execWkDone a b d s1
  | some (.wkFail a b d) => execWkFail a b d s1
  | some (.wkInv a b d) => execWkInv a b d s1
  | some (.wkChn a b d) => execWkChn a b d s1
  | _ => rvStep s1 t

/-- A routine runs to its wk.done or wk.fail; one that needs more than n instructions is stopped (R53). -/
def runRoutine (t : TowerId) : Nat → State → State
  | 0, s => failRequest s t 0x1003
  | n + 1, s =>
    if (s.tower t).walker.running then
      match walkerStep s t with
      | .next s1 => runRoutine t n s1
      | _ => failRequest s t 0x1001
    else s

/-- The routine of a request begins (R54). -/
def startRoutine (s : State) (t : TowerId) (r : WalkReq) (entry : Nat) : State :=
  let k := (s.tower t).walker
  s.setWalker t { k with cur := some r, running := true, pc := BitVec.ofNat 64 entry, x := routineRegs k.x r, since := s.clk }

/-- The byte offset of the routine at an entry word; 0, which is no routine, stands for the one that Rensyn supplies (R53, R54;
log 11). -/
def routineEntry (s : State) (t : TowerId) (i : Nat) : Nat := (storeWord s t (4 * i)).toNat

/-- The entry of the host page at va by the routine at entry word ROUT, V = 0 where it finds none (R54, R58). -/
def hostPage (s : State) (t : TowerId) (ctx : BitVec 16) (gen : BitVec 8) (rout : BitVec 8) (root va : Word) : BitVec 64 × State :=
  let entry := routineEntry s t rout.toNat
  if entry = 0 then (Config.hostWalk rout root va, s)
  else
    let w := (s.tower t).walker
    let r : WalkReq := { kind := 2, record := 0, ctx := ctx, gen := gen, a2 := va, a3 := 0, acc := 0, tag := w.nextTag, tid := 0,
                         core := none, dst := 0, entry := rout.toNat, unit := pageUnit, tile := 0, leaf := BitVec.allOnes 64 }
    let s1 := { runRoutine t 4096 (startRoutine s t r entry) with now := s.now }
    let e := match (s1.tower t).walked.find? fun x => x.unit = pageUnit with
      | some x => if x.code = 0 then x.tte else 0
      | none => 0
    let k := (s1.tower t).walker
    (e, dropWalked (s1.setWalker t { k with cur := w.cur, running := w.running, pc := w.pc }) t pageUnit)

/-! ### The pages of a handover (R58) -/

/-- Steps 3 and 4 of an acquire for the page at a: the status that ends it, if any (R58). -/
def acquirePage (t : TowerId) (v : View) (e : BitVec 128) (a : Word) (m : Moved) (s : State) : Option Code × Moved × State :=
  if rMigr e then
    let h := (hostPage s t v.ctx v.gen (rRout e) (rRoot e) a).1
    let s := (hostPage s t v.ctx v.gen (rRout e) (rRoot e) a).2
    if !bit h 63 then (some 0x1111, m, s)
    else match poolTake s t with
      | none => (some 0x1110, m, s)
      | some (f, s1) => movePage t v a h f { m with frames := f :: m.frames }
          (copyChunk s1 t (setBit (BitVec.ofNat 64 (tteFrame h * 65536)) 63 true) (BitVec.ofNat 64 (f * 65536)))
  else writeLeaves a (mkLeaf 3 (Config.hostLeaf a)) v.flatb (partTowers s v.ctx) m s

/-- The same for n pages from page p on; the first that fails ends them. -/
def acquirePages (t : TowerId) (v : View) (e : BitVec 128) : Nat → Nat → Moved → State → Option Code × Moved × State
  | 0, _, m, s => (none, m, s)
  | n + 1, p, m, s =>
    match acquirePage t v e (BitVec.ofNat 64 (p * 65536)) m s with
    | (some x, m1, s1) => (some x, m1, s1)
    | (none, m1, s1) => acquirePages t v e n (p + 1) m1 s1

/-- Step 5 of a release for page p (R58). R58 gives no failing outcome: a page whose copy fails, or for which the host page table
holds no mapping, leaves the host's bytes as far as the copy has come, and the release goes on (log 59). -/
def releasePage (t : TowerId) (v : View) (e : BitVec 128) (p : Nat) (s : State) : State :=
  let a := BitVec.ofNat 64 (p * 65536)
  match flatLevels s t a 3 v.flatb.toNat with
  | .ok l =>
    if bit l 63 && tteKind l = 2 then
      let u := towerNo (tteFrame l / 2 ^ 32)
      let f := tteFrame l % 2 ^ 21
      let h := hostPage s t v.ctx v.gen (rRout e) (rRoot e) a
      let s1 := if bit h.1 63 then
          (copyChunk h.2 u (BitVec.ofNat 64 (f * 65536)) (setBit (BitVec.ofNat 64 (tteFrame h.1 * 65536)) 63 true)).2
        else h.2
      let s2 := poolGive s1 u f
      (writeLeaves a (mkLeaf 3 (Config.hostLeaf a)) v.flatb (partTowers s2 v.ctx) { frames := [], leaves := [] } s2).2.2
    else s
  | _ => s

/-- Step 5 of a release for n pages from page p on (R58). -/
def releasePages (t : TowerId) (v : View) (e : BitVec 128) : Nat → Nat → State → State
  | 0, _, s => s
  | n + 1, p, s => releasePages t v e n (p + 1) (releasePage t v e p s)

/-! ### Service (R53, R54) -/

/-- Steps 1 and 2 of an acquire; 1 to 4 of a release (R57, R58). A release whose invalidation waits for the host link stays at the head
of the queue (R437). -/
def startHandover (s : State) (t : TowerId) (r : WalkReq) : State :=
  let v := reqView s t r
  let i := r.a2.toNat % 32
  let e := rangeEntry s v i
  let acquire := decide (r.kind = 3)
  if rOwn e = 3 then answerRange s t r 0x1103
  else if acquire && rOwn e = 0 then answerRange s t r 0
  else if !acquire && (rOwn e = 1 || rOwn e = 2) then answerRange s t r 0
  else if !acquire && invalidateWaits s r.ctx r.gen (inRange e) then
    s.setTower t { (s.tower t) with walker := { (s.tower t).walker with queue := r :: (s.tower t).walker.queue } }
  else
    let s1 := setOwner s v i 2
    let s2 := if acquire then s1
      else
        let dirty : State := (List.finRange 128).foldl (fun st c =>
          writeBackLines st c fun l => l.ctx = r.ctx && l.gen = r.gen) s1
        invalidate dirty r.ctx r.gen (inRange e)
    s2.setTower t { (s2.tower t) with handover := some { req := r, index := i, acquire := acquire, since := s.clk } }

/-- A request of a layout unit is answered by the walk of its tile, as the routines that Rensyn supplies do it (R46, R48, R54): a leaf of
a range that does not migrate goes on to the routine at ROUT (R58). -/
def serveTile (s : State) (t : TowerId) (r : WalkReq) : State :=
  let v := tileView s t r
  match (if r.kind = 0 then tensorWalk s v r.a2 r.tile else flatWalk s v r.a2) with
  | .ok e => if bit e 63 then answerTile s t r 0 e else answerTile s t r 0x1202 0
  | .fault x => answerTile s t r x 0
  | .transit | .miss => s
  | .host rout root va leaf =>
    let q : WalkReq := { r with kind := 2, a2 := va, a3 := 0, entry := rout.toNat, leaf := leaf }
    let entry := routineEntry s t rout.toNat
    if entry ≠ 0 then startRoutine s t q entry
    else
      let e := Config.hostWalk rout root va
      if bit e 63 then answerTile s t q 0 e else answerTile s t q 0x1005 0

/-- What the routine that Rensyn supplies for a request's kind does (R52, R54, R58). -/
def serveRequest (s : State) (t : TowerId) (r : WalkReq) : State :=
  if !ctxCurrent s r.ctx r.gen && r.kind ≠ 5 then s
  else match r.kind with
    | 3 => startHandover s t r
    | 4 => startHandover s t r
    | 5 => reportInvalidation (invalidate s r.ctx r.gen (selected r.a2)) t
    | _ => serveTile s t r

/-- The next request of tower t's walker is an invalidation that waits for the host link (R52, R437). -/
def walkerBlocked (s : State) (t : TowerId) : Bool :=
  match (s.tower t).walker.queue with
  | r :: _ => routineEntry s t r.entry = 0 && (
    (r.kind = 5 && invalidateWaits s r.ctx r.gen (selected r.a2))
      || (r.kind = 4 && ctxCurrent s r.ctx r.gen
        && invalidateWaits s r.ctx r.gen (inRange (rangeEntry s (reqView s t r) (r.a2.toNat % 32)))))
  | [] => false

/-- WALKER_REQUEST (R53, R54): the walker goes on with an RV64IMC instruction of its routine, or takes the next request in order of
arrival: the routine at its entry word runs; where the store holds none, what Rensyn's routine does is done here (log 11). -/
def execWalkerRequest (s : State) : Out :=
  let t := s.now.tower
  let w := s.tower t
  let k := w.walker
  if w.handover.isSome then .next s
  else if k.running then (if (walkerInstr s t).isSome then .next s else rvStep s t)
  else match k.queue with
    | [] => .next s
    | r :: rest =>
      let s1 := s.setWalker t { k with queue := rest }
      let entry := routineEntry s t r.entry
      .next (if entry ≠ 0 then startRoutine s1 t r entry
        else if walkerBlocked s t then s
        else serveRequest s1 t r)

/-- ROUTINE_TIMEOUT (R53, R399): a routine that runs for more than 4,096 clk is stopped. -/
def execRoutineTimeout (s : State) : Out := .next
  (let t := s.now.tower
   let k := (s.tower t).walker
   if k.running && decide (k.since + 4096 < s.clk) then failRequest s t 0x1003 else s)

/-! ### The host's answers (R58, R438) -/

/-- HOST_HANDOVER_ANSWER: value 1 refuses; any other lets the handover of the tower proceed. -/
def execHostHandoverAnswer (s : State) : Out := .next
  (let t := s.now.tower
   match (s.tower t).handover with
   | none => s
   | some h =>
     if s.now.value = 1 then endHandover s t h (if h.acquire then 1 else 0) 0x6011
     else
       let v := reqView s t h.req
       let e := rangeEntry s v h.index
       if h.acquire then
         match acquirePages t v e (rLen e) (rBase e) { frames := [], leaves := [] } s with
         | (none, m, s1) => endHandover (m.frames.foldl (fun st f => markMigrated st t f true) s1) t h 0 0
         | (some x, m, s1) =>
           let s2 := m.leaves.foldl (fun st l => writeWord st l.1 l.2) s1
           let s3 := m.frames.reverse.foldl (fun st f => poolGive st t f) s2
           endHandover (invalidate s3 h.req.ctx h.req.gen (inRange e)) t h 1 x
       else
         let s1 := if rMigr e then releasePages t v e (rLen e) (rBase e) s else s
         endHandover s1 t h 1 0)

/-- HANDOVER_TIMEOUT (R438): no answer within HTMO units of 1,024 clk. -/
def execHandoverTimeout (s : State) : Out := .next
  (let t := s.now.tower
   match (s.tower t).handover with
   | none => s
   | some h =>
     if s.clk < h.since + 1024 * max 1 (fld s.hub.htmo 0 32) then s
     else endHandover s t h (if h.acquire then 1 else 0) 0x6010)

end Sys2Proof.Machine
end

