-- ==== Sys2Proof/Machine/System.lean ====
section
/-! DEFINITION. What goes on beneath the programs: slices (R404), soft errors (R405), scrubs and telemetry (R372), parity
rotation (R373), thermal and power management (R370, R371), readiness and reset (R367, R368, R374). -/

namespace Sys2Proof.Machine

/-! ### Slices (R40, R404) -/

/-- A change of the slice map: the lines whose home moves leave L2, dirty ones written back, MAPV advances, and 0x2030 is recorded. What
stands at the homes, in the combining buffers and in the wait entries, stands by address and moves with them. -/
def changeSlice (s : State) (t : TowerId) (x : Nat) (retired : Bool) : State :=
  let w := s.tower t
  if bit w.retired x = retired then s
  else
    let map := setBit w.retired x retired
    let stays : L2Line → Bool := fun l => homeSlice w.retired (128 * l.line) = homeSlice map (128 * l.line)
    towerRecord (s.setTower t { w with retired := map, mapv := w.mapv + 1, l2 := w.l2.filter stays }) t 0x2030 (BitVec.ofNat 64 x)

/-- SLICE_RETIRE (R404): slice unit of the tower. -/
def execSliceRetire (s : State) : Out := .next (changeSlice s s.now.tower (s.now.unit % 32) true)
/-- SLICE_RESTORE (R404). -/
def execSliceRestore (s : State) : Out := .next (changeSlice s s.now.tower (s.now.unit % 32) false)

/-! ### Soft errors (R405) -/

/-- The statistics record of a soft error, at the core of the occasion. -/
def softRecord (s : State) (code : Code) : State := statRecord s s.now.core Config.softErrorSource.toNat code 0 0

/-- Bytes of a row of the scratchpad or of a macro half (R36, R114). -/
def rowBytes (key : Nat) : Nat := if key < 2 ^ 44 then 512 else 32

/-- The tower of a row's tier. -/
def rowTower (key : Nat) : TowerId :=
  if key < 2 ^ 44 then clusterTower (clusterNo (key / 2 ^ 25 % 2 ^ 18)) else towerOf (coreNo (key / 2 ^ 21 % 2 ^ 23))

/-- The lines of the core's L1 over the 128 bytes at home, changed. -/
def mapLine (s : State) (home : Nat) (f : L1Line → Option L1Line) : State :=
  s.setMe { s.me with l1 := s.me.l1.filterMap fun l => if l.home = home then f l else some l }

/-- A row of an array tier that is rebuilt (0x2101), or poisoned where its rebuild meets a second bad row or no parity
(0x2103). -/
def badRow (s : State) (second : Bool) : State :=
  let key := s.now.addr.toNat
  let t := rowTower key
  let w := (s.tower t).tiers
  if second || w.parity = 7 || w.failed.isSome then
    towerRecord (poisonRange s (key / rowBytes key * rowBytes key) (rowBytes key) 0x2103) t 0x2103 0
  else softRecord s 0x2101

/-- ECC_ERROR (R405): the event is unit; the place, as a memory key, stands in addr. 0 and 1 corrected errors, 2 a clean and 3 a
dirty line of the core's L1, 4 a dirty L2 line, 5 a DRAM word, 6 an entry of the tower's tile cache (its place in extra), 7 a
row of an array tier, 8 the same with a second bad row, 9 a lane row (its unit, row and lane in addr), 10 a clean L2 line of the
tower, which is dropped and refetched. -/
def execEccError (s : State) : Out := .next
  (let key := s.now.addr.toNat
   let home := key / 128 * 128
   match s.now.unit with
   | 0 => softRecord s 0x2001
   | 1 => softRecord s 0x2002
   | 2 => softRecord (mapLine s home fun l => if l.dirty = 0 then none else some l) 0x2010
   | 3 => mapLine s home fun l => if l.dirty = 0 then some l
       else some { l with bad := (List.range 16).map fun i => (i, (0x2011 : Code)) }
   | 4 => poisonRange s home 128 0x2011
   | 5 => poisonRange s (key / 8 * 8) 8 0x2012
   | 6 =>
     let w := s.tower s.now.tower
     softRecord (s.setTower s.now.tower { w with tiles := w.tiles.eraseIdx s.now.extra.toNat }) 0x2013
   | 7 => badRow s false
   | 8 => badRow s true
   | 10 =>
     let w := s.tower s.now.tower
     softRecord (s.setTower s.now.tower { w with l2 := w.l2.filter fun l => l.dirty || l.line ≠ key % 2 ^ 40 / 128 }) 0x2010
   | _ => { s with badLanes := sset false s.badLanes key true })

/-! ### Background work (R372) -/

/-- SRAM_SCRUB (R372, R405): value 1 when a parity row disagrees, which is recomputed. -/
def execSramScrub (s : State) : Out := .next (if s.now.value = 1 then softRecord s 0x2102 else s)
/-- DRAM_PATROL_SCRUB (R372): what it finds is an error event of its own. -/
def execDramPatrolScrub (s : State) : Out := .next s
/-- DRAM_REFRESH (R372): within the published figures. -/
def execDramRefresh (s : State) : Out := .next s
/-- TELEMETRY (R372): a fresh sample stands in BAR 0 (log 19). -/
def execTelemetry (s : State) : Out := .next (s.mapHub fun h => { h with telemetry := s.freeN })

/-! ### Parity rotation (R373, R421) -/

/-- Rotation may go on: a parity tier stands and no tier has failed. -/
def mayRotate (w : Tiers) : Bool := w.parity ≠ 7 && w.failed.isNone && w.down = 0

/-- PARITY_ROTATION_COPY: the contents of the next tier stand in the parity tier as well. -/
def execParityRotationCopy (s : State) : Out := .next
  (if mayRotate (s.tower s.now.tower).tiers then s.mapTiers s.now.tower fun w => { w with rotating := true } else s)

/-- PARITY_ROTATION_SWITCH: at a clk with no pass in flight the former parity tier takes the K position of the next tier, which
becomes parity; a deterministic partition defers it. -/
def execParityRotationSwitch (s : State) : Out := .next
  (let t := s.now.tower
   let w := (s.tower t).tiers
   let q : BitVec 3 := BitVec.ofNat 3 ((w.parity.toNat + 1) % 5)
   if w.rotating && mayRotate w && rolesFree s t then
     match kPosition w q with
     | some i => s.mapTiers t fun w => { w with map := w.map.setIfInBounds i w.parity, parity := q, rotating := false }
     | none => s
   else s)

/-! ### Heat and power -/

/-- A tier reaches 125 °C (R407, R419). -/
def shutDown (s : State) (t : TowerId) (p : BitVec 3) : State :=
  let w := (s.tower t).tiers
  if bit w.down p.toNat then s
  else match kPosition w p with
    | none => tierFail s t p 0x3001 (rennetSrc t)
    | some _ => restartPasses (tierFail (towerRecord s t 0x2110 (tierInfo t p)) t p 0x3002 (rennetSrc t)) t none

/-- Compute tiers of a tower, by physical number. -/
def computeTiers (w : Tiers) : List Nat := (List.range 5).filter fun p => (kPosition w (BitVec.ofNat 3 p)).isSome

/-- Pinned tiers that cross 112 °C (R418, R421). -/
def pinnedCrossings (s : State) (t : TowerId) (old new : Nat → Nat) : State :=
  if (detCores s t).isEmpty then s
  else (computeTiers (s.tower t).tiers).foldl (fun st p =>
    if old p < 112 && decide (112 ≤ new p) then towerRecord st t 0x3010 (tierInfo t (BitVec.ofNat 3 p)) else st) s

/-- The partition of an armed deterministic instance has cores in tower t (R160). -/
def detTower (s : State) (t : TowerId) : Bool :=
  (List.finRange 4).any fun u => (s.tower u).armed.any fun a => a.launch.det && decide (fld a.part (32 * t.val) 32 ≠ 0)

/-- The skip mark after a reading (R126, R421): no tier of a deterministic partition's towers is skipped (R160). -/
def settleSkip (s : State) (t : TowerId) (new : Nat → Nat) : State :=
  let w := (s.tower t).tiers
  let s1 := match w.skip with
    | some p => if new p.toNat < 105 then towerStat (s.mapTiers t fun x => { x with skip := none }) t 0x7002 else s
    | none => s
  let w1 := (s1.tower t).tiers
  if w1.skip.isSome || w1.failed.isSome || detTower s1 t then s1
  else match (computeTiers w1).find? fun p => decide (112 ≤ new p) && !bit w1.down p with
    | some p => towerStat (s1.mapTiers t fun x => { x with skip := some (BitVec.ofNat 3 p) }) t 0x7001
    | none => s1

/-- A change of one cause of tower pacing; the events report the pacing that is in force (R126, R370). -/
def setPacing (s : State) (t : TowerId) (f : Tiers → Tiers) : State :=
  let on (w : Tiers) : Bool := w.paced || w.powered
  let s1 := s.mapTiers t f
  let a := on (s.tower t).tiers
  let b := on (s1.tower t).tiers
  if a = b then s1 else towerStat s1 t (if b then 0x7003 else 0x7004)

/-- The reading of one tower (R371). -/
def readTower (s : State) (t : TowerId) (new : Nat → Nat) : State :=
  let w := (s.tower t).tiers
  let old : Nat → Nat := fun p => w.temp.toList.getD p 0
  let s0 := s.mapTiers t fun x => { x with temp := Vector.ofFn fun p : Fin 5 => new p.val }
  let s1 := (List.range 5).foldl (fun st p => if 125 ≤ new p then shutDown st t (BitVec.ofNat 3 p) else st) s0
  let s2 := settleSkip (pinnedCrossings s1 t old new) t new
  let w2 := (s2.tower t).tiers
  let hot := ((List.range 5).filter fun p => decide (112 ≤ new p) && !bit w2.down p).length
  setPacing s2 t fun x => { x with paced := decide (2 ≤ hot) || (w2.failed.isSome && decide (1 ≤ hot)) }

/-- THERMAL_READING (R371): the temperature of tier p of tower t is byte 5 × t + p of data. -/
def execThermalReading (s : State) : Out := .next
  ((List.finRange 4).foldl (fun st t => readTower st t fun p => (s.now.data.getD (5 * t.val + p) 0).toNat) s)

/-- POWER_PACING (R370): the 100 µs mean of the module power, less the reserved headroom, in W in value. -/
def execPowerPacing (s : State) : Out := .next
  (let p := s.now.value.toNat
   (List.finRange 4).foldl (fun st t => setPacing st t fun x =>
     { x with powered := if 3800 < p then true else if p < 3600 then false else x.powered }) s)

/-! ### Readiness (R367, R368) -/

def readyFW : Nat := 45
def readyHubch : Nat := 44
def readyCxl : Nat := 46
def readyPtime : Nat := 47

/-- The bits that bit n of READY requires (R368). -/
def readyAllowed (s : State) (n : Nat) : Bool :=
  let r := s.hub.ready
  let fw := bit r readyFW
  if n < 20 then bit r (32 + n / 5)
  else if n < 24 then fw
  else if n < 28 then bit r (28 + (n - 24)) && bit r (20 + (n - 24))
  else if n < 32 then bit r (32 + (n - 28))
  else if n < 36 then fw
  else if n < 40 then bit r (28 + (n - 36)) && bit r (20 + (n - 36))
  else if n < 44 then bit r (28 + (n - 40)) && bit r (20 + (n - 40))
  else if n = readyHubch then fw && (List.range 4).any fun t => bit r (20 + t)
  else if n = readyFW then s.hub.fwstat = 0
  else if n = readyCxl then fw
  else if n = readyPtime then bit s.hub.devid 17 || (List.range 16).any fun x => bit r (48 + x)
  else fw && ownId s ≠ 0xFFFF

/-- A tier map that names five tiers once each (R113). -/
def mapOk (d : List Byte) : Bool := d.length = 5 && (List.range 5).all fun p => d.contains (BitVec.ofNat 8 p)

/-- The tiles and lines of a tag leave every cache before the tag's generations begin again (R50). -/
def flushTag (s : State) (ctx : BitVec 16) : State :=
  let s1 := (List.finRange 128).foldl (fun st c =>
    let mine : L1Line → Bool := fun l => l.ctx = ctx
    dropLines (writeBackLines st c mine) c mine) s
  (List.finRange 4).foldl (fun st t => st.setTower t { (st.tower t) with
    tiles := (st.tower t).tiles.filter fun e => e.ctx ≠ ctx
    walked := (st.tower t).walked.filter fun e => e.ctx ≠ ctx }) s1

/-- The host link is up: the dirty host lines that L1s have held are written back, and a kill whose flush waited for it ends (R398,
R402, R437). -/
def linkUp (s : State) : State :=
  let s1 := (s.mapHub fun h => { h with cxlUp := true })
  let s2 := (List.finRange 128).foldl (fun st c => writeBackLines st c fun l => decide (hostKey 0 ≤ l.home)) s1
  if bit s2.hub.ckill 63 then
    (flushTag s2 (BitVec.ofNat 16 (fld s2.hub.ckill 8 16))).mapHub fun h => { h with ckill := 0 }
  else s2

/-- What firmware brings with a bit: CTXTB with FW, the tier map with L2, the routine store with WALK (R51, R53, R113, R374). -/
def firmwareBrings (s : State) (n : Nat) : State :=
  if n = readyFW then
    (s.mapHub fun h => { h with ctxtb := setFld s.now.value 0 24 0, digest := Config.firmwareDigest,
                                 fwver := Config.firmwareVersion })
  else if 32 ≤ n && n < 36 && mapOk s.now.data then
    let at_ (i : Nat) : BitVec 3 := BitVec.ofNat 3 (s.now.data.getD i 0).toNat
    s.mapTiers (towerNo (n - 32)) fun w => { w with map := #v[at_ 0, at_ 1, at_ 2, at_ 3], parity := at_ 4 }
  else if 36 ≤ n && n < 40 && !s.now.data.isEmpty then
    let t := towerNo (n - 36)
    let d := s.now.data.take 65536
    s.setTower t { (s.tower t) with
      store := (d.zip (List.range d.length)).foldl (fun m x => sset 0 m x.2 x.1) [], rslen := BitVec.ofNat 17 d.length }
  else if n = readyCxl then linkUp s
  else if n < 20 then calibrate s (towerNo (n / 5)) (n % 5)
  else if 20 ≤ n && n < 24 then s.setPort (n - 4) { (s.port (n - 4)) with up := true }
  else if 48 ≤ n then s.setPort (n - 48) { (s.port (n - 48)) with up := true }
  else s

/-- READY_BIT_SET (R367, R368): bit unit, with what firmware brings in value and data. -/
def execReadyBitSet (s : State) : Out := .next
  (let n := s.now.unit % 64
   if readyAllowed s n && !bit s.hub.ready n then firmwareBrings (s.setReady n true) n else s)

/-! ### Reset (R367, R374) -/

/-- RESET: the device takes its reset state, with nothing in its memories; the host's memory stands. A firmware check that fails,
with its cause in value, leaves FW at 0 (R374). -/
def execReset (s : State) : Out := .next
  { State.reset with
    mem := s.mem.filter fun e => decide (hostKey 0 ≤ e.1), poison := s.poison.filter fun e => decide (hostKey 0 / 8 ≤ e.1),
    freeN := s.freeN,
    hub := { State.reset.hub with
      fwstat := if s.now.value = 0 then 0 else BitVec.ofNat 64 (0x6040 + fld s.now.value 0 8 * 2 ^ 16) } }

end Sys2Proof.Machine
end

