-- ==== Sys2Proof/Machine/Links.lean ====
section
/-! DEFINITION. Gengilon at this device: links and their failures (R164, R429 to R434), ordered delivery (R171 to R176),
circuits (R178), receive rings (R179), pod time (R170), and the lockstep comparator (R161 to R163, R439). -/

namespace Sys2Proof.Machine

/-! ### Receive rings (R179) -/

/-- What a receive ring does with a packet. -/
inductive RingWrite where
  | written (s : State)
  | full (s : State)
  | discarded (s : State)

/-- 32-byte units to the flat view from an address on, at their homes; none where an address does not translate. -/
def writeUnits (v : View) (a : Word) : List (List Byte) → State → Option State
  | [], s => some s
  | u :: us, s => match flatKeyOf s v a with
    | (.ok key, s1) => writeUnits v (a + 32) us (writeBytes s1 key u)
    | (.error _, _) => none

/-- The 32-byte units of a packet, header first. -/
def packetUnits (p : Packet) : List (List Byte) :=
  let bs := leBytes 32 p.hdr.toNat ++ p.pay
  (List.range (1 + pLen p.hdr)).map fun i => (bs.drop (32 * i)).take 32

/-- A packet arrives at its ring (R179): the slot is written at home, then TAILC advances. -/
def ringWrite (s : State) (p : Packet) : RingWrite :=
  let q := pDrq p.hdr
  let e := recvEntry s q
  let discard (st : State) : RingWrite := .discarded (hubRecord st 0x5004 (BitVec.ofNat 64 (q + pSrc p.hdr * 2 ^ 16)))
  if !recvValid e || !ctxCurrent s (recvCtx e) (recvGen e) || decide (2 ^ recvSlog e < 32 + 32 * pLen p.hdr) then discard s
  else if 2 ^ recvNlog e ≤ recvCount s q then .full (countNak s q)
  else match writeUnits (ctxView s (lowTower s (recvCtx e)) (recvCtx e) (recvGen e)) (recvSlot e (recvTail s q)) (packetUnits p) s with
    | some s1 => .written (writeNat s1 (recvKey s q + 12) 4 (recvTail s q + 1))
    | none => discard s

/-- A packet of this device's own that its ring refuses later than its sender's window was answered: the record of R151. -/
def ownRefusal (s : State) (p : Packet) (code : Code) : State :=
  if pSrc p.hdr = ownId s && decide (pSep p.hdr < 128) then
    statRecord s (coreNo (pSep p.hdr)) 7 code 0 (BitVec.ofNat 128 (1 + 3 * 2 ^ 24 + pDrq p.hdr * 2 ^ 32))
  else s

/-! ### Lockstep (R161 to R163, R439) -/

/-- One bit of the CRC-64 of ECMA-182. -/
def crcBit (r : Word) (b : Bool) : Word :=
  if bit r 63 = b then r <<< 1 else (r <<< 1) ^^^ 0x42F0E1EBA9EA3693

def crcByte (r : Word) (b : Byte) : Word := [7, 6, 5, 4, 3, 2, 1, 0].foldl (fun x i => crcBit x (bit b i)) r

/-- The signature of the bytes of a frame; 0 for a frame without records (R162). -/
def signature (bs : List Byte) : Word := if bs.isEmpty then 0 else ~~~(bs.foldl crcByte (BitVec.allOnes 64))

/-- A record placed among others by SCLK, then core. -/
def insertRecord (r : Nat × CoreId × List Byte) : List (Nat × CoreId × List Byte) → List (Nat × CoreId × List Byte)
  | [] => [r]
  | x :: xs => if r.1 < x.1 || (r.1 = x.1 && decide (r.2.1.val < x.2.1.val)) then r :: x :: xs else x :: insertRecord r xs

/-- The bytes of frame f: its records by SCLK, core and program order. -/
def frameBytes (l : Lockstep) (flen f : Nat) : List Byte :=
  ((l.records.filter fun r => r.1 / 2 ^ flen = f).foldl (fun acc r => insertRecord r acc) []).flatMap fun r => r.2.2

/-- A lockstep event of frame f (R439): the hub reports it, and the cores of the partition end with FKIND 3. -/
def lockstepEvent (s : State) (l : Lockstep) (code : Code) (f : Nat) : State :=
  let s1 := faultRecord s 4 code l.ctx l.gen 137 0 (BitVec.ofNat 64 f)
  (List.finRange 128).foldl (fun st c => match (st.core c).run with
    | some r => if r.instKey = l.key then
        let s2 := undoBundle st c
        endWithFault s2 c (FaultInfo.plain 3 code 0 (s2.core c).lastc) else st
    | none => st) s1

/-- Lockstep instance l of the list stands as l1 from now on; one of which every frame has been compared leaves. -/
def setLockstep (s : State) (l l1 : Lockstep) : State :=
  let finished : Bool := match l1.last with | some n => decide (n < l1.frame) && l1.own.isEmpty | none => false
  (s.mapHub fun h => { h with lockstep := if finished then eraseFirst (fun x => x = l) h.lockstep
                                          else h.lockstep.map fun x => if x = l then l1 else x })

/-- The signatures of frame f, the device's own and its partner's, if both are there. -/
def bothSignatures (l : Lockstep) (f : Nat) : Option (Word × Word) :=
  match l.own.find? fun e => e.1 = f, l.partner.find? fun e => e.1 = f with
  | some x, some y => some (x.2, y.2)
  | _, _ => none

/-- l becomes l1, and frame f is compared if both of its signatures are there (R163). -/
def compareFrame (s : State) (l l1 : Lockstep) (f : Nat) : State :=
  match bothSignatures l1 f with
  | some (x, y) =>
    let s1 := setLockstep s l { l1 with own := l1.own.filter fun e => e.1 ≠ f, partner := l1.partner.filter fun e => e.1 ≠ f }
    if x = y then s1 else lockstepEvent s1 l1 0x8001 f
  | none => setLockstep s l l1

/-- The clks of SCLK that have passed for l, none before its T0 (R157). -/
def lockstepClock (s : State) (l : Lockstep) : Option Nat :=
  if s.hub.podTime.ult l.launch.t0 then none else some (s.hub.podTime - l.launch.t0).toNat

/-- The frame in progress has ended, and is one of the instance's (R157, R163). -/
def frameOver (s : State) (l : Lockstep) : Bool :=
  (match lockstepClock s l with
    | some n => decide ((l.frame + 1) * 2 ^ l.launch.flen.toNat ≤ n)
    | none => false)
  && (match l.last with | some n => decide (l.frame ≤ n) | none => true)

/-- LOCKSTEP_SIGNATURE_SEND (R163): the signature of a frame that has ended goes to the partner, with the instance's T0. -/
def execLockstepSignatureSend (s : State) : Out := .next
  (match s.hub.lockstep.find? fun l => frameOver s l with
   | none => s
   | some l =>
     let f := l.frame
     let sig := signature (frameBytes l l.launch.flen.toNat f)
     let l1 : Lockstep := { l with records := l.records.filter fun r => r.1 / 2 ^ l.launch.flen.toNat ≠ f, frame := f + 1,
                                   own := l.own ++ [(f, sig)] }
     let p := newPacket s { dst := l.launch.lpeer.toNat, drq := 4, unit := true, sep := 137, cls := 4, len := 1, tag := 0,
                            ctx := l.ctx, gen := l.gen }
       (leBytes 32 (f % 2 ^ 64 + sig.toNat * 2 ^ 64 + l.launch.t0.toNat * 2 ^ 128))
     compareFrame (sendPacket p.2 p.1) l l1 f)

/-- The signature of frame f arrives from device src for the instance with T0 t0: only its LPEER's counts (R161, R163). -/
def receiveSignature (s : State) (src : Nat) (t0 : Word) (f : Nat) (sig : Word) : State :=
  match s.hub.lockstep.find? fun l => l.launch.lpeer.toNat = src && l.launch.t0 = t0 with
  | none => s
  | some l => compareFrame s l { l with partner := l.partner ++ [(f, sig)] } f

/-- LOCKSTEP_SIGNATURE_RECEIVE (R163): the frame number in unit, the signature in value, T0 in addr, the sender in extra. -/
def execLockstepSignatureReceive (s : State) : Out := .next
  (receiveSignature s s.now.extra.toNat s.now.addr s.now.unit s.now.value)

/-- A frame whose partner signature is missing past its time (R163). -/
def missingFrame (s : State) (l : Lockstep) : Option Nat :=
  let n := 2 ^ l.launch.flen.toNat
  match lockstepClock s l with
  | some x => (l.own.find? fun e => decide ((e.1 + 1) * n + n + 8192 ≤ x)).map Prod.fst
  | none => none

/-- LOCKSTEP_SIGNATURE_TIMEOUT (R163, R439). -/
def execLockstepSignatureTimeout (s : State) : Out := .next
  (match s.hub.lockstep.findSome? fun l => (missingFrame s l).map fun f => (l, f) with
   | none => s
   | some (l, f) => lockstepEvent (setLockstep s l { l with own := l.own.filter fun e => e.1 ≠ f }) l 0x8002 f)

/-! ### Unordered packets -/

/-- A packet for a unit of the hub or a Rennet (R166, R181). -/
def deliverUnit (s : State) (p : Packet) : State :=
  let h := p.hdr
  if pDrq h < 4 then
    let t := towerNo (pDrq h)
    let o : Occasion := { Occasion.none with tower := t, unit := pSrc h, value := (pTag h).setWidth 64 }
    if pCls h = 0 then s.due .podRecordForward { o with extra := BitVec.ofNat 64 (pSep h % 4), data := p.pay.take 64 }
    else s.due .podRecordResponse { o with addr := BitVec.ofNat 64 (leNat (p.pay.take 2)) }
  else if pDrq h = 4 then
    receiveSignature s (pSrc h) (BitVec.ofNat 64 (leNat ((p.pay.drop 16).take 8))) (leNat (p.pay.take 8))
      (BitVec.ofNat 64 (leNat ((p.pay.drop 8).take 8)))
  else s

/-- A packet that a full ring has refused stands before this one of its flow, and the sender has still to offer it again (R149). -/
def behindRefused (s : State) (p : Packet) : Bool :=
  s.hub.refused.any fun h => sameFlow { hdr := h, pay := [] } p && pSeq h ≠ pSeq p.hdr

/-- A packet of the list can be passed on now: none of the same flow stands before it (R169); it goes to a unit, or to a ring that has
room or refuses it for good, or out on a port with room. One of this device's own waits for room in its ring. -/
def handleable (s : State) (before : List InPacket) (x : InPacket) : Bool :=
  let p := x.packet
  !(before.any fun q => sameFlow q.packet p)
    && (if pDst p.hdr ≠ ownId s then decide ((s.port (wayOut s p).1).waiting.length < 256)
        else pUnit p.hdr || pSrc p.hdr ≠ ownId s || (match ringWrite s p with | .full _ => false | _ => true))

/-- The place of the first packet that can be handled. -/
def nextInbound (s : State) : List InPacket → List InPacket → Option Nat
  | _, [] => none
  | before, p :: ps => if handleable s before p then some before.length else nextInbound s (before ++ [p]) ps

/-- A packet leaves the pool of its port, whose flit buffers are free again (R168). -/
def leavePool (s : State) (i : Nat) (x : InPacket) : State :=
  let s1 := (s.mapHub fun h => { h with inbound := h.inbound.eraseIdx i })
  if x.port < 20 then
    let p := s1.port x.port
    s1.setPort x.port { p with freed := setCredits p.freed x.chan (creditsOf p.freed x.chan + x.flits) }
  else s1

/-- A packet of another device is refused by its full ring: the sender is owed a NAK and offers it again with every later one
(R149, R179). -/
def refusePacket (s : State) (p : Packet) : State :=
  (s.mapHub fun h => { h with refused := p.hdr :: h.refused.filter fun x => !sameFlow { hdr := x, pay := [] } p })

/-- RECEIVE_RING_WRITE (R168, R179): the next packet goes to its ring, its unit or its port; a full ring refuses one of another device,
whose sender offers it again, and one of this device's own waits with a record. -/
def execReceiveRingWrite (s : State) : Out := .next
  (match nextInbound s [] s.hub.inbound with
   | none => match s.hub.inbound.find? fun x => pDst x.packet.hdr = ownId s with
     | none => s
     | some x => match ringWrite s x.packet with
       | .full s1 => ownRefusal s1 x.packet 0x5005
       | _ => s
   | some i => match s.hub.inbound.drop i with
     | [] => s
     | x :: _ =>
       let p := x.packet
       if pDst p.hdr ≠ ownId s then sendOut (leavePool s i x) p
       else if behindRefused s p then leavePool s i x
       else
         let back (st : State) : State := (st.mapHub fun h => { h with refused := h.refused.filter fun y => !sameFlow { hdr := y, pay := [] } p })
         if pUnit p.hdr then deliverUnit (leavePool s i x) p
         else match ringWrite s p with
           | .written s1 => back (leavePool s1 i x)
           | .discarded s1 => back (leavePool s1 i x)
           | .full s1 => refusePacket (leavePool s1 i x) p)

/-! ### Ordered delivery (R171 to R176) -/

/-- The stamps of the ordered packets of this device that a port of the domain has not sent yet (R174). -/
def unsentStamps (s : State) : List Word :=
  (((domainPorts s).flatMap fun x => (s.port x).waiting.map Prod.fst).filter fun p =>
    p.isOrdered && pSrc p.hdr = ownId s).map fun p => pStamp p.hdr

/-- D (R174). A port that is added to the domain may lower it (R369). -/
def deliveryMark (s : State) : Word := minTime s.hub.podTime (inputMarks s ++ unsentStamps s)

/-- An ordered packet enters the reorder buffer (R174), or is discarded below D, or below what has been delivered (R433; log 18). -/
def holdOrdered (s : State) (p : Packet) : State :=
  if (pStamp p.hdr).ult (deliveryMark s) || (pStamp p.hdr).ult s.hub.dmark then hubRecord s 0x5103 (pStamp p.hdr)
  else (s.mapHub fun h => { h with reorder := h.reorder ++ [p] })

/-- A packet is for this device, or for all of the domain (R172). -/
def forHere (s : State) (p : Packet) : Bool := pDst p.hdr = ownId s || pDst p.hdr = 0xFFFF

/-- The sequenced packet leaves: a broadcast on every domain port, any other on its route. -/
def sendOrdered (s : State) (p : Packet) : State :=
  if pDst p.hdr = 0xFFFF then (domainPorts s).foldl (fun st o => transmit st o p) s
  else if pDst p.hdr = ownId s then s
  else sendOut s p

/-- A sequenced packet for this device waits for its release (R174). -/
def awaitOrdered (s : State) (p : Packet) : State :=
  if forHere s p then (s.mapHub fun h => { h with reorder := h.reorder ++ [p] }) else s

/-- ORDERED_INJECT (R171): the oldest accepted packet takes PODTIME as its stamp, once pod time is ready, and goes to every
port of the domain, or to its destination (R172). -/
def execOrderedInject (s : State) : Out := .next
  (match s.hub.inject with
   | [] => s
   | q :: qs =>
     if !ptimeReady s then s
     else
       let p := q.stamped s.hub.podTime
       awaitOrdered (sendOrdered (s.mapHub fun h => { h with inject := qs }) p) p)

/-- The order of the key (STAMP, SRC, SEP, SEQ) (R174). -/
def keyNat (p : Packet) : Nat :=
  (((pStamp p.hdr).toNat * 2 ^ 16 + pSrc p.hdr) * 2 ^ 8 + pSep p.hdr) * 2 ^ 32 + pSeq p.hdr

/-- The packet with the least key. -/
def leastKey : List Packet → Option Packet
  | [] => none
  | p :: ps => match leastKey ps with
    | some q => if keyNat q < keyNat p then some q else some p
    | none => some p

/-- The packet that is delivered next: the least key, with STAMP below D. -/
def nextOrdered (s : State) : Option Packet :=
  match leastKey s.hub.reorder with
  | some p => if (pStamp p.hdr).ult (deliveryMark s) then some p else none
  | none => none

/-- ORDERED_DELIVER (R174, R176): a full ring stops ordered delivery until it has room. -/
def execOrderedDeliver (s : State) : Out := .next
  (match nextOrdered s with
   | none => s
   | some p =>
     let drop (st : State) : State :=
       (st.mapHub fun h => { h with reorder := eraseFirst (fun x => x = p) h.reorder, ringFull := false, dmark := pStamp p.hdr })
     if pUnit p.hdr then deliverUnit (drop s) p
     else match ringWrite s p with
       | .written s1 => drop s1
       | .discarded s1 => drop s1
       | .full s1 =>
         if s.hub.ringFull then s
         else ownRefusal (s1.mapHub fun h => { h with ringFull := true }) p 0x5007)

/-! ### Circuits (R178) -/

/-- CIRCUIT_SLOT_SEND: the first circuit packet whose slot has started leaves. -/
def execCircuitSlotSend (s : State) : Out := .next
  (match s.hub.circuits.find? fun x => decide (x.start ≤ s.hub.podTime.toNat) with
   | none => s
   | some x =>
     let s1 := (s.mapHub fun h => { h with circuits := eraseFirst (fun y => y = x) h.circuits })
     if pDst x.packet.hdr = ownId s1 then
       (s1.mapHub fun h => { h with arrived := h.arrived ++ [{ x with late := x.due.ult h.podTime }] })
     else transmitFirst s1 x.packet)

/-- A circuit packet may be written now. -/
def circuitDue (s : State) (x : Circuit) : Bool := !s.hub.podTime.ult x.due

/-- CIRCUIT_DELIVER: the packet is written at its delivery time; one that came later is written on arrival and reported. One of
this device's own that its ring refuses is sent again in the next revolution (R149). -/
def execCircuitDeliver (s : State) : Out := .next
  (match s.hub.arrived.find? fun x => circuitDue s x with
   | none => s
   | some x =>
     let s1 := (s.mapHub fun h => { h with arrived := eraseFirst (fun y => y = x) h.arrived })
     match ringWrite s1 x.packet with
     | .written s2 => if x.late then hubRecord s2 0x5006 (BitVec.ofNat 64 (x.slot % 256)) else s2
     | .discarded s2 => s2
     | .full s2 =>
       let s3 := ownRefusal s2 x.packet 0x5005
       if pSrc x.packet.hdr = ownId s then (s3.mapHub fun h => { h with circuits := h.circuits ++
         [{ x with start := s.hub.podTime.toNat / 1024 * 1024 + 1024 + 4 * x.slot,
                   due := x.due + BitVec.ofNat 64 (s.hub.podTime.toNat / 1024 * 1024 + 1024 + 4 * x.slot - x.start) }] })
       else s3)

/-! ### Flits (R164, R429) -/

/-- The packets that the bytes of a virtual channel hold whole, and the bytes that are left of the next one (R164, R166). -/
def parsePackets : Nat → List Byte → List Packet × List Byte
  | 0, bs => ([], bs)
  | n + 1, bs =>
    let h : BitVec 256 := BitVec.ofNat 256 (leNat (bs.take 32))
    if bs.length < 32 || bs.length < 32 + 32 * pLen h then ([], bs)
    else
      let r := parsePackets n (bs.drop (32 + 32 * pLen h))
      ({ hdr := h, pay := (bs.drop 32).take (32 * pLen h) } :: r.1, r.2)

/-- A watermark extended to the 64-bit value nearest PODTIME (R173). -/
def extendMark (s : State) (w : BitVec 40) : Word :=
  s.hub.podTime + BitVec.ofInt 64 ((w - s.hub.podTime.setWidth 40).toInt)

/-- What an accepted flit acknowledges leaves the retry buffer: the flits up to link sequence n. -/
def acknowledge (s : State) (x : Nat) (n : BitVec 12) : State :=
  let p := s.port x
  match p.retry.findIdx? fun f => f.seq = n with
  | some i => drainWaiting x 256 (s.setPort x { p with retry := p.retry.drop (i + 1), replays := 0 })
  | none => s

/-- The watermark of a flit (R173, R428). -/
def takeMark (s : State) (x : Nat) (w : BitVec 40) : State :=
  let p := s.port x
  let v := extendMark s w
  if p.hasIw && v.ult p.iw then hubRecord s 0x5102 0
  else s.setPort x { p with iw := v, hasIw := true }

/-- A packet from port x: an ordered one is held and goes on as the pod's tree says, a circuit packet is held until its
time, and the rest wait in the port's pool for their rings, units or ports. The delivery time and the slot of a circuit
packet stand in addr and in extra[7:0], since its header does not carry them. -/
def takePacket (s : State) (x chan : Nat) (p : Packet) : State :=
  let o := s.now
  let h := p.hdr
  if pCls h = 2 then
    let s1 := if pDst h = 0xFFFF then
        (domainPorts s).foldl (fun st y => if y ≠ x && Config.spread (BitVec.ofNat 16 (pSrc h)) x y then transmit st y p else st) s
      else if pDst h = ownId s then s else sendOut s p
    free (if forHere s p then holdOrdered s1 p else s1)
  else if pCls h = 5 && pDst h = ownId s then
    free (s.mapHub fun h => { h with arrived := h.arrived ++
      [{ slot := fld o.extra 0 8, start := 0, due := o.addr, late := o.addr.ult h.podTime, packet := p }] })
  else enterPool s x chan p
where
  /-- Its flit buffers are free at once. -/
  free (st : State) : State :=
    let q := st.port x
    st.setPort x { q with freed := setCredits q.freed chan (creditsOf q.freed chan + packetFlits p) }

/-- What a flit brings on its virtual channel (R164, R168): the bytes of its packet area, after those that the channel holds. -/
structure Arrival where
  chan : Nat
  bytes : List Byte
  packets : List Packet
  rest : List Byte

/-- The flit of the occasion: data holds its header, packet area of 224 bytes at most and nothing else; extra[13:8] is its channel. -/
def arrival (s : State) (x : Nat) : Arrival :=
  let chan := fld s.now.extra 8 6
  let old := match (s.port x).part.find? fun e => e.1 = chan with | some e => e.2 | none => []
  let bytes := (s.now.data.drop 16).take 224
  let r := parsePackets 8 (old ++ bytes)
  { chan := chan, bytes := bytes, packets := r.1, rest := r.2 }

/-- The flit buffers that port x's pool holds on dynamic channels (c below 32) or on escape channel c (R168). -/
def poolUsed (s : State) (x c : Nat) : Nat :=
  let same : Nat → Bool := fun d => if c < 32 then d < 32 else d = c
  ((s.hub.inbound.filter fun p => p.port = x && same p.chan).map InPacket.flits).sum
    + (((s.port x).part.filter fun e => same e.1).map fun e => (e.2.length + 223) / 224).sum

/-- The pool of port x has no buffer for the flit: 1,024, of which eight are held back for each class's escape channel, which no other
class uses (R168). A packet that stands in part on an escape channel streams on through its eight (log 18). -/
def noFlitRoom (s : State) (x : Nat) (a : Arrival) : Bool :=
  !a.bytes.isEmpty && (if a.chan < 32 then decide (1024 - 48 ≤ poolUsed s x a.chan)
    else decide (37 < a.chan)
      || (decide (8 ≤ poolUsed s x a.chan) && !(s.port x).part.any fun e => e.1 = a.chan))

/-- The ordered packets that a flit completes find no place in the reorder buffer (R176). -/
def noOrderedRoom (s : State) (ps : List Packet) : Bool :=
  let n := (ps.filter fun p => p.isOrdered && forHere s p).length
  decide (0 < n) && decide (2048 < s.hub.reorder.length + s.hub.inject.length + n)

/-- FLIT_RECEIVE (R164, R429): port unit, its header (sequence in [11:0], acknowledgement in [23:12], watermark in [63:24], credits in
[127:64]; log 18) and packet area in data, 1 in value where the CRC fails. A flit that is damaged or out of sequence is discarded, and so
is one that finds no flit buffer or whose ordered packet the reorder buffer refuses; a NAK names the expected sequence. -/
def execFlitReceive (s : State) : Out := .next
  (let o := s.now
   let x := o.unit % 20
   let p := s.port x
   let h : BitVec 128 := BitVec.ofNat 128 (leNat (o.data.take 16))
   let a := arrival s x
   if !p.up then s
   else if bit o.value 0 || fld h 0 12 ≠ p.rxSeq.toNat || noFlitRoom s x a || noOrderedRoom s a.packets then
     s.setPort x { p with nak := some p.rxSeq }
   else
     let part := p.part.filter fun e => e.1 ≠ a.chan
     let s1 := s.setPort x { p with rxSeq := p.rxSeq + 1, lastAccepted := s.clk, stalled := false, nak := none,
                                    credits := addCredits p.credits (BitVec.ofNat 64 (fld h 64 64)),
                                    part := if a.rest.isEmpty then part else (a.chan, a.rest) :: part }
     let s2 := drainWaiting x 256 (acknowledge s1 x (BitVec.ofNat 12 (fld h 12 12)))
     a.packets.foldl (fun st q => takePacket st x a.chan q) (takeMark s2 x (BitVec.ofNat 40 (fld h 24 40))))

/-- The core's record of an ordered packet of this device that a full reorder buffer behind the link has refused (R176, R428). -/
def refusedOrdered (s : State) (x : Nat) (n : BitVec 12) : State :=
  match (s.port x).retry.find? fun f => f.seq = n with
  | some f => match f.packet with
    | some q => if q.isOrdered then ownRefusal s q 0x5007 else s
    | none => s
  | none => s

/-- LINK_NAK_RECEIVE (R429 to R431): the flit whose link sequence is in value[11:0], and every later one, is sent again unchanged;
the eighth consecutive replay of one flit takes the port down. value[12] tells that a full reorder buffer has refused it (R176). -/
def execLinkNakReceive (s : State) : Out := .next
  (let x := s.now.unit % 20
   let p := s.port x
   let n : BitVec 12 := BitVec.ofNat 12 (fld s.now.value 0 12)
   if !p.up || !(p.retry.any fun f => f.seq = n) then s
   else
     let k := if p.replays ≠ 0 && p.replayed = n then p.replays + 1 else 1
     let total := fld p.err 0 32
     let s0 := if bit s.now.value 12 then refusedOrdered s x n else s
     let s1 := s0.setPort x { p with replays := k, replayed := n, lastSent := s.clk,
                                     err := if total + 1 < 2 ^ 32 then setFld p.err 0 32 (total + 1) else p.err }
     if 8 ≤ k then s1.due .portDown { Occasion.none with unit := x } else s1)

/-- BEACON_SEND (R173): an output that has sent nothing for 500 clk sends its watermark. -/
def execBeaconSend (s : State) : Out := .next
  (let x := s.now.unit % 20
   let p := s.port x
   if p.up && decide (p.lastSent + 500 ≤ s.clk) && decide (p.retry.length < 256) then sendFlit s x none 0 0 else s)

/-! ### Ports (R430 to R433) -/

/-- INFO of a port's record (R428): a Gengilon port, or the on-package link of a tower. -/
def portInfo (x : Nat) : Word := if x < 16 then BitVec.ofNat 64 x else BitVec.ofNat 64 (2 ^ 8 + (x - 16) * 2 ^ 4)

/-- The bit of READY for a port: GPORT or PKG (R367). -/
def portBit (x : Nat) : Nat := if x < 16 then 48 + x else 20 + (x - 16)

/-- PORT_DOWN (R431): port unit; what it holds is kept. -/
def execPortDown (s : State) : Out := .next
  (let x := s.now.unit % 20
   let p := s.port x
   if !p.up then s
   else
     let n := fld p.err 32 16
     let s1 := s.setPort x { p with up := false, replays := 0,
                                    err := if n + 1 < 2 ^ 16 then setFld p.err 32 16 (n + 1) else p.err }
     hubRecord (s1.setReady (portBit x) false) 0x5002 (portInfo x))

/-- PORT_TRAINED (R175, R368, R431): port unit, with Lhop in value; no Gengilon port trains while the device has no
identifier. What is not acknowledged is sent again. -/
def execPortTrained (s : State) : Out := .next
  (let x := s.now.unit % 20
   let p := s.port x
   if p.up || !readyAllowed s (portBit x) then s
   else
     let s1 := s.setPort x { p with up := true, lhop := BitVec.ofNat 64 (2 ^ 12 + fld s.now.value 0 12), lastSent := s.clk }
     drainWaiting x 256 (s1.setReady (portBit x) true))

/-- PORT_TRAINING_TIMEOUT (R431). -/
def execPortTrainingTimeout (s : State) : Out := .next
  (let x := s.now.unit % 20
   if (s.port x).up then s else hubRecord s 0x5003 (portInfo x))

/-- A port whose watermark stalls and is not yet reported (R432). -/
def stalledPort (s : State) (x : Nat) : Bool :=
  bit s.hub.domain x && !(s.port x).stalled && decide ((s.port x).lastAccepted + 2000 ≤ s.clk)

/-- WATERMARK_STALL (R432): once per stall. -/
def execWatermarkStall (s : State) : Out := .next
  (let x := s.now.unit % 16
   if stalledPort s x then hubRecord (s.setPort x { (s.port x) with stalled := true }) 0x5101 0 else s)

/-- A packet has stood in an input port's pool for 2^20 clk, and this has not been reported (R428). -/
def heldLong (s : State) (x : InPacket) : Bool := !x.told && decide (x.port < 20) && decide (x.since + 2 ^ 20 ≤ s.clk)

/-- PACKET_HELD_TIMEOUT (R428, R435): of the first such packet. -/
def execPacketHeldTimeout (s : State) : Out := .next
  (match s.hub.inbound.find? fun x => heldLong s x with
   | some x => hubRecord (s.mapHub fun h => { h with inbound := h.inbound.map fun y => if y = x then { y with told := true } else y }) 0x5011 0
   | none => s)

/-! ### Pod time (R170, R434) -/

/-- POD_TIME_SLEW (R170): a count is added (value 1), or the next clk omits one (value 0), at most one in 4,096 clk; pod time never
falls. -/
def execPodTimeSlew (s : State) : Out := .next
  (if s.clk < s.hub.slewClk + 4096 then s
   else if s.now.value = 1 then (s.mapHub fun h => { h with podTime := h.podTime + 1, slewClk := s.clk })
   else (s.mapHub fun h => { h with omitNext := true, slewClk := s.clk }))

/-- POD_TIME_DRIFT (R434). -/
def execPodTimeDrift (s : State) : Out := .next
  (if ptimeReady s then hubRecord (s.setReady 47 false) 0x5104 0 else s)

end Sys2Proof.Machine
end

