-- ==== Sys2Proof/Machine/Manage.lean ====
section
/-! DEFINITION. The host at this device: its link (R437), its accesses to device memory (R59, R182), and the registers of the
management space (R186) with what a write to each does. A write comes with its offset in addr and its value in value; extra is 0
for an aligned access of 8 bytes. -/

namespace Sys2Proof.Machine

/-! ### The CXL link -/

/-- CXL_LINK_DOWN (R437). -/
def execCxlLinkDown (s : State) : Out := .next
  (let s1 := s.setReady readyCxl false
   hubRecord (s1.mapHub fun h => { h with cxlUp := false }) 0x6001 0)

/-- The place of an outstanding load is in host memory. -/
def hostLoad (l : Load) : Bool :=
  match l.data with
  | .element p _ _ _ => tteKind p.tte = 3
  | .row _ _ ls => ls.any fun x => tteKind x.2.1.tte = 3
  | .descriptor p _ => tteKind p.tte = 3
  | .word _ => false

/-- The code of a completion that fails: value 0, none came in time; 1, it brought an error or poison (R428). -/
def completionCode (s : State) : Code := if s.now.value = 1 then 0x6002 else 0x6001

/-- CXL_COMPLETION_TIMEOUT (R428, R437): extra 0, the oldest outstanding load of the core from host memory fails as an
uncorrectable error; 1, the copy that runs on the channel in unit stops; 2, the routine of the tower's walker that reads host
memory fails. -/
def execCxlCompletionTimeout (s : State) : Out := .next
  (let x := completionCode s
   let s1 := hubRecord s x 0
   match s1.now.extra.toNat with
   | 0 => match s1.me.loads.find? hostLoad with
     | some l =>
       let vec := match l.data with | .row _ _ _ => true | _ => false
       loadFault (s1.setMe { s1.me with loads := eraseFirst (fun x => x = l) s1.me.loads }) l x vec
     | none => s1
   | 1 =>
     let d := Dest4.ofCode s1.now.unit
     let ch := s1.churnChan d
     match ch.running with
     | some cp => if cp.ended then s1
         else s1.setChurnChan d { ch with running := some { cp with ended := true, hold := false, status := 0x4011, fcode := x } }
     | none => s1
   | _ => if (s1.tower s1.now.tower).walker.running then failRequest s1 s1.now.tower x else s1)

/-- HOST_CXL_MEM_ACCESS (R59, R182, R406): value 0 reads extra bytes of the tower's DRAM at addr, 1 writes data there. An access
to a frame of a range with OWN = 0 is reported; what a store does there is open (log 26). -/
def execHostCxlMemAccess (s : State) : Out := .next
  (let o := s.now
   let key := dramKey o.tower o.addr.toNat
   let n := if o.value = 1 then o.data.length else o.extra.toNat
   let s := flushRange s o.tower key n
   let given := s.migrated.any fun e => decide (key / 65536 ≤ e.1) && decide (e.1 ≤ (key + n - 1) / 65536)
   if dramBytes < o.addr.toNat + n || n = 0 then s
   else if o.value = 1 then
     if given then
       hubRecord (writeBytes s key ((List.range n).map fun i => Config.hostByte (s.freeN * 2 ^ 48 + key + i))) 0x6020 0
     else writeBytes s key o.data
   else if given then hubRecord s 0x6020 0 else s)

/-! ### Discarded writes -/

/-- A write that is discarded and logged (R184, R186). -/
def discardWrite (s : State) : State := hubRecord s 0x6030 s.now.addr

/-- An access to the management space, at its offset. An access of another size or alignment than 8 bytes, a host read among them, comes
with an extra that is not 0, and is discarded and logged (R186). An aligned read is what mgmtRead gives, and changes nothing. -/
def mgmtAccess (s : State) (f : Nat → Word → State) : State :=
  if s.now.extra ≠ 0 || s.now.addr.toNat % 8 ≠ 0 then discardWrite s else f s.now.addr.toNat s.now.value

/-- x lies in the n registers of 8 bytes from lo on. -/
def inRegs (x lo n : Nat) : Bool := decide (lo ≤ x) && decide (x < lo + 8 * n)

/-! ### Registers without behaviour of their own -/

/-- The bits of a write that are kept; a non-zero reserved bit is ignored (R8). -/
def kept (v : Word) (mask : Word) : Word := v &&& mask

/-- One half of RINGV i (R186). -/
def writeRingv (s : State) (x : Nat) (v : Word) : State :=
  let i := (x - 0x4000) / 16
  let old := sget 0 s.hub.ringv i
  let new : BitVec 128 := if x % 16 = 0 then setFld old 0 64 (kept v 0xFFFFFFFFFFFFFFE1).toNat
    else setFld old 64 64 (kept v 0x307FF).toNat
  (s.mapHub fun h => { h with ringv := sset 0 h.ringv i new })

/-- CURDLS of die d of tower t, before the curd units are in service (R332, R367). -/
def writeCurdls (s : State) (n : Nat) (v : Word) : State :=
  let t := towerNo (n / 12)
  if bit s.hub.ready (24 + t.val) then s
  else s.setTower t { (s.tower t) with
    curdLs := (s.tower t).curdLs.setIfInBounds (n % 12) (BitVec.ofNat 3 (min 4 (fld v 0 3))) }

/-- A binding of a Churn channel. -/
def writeBinding (s : State) (d : Dest4) (v : Word) : State :=
  s.setChurnChan d { (s.churnChan d) with binding := kept v 0x1FFFFFF }

/-- A register of tower t. -/
def writeTower (s : State) (n : Nat) (f : Tower → Tower) : State := s.setTower (towerNo n) (f (s.tower (towerNo n)))

/-- The registers that a write merely changes (R186); an offset that is not listed, or is read only, ignores it. -/
def mgmtStore (s : State) (x : Nat) (v : Word) : State :=
  if x = 0x8 then (s.mapHub fun h => { h with devid := kept v 0x2FFFF })
  else if x = 0x18 then (s.mapHub fun h => { h with rqtb := kept v 0xFFFFFFFFFFFFE000 })
  else if inRegs x 0x100 5 then (s.mapHub fun h => { h with fq := h.fq.setIfInBounds ((x - 0x100) / 8) v })
  else if inRegs x 0x140 5 then (s.mapHub fun h => { h with fqvec := h.fqvec.setIfInBounds ((x - 0x140) / 8) (kept v 0xFFF) })
  else if x = 0x500 then (s.mapHub fun h => { h with htmo := kept v 0xFFFFFFFF })
  else if x = 0x600 then (s.mapHub fun h => { h with ctxsel := kept v 0xFFFF })
  else if x = 0x610 then (s.mapHub fun h => { h with invctx := kept v 0xFFFFFF })
  else if inRegs x 0x700 4 then writeTower s ((x - 0x700) / 8) fun w => { w with curdDir := kept v 0xFFFFFFFFFFFE0000 }
  else if inRegs x 0x800 48 then writeCurdls s ((x - 0x800) / 8) v
  else if inRegs x 0xC00 64 then
    writeBinding s { kind := 2, unit := (x - 0xC00) / 128, chan := (x - 0xC00) / 8 % 16 } v
  else if inRegs x 0xE00 4 then writeTower s ((x - 0xE00) / 8) fun w => { w with armb := kept v 0x1FFFFFF }
  else if inRegs x 0x1000 512 && (x - 0x1000) / 8 % 16 ≠ 15 then
    writeBinding s { kind := 1, unit := (x - 0x1000) / 128, chan := (x - 0x1000) / 8 % 16 } v
  else if inRegs x 0x4000 512 then writeRingv s x v
  else if inRegs x 0x5100 4 then writeTower s ((x - 0x5100) / 8) fun w => { w with mpool := kept v 0xFFFFFFFFFFFFE000 }
  else if inRegs x 0x6000 4 then (s.mapHub fun h => { h with attn := setFld h.attn (8 * (x - 0x6000)) 64 v.toNat })
  else s

/-- MGMT_REGISTER_WRITE (R186). -/
def execMgmtRegisterWrite (s : State) : Out := .next (mgmtAccess s fun x v => mgmtStore s x v)

/-! ### The context window (R51) -/

/-- The bits of word i of a context entry that a window write changes: not GEN, and no reserved bit. -/
def ctxMask (i : Nat) : Word :=
  if i = 0 then 0xF0300 else if i = 1 || 11 ≤ i then 0 else BitVec.allOnes 64

/-- CTXWIN_WRITE (R51): a word of the entry of the tag in CTXSEL. Copies that the Rennets keep are dropped (R139); every other unit
reads the entry where it stands. -/
def execCtxwinWrite (s : State) : Out := .next
  (mgmtAccess s fun x v =>
    if inRegs x 0x10000 32 then
      let i := (x - 0x10000) / 8
      let key := ctxEntryKey s (BitVec.ofNat 16 (fld s.hub.ctxsel 0 16)) + 8 * i
      if ctxMask i = 0 then s
      else
        let tag := BitVec.ofNat 16 (fld s.hub.ctxsel 0 16)
        let s1 := { s with towers := s.towers.map fun w => { w with ctxKept := w.ctxKept.filter fun x => x ≠ tag } }
        writeWord s1 key ((readWord s key &&& ~~~ctxMask i) ||| (v &&& ctxMask i))
    else s)

/-! ### Invalidation by the host (R52, R186) -/

/-- INVSEL_WRITE: a request of kind 5 to the walker of every tower of the context. -/
def execInvselWrite (s : State) : Out := .next
  (mgmtAccess s fun x v =>
    let ctx : BitVec 16 := BitVec.ofNat 16 (fld s.hub.invctx 8 16)
    let gen : BitVec 8 := BitVec.ofNat 8 (fld s.hub.invctx 0 8)
    if x ≠ 0x618 then s
    else if bit s.hub.invsel 47 || !ctxCurrent s ctx gen then discardWrite s
    else
      let sel := kept v 0xFFFF000000FFFFFF
      let ptw := ctxTowers s ctx
      let s1 := (s.mapHub fun h => { h with invsel := setBit sel 47 (ptw ≠ 0), invLeft := ptw })
      let r : WalkReq := { kind := 5, record := 0, ctx := ctx, gen := gen, a2 := sel, a3 := 0, acc := 0, entry := 5, unit := 0, tile := 0, leaf := 0, tag := 0,
                           tid := BitVec.ofNat 16 (fld sel 48 16), core := none, dst := 0 }
      (partTowers s ctx).foldl (fun st t => st.askWalker t r) s1)

/-! ### Killing a context (R397, R398) -/

/-- What Engines and slices hold of a context goes (R398, steps 3 and 4). -/
def dropElements (s : State) (ctx : BitVec 16) (gen : BitVec 8) : State :=
  let s1 := dropCopies s fun r => r.ctx = ctx && r.gen = gen
  (List.finRange 4).foldl (fun st t =>
    let w := st.tower t
    let k := w.walker
    st.setTower t { w with
      queries := w.queries.filter fun q => !(q.ctx = ctx && q.gen = gen)
      walker := { k with queue := k.queue.filter fun r => !(r.ctx = ctx && r.gen = gen) || r.kind = 5 } }
      |> fun st2 => leaveWaiters st2 t fun x => x.ctx = ctx && x.gen = gen) s1

/-- Sync objects that the tag holds and others wait for are cleared and granted (R72, R398 step 4). -/
def clearHeld (s : State) (ctx : BitVec 16) : State :=
  (List.finRange 4).foldl (fun st t =>
    ((st.tower t).syncs.map SyncWait.key).foldl (fun st2 key =>
      let w := readWord st2 key
      if syncHeld w && syncCtx w = ctx && ((st2.tower t).syncs.any fun x => x.key = key && x.ctx ≠ ctx) then
        grantWaiters t key (st2.tower t).syncs.length (writeWord st2 key (syncClear w))
      else st2) st) s

/-- Each armed instance of the tag takes STATE 3 with its record (R398 step 5). -/
def killInstances (s : State) (ctx : BitVec 16) (gen : BitVec 8) : State :=
  (List.finRange 4).foldl (fun st t =>
    let mine : Armed → Bool := fun a => a.ctx = ctx && a.gen = gen
    let out := (st.tower t).armed.filter mine
    let s1 := out.foldl (fun st2 a =>
      let s2 := setHeaderState st2 a.hdrKey 3
      let s3 := if headerFault s2 a.hdrKey = 0 then setHeaderFault s2 a.hdrKey 0x0231 else s2
      faultRecord s3 t.val 0x0231 ctx gen (rennetSrc t) a.hdr 0) st
    disarm s1 t mine) s

/-- The steps of R398. While the flush of R50 waits for the host link, BUSY stands (R402, R437). -/
def killContext (s : State) (ctx : BitVec 16) (gen : BitVec 8) : State :=
  let s1 := writeByte s (ctxEntryKey s ctx) (gen + 1)
  let s2 := stopRecords s1 fun _ c g => c = ctx && g = gen
  let s3 := clearHeld (dropElements s2 ctx gen) ctx
  let s4 := killInstances s3 ctx gen
  if gen ≠ 255 then s4
  else if waitsForLink s4 (List.finRange 128) fun l => l.ctx = ctx then
    (s4.mapHub fun h => { h with ckill := setFld (setBit 0 63 true) 8 16 ctx.toNat })
  else flushTag s4 ctx

/-- CKILL_WRITE (R397): a stale GEN or a non-zero reserved bit discards it. -/
def execCkillWrite (s : State) : Out := .next
  (mgmtAccess s fun x v =>
    let ctx : BitVec 16 := BitVec.ofNat 16 (fld v 8 16)
    let gen : BitVec 8 := BitVec.ofNat 8 (fld v 0 8)
    if x ≠ 0x200 then s
    else if fld v 24 39 ≠ 0 || bit s.hub.ckill 63 || ctxGen s ctx ≠ gen then hubRecord s 0x6031 0
    else killContext s ctx gen)

/-! ### The ordered domain (R172, R369, R433) -/

/-- DOMAIN_WRITE: a port that leaves drops out of the minimum of R173, one that joins brings the watermark it has received. -/
def execDomainWrite (s : State) : Out := .next
  (mgmtAccess s fun x v => if x = 0x10 then (s.mapHub fun h => { h with domain := kept v 0xFFFF }) else s)

/-! ### Keys (R417) -/

/-- Frames written under the old key of a slot no longer read as they did. -/
def loseFrames (s : State) (slot : Nat) : State :=
  (s.sealed.filter fun e => e.2 = slot + 1).foldl (fun st e =>
    writeBytesRaw st (e.1 * 65536) ((List.range 65536).map fun i => Config.deciphered (s.freeN * 2 ^ 64 + e.1 * 65536 + i))) s

/-- KEY_WRITE: word 0 clears LOADED, word 7 sets it. -/
def execKeyWrite (s : State) : Out := .next
  (mgmtAccess s fun x v =>
    if inRegs x 0x2400 256 then
      let slot := (x - 0x2400) / 64
      let i := x / 8 % 8
      let old := s.hub.keys.toList.getD slot 0
      let new := setFld old (64 * i) 64 v.toNat
      let st := if i = 0 then setBit s.hub.keyst slot false else if i = 7 then setBit s.hub.keyst slot true else s.hub.keyst
      let s1 := (s.mapHub fun h => { h with keys := h.keys.setIfInBounds slot new, keyst := st })
      if new = old then s1 else loseFrames s1 slot
    else s)

/-! ### Debug (R241) -/

/-- DBGC_GO: the stopped core goes on. -/
def execDbgcGo (s : State) : Out := .next
  (mgmtAccess s fun x v =>
    if inRegs x 0x3000 128 && bit v 1 then
      let c := coreNo ((x - 0x3000) / 8)
      s.setCore c { (s.core c) with stopped := false }
    else s)

/-! ### The routine store (R53, R186) -/

/-- RSLEN_WRITE: LEN only rises. -/
def execRslenWrite (s : State) : Out := .next
  (mgmtAccess s fun x v =>
    if inRegs x 0x5000 4 then writeTower s ((x - 0x5000) / 8) fun w =>
      if w.rslen.toNat < fld v 0 17 then { w with rslen := BitVec.ofNat 17 (fld v 0 17) } else w
    else s)

/-- Half of a window write, 4 bytes at an offset of the store: it lands at or above LEN, or in an entry word that is 0; an entry
word that stands as written stays. -/
def halfAllowed (s : State) (t : TowerId) (off v : Nat) : Bool :=
  let old := (storeWord s t off).toNat
  decide ((s.tower t).rslen.toNat ≤ off) || (decide (off < 1024) && (old = 0 || old = v))

/-- ROUTINE_STORE_WRITE. -/
def execRoutineStoreWrite (s : State) : Out := .next
  (mgmtAccess s fun x v =>
    if inRegs x 0x100000 32768 then
      let t := towerNo ((x - 0x100000) / 65536)
      let off := x % 65536
      if halfAllowed s t off (fld v 0 32) && halfAllowed s t (off + 4) (fld v 32 32) then
        s.setTower t { (s.tower t) with
          store := (List.range 8).foldl (fun m i => sset 0 m (off + i) (BitVec.ofNat 8 (fld v (8 * i) 8))) (s.tower t).store }
      else discardWrite s
    else s)

/-! ### Attestation (R375) -/

/-- The bytes that a report signs: nonce, digest, version, the digest of the routine store, READY. -/
def reportBody (s : State) : List Byte :=
  leBytes 32 s.hub.attn.toNat ++ leBytes 48 s.hub.digest.toNat ++ leBytes 4 s.hub.fwver.toNat
    ++ sha384 ((List.range 65536).map fun i => sget 0 (s.tower 0).store i)
    ++ leBytes 4 (fld s.hub.ready 32 32) ++ leBytes 4 (fld s.hub.ready 0 32)

/-- ATTGO_WRITE: a report over ATTN. -/
def execAttgoWrite (s : State) : Out := .next
  (mgmtAccess s fun x v =>
    if x = 0x6020 && bit v 0 then
      let b := reportBody s
      (s.mapHub fun h => { h with attDone := true, attRep := b ++ leBytes 96 (Config.signature b).toNat })
    else s)

/-! ### Link errors (R430) -/

/-- PORTERR_CLEAR: a 1 in any bit of a field clears the field. -/
def execPorterrClear (s : State) : Out := .next
  (mgmtAccess s fun x v =>
    if inRegs x 0x400 20 then
      let p := (x - 0x400) / 8
      let e := (s.port p).err
      let e1 := if fld v 0 32 = 0 then e else setFld e 0 32 0
      s.setPort p { (s.port p) with err := if fld v 32 16 = 0 then e1 else setFld e1 32 16 0 }
    else s)

/-! ### What the host reads (R186) -/

/-- PORTERR, LHOP and the other registers as a host read of BAR 0 finds them; an offset that is not listed, or write only, reads
zero; an HTMO of 0 reads as 1 (R438). -/
def mgmtRead (s : State) (x : Nat) : Word :=
  let h := s.hub
  let tow (lo : Nat) : Tower := s.tower (towerNo ((x - lo) / 8))
  if x = 0 then h.ready
  else if x = 0x8 then h.devid
  else if x = 0x10 then h.domain
  else if x = 0x18 then h.rqtb
  else if x = 0x20 then h.ctxtb
  else if x = 0x28 then h.fwstat
  else if inRegs x 0x100 5 then h.fq.toList.getD ((x - 0x100) / 8) 0
  else if inRegs x 0x140 5 then h.fqvec.toList.getD ((x - 0x140) / 8) 0
  else if x = 0x200 then kept h.ckill 0x8000000000000000
  else if inRegs x 0x300 4 then (tow 0x300).retired.setWidth 64 <<< 8 ||| (tow 0x300).mapv.setWidth 64
  else if inRegs x 0x400 20 then (s.port ((x - 0x400) / 8)).err
  else if x = 0x500 then (if fld h.htmo 0 32 = 0 then 1 else h.htmo)
  else if x = 0x600 then h.ctxsel
  else if x = 0x610 then h.invctx
  else if x = 0x618 then h.invsel
  else if inRegs x 0x700 4 then (tow 0x700).curdDir
  else if inRegs x 0x800 48 then
    ((s.tower (towerNo ((x - 0x800) / 96))).curdLs.toList.getD ((x - 0x800) / 8 % 12) 0).setWidth 64
  else if inRegs x 0xA00 20 then (s.port ((x - 0xA00) / 8)).lhop
  else if inRegs x 0xC00 64 then
    (s.churnChan { kind := 2, unit := (x - 0xC00) / 128, chan := (x - 0xC00) / 8 % 16 }).binding
  else if inRegs x 0xE00 4 then (tow 0xE00).armb
  else if inRegs x 0x1000 512 && (x - 0x1000) / 8 % 16 ≠ 15 then
    (s.churnChan { kind := 1, unit := (x - 0x1000) / 128, chan := (x - 0x1000) / 8 % 16 }).binding
  else if inRegs x 0x2000 32 then (BitVec.ofBool (bit h.keyst ((x - 0x2000) / 8))).setWidth 64
  else if inRegs x 0x3000 128 then
    let k := s.core (coreNo ((x - 0x3000) / 8))
    BitVec.ofNat 64 (k.stopped.toNat + k.brkNum.toNat * 2 ^ 16)
  else if inRegs x 0x4000 512 then BitVec.ofNat 64 (fld (sget 0 h.ringv ((x - 0x4000) / 16)) (8 * (x % 16)) 64)
  else if inRegs x 0x5000 4 then (tow 0x5000).rslen.setWidth 64
  else if inRegs x 0x5100 4 then (tow 0x5100).mpool
  else if x = 0x6020 then (BitVec.ofBool h.attDone).setWidth 64 <<< 1
  else if inRegs x 0x6100 30 then BitVec.ofNat 64 (leNat ((h.attRep.drop (x - 0x6100)).take 8))
  else if inRegs x 0x7000 512 then
    BitVec.ofNat 64 (leNat ((List.range 8).map fun i => Config.certificate (x - 0x7000 + i)))
  else if inRegs x 0x10000 32 then
    readWord s (ctxEntryKey s (BitVec.ofNat 16 (fld h.ctxsel 0 16)) + (x - 0x10000))
  else if inRegs x 0x100000 32768 then
    BitVec.ofNat 64 (leNat ((List.range 8).map fun i => sget 0 (s.tower (towerNo ((x - 0x100000) / 65536))).store (x % 65536 + i)))
  else 0

end Sys2Proof.Machine
end

