-- ==== Sys2Proof/Machine/Scalar.lean ====
section
/-! DEFINITION. The A slot: scalar arithmetic, shifts, multiplies and divides, compares, predicates, immediates (R244 to
R247), with the latencies of R204 and the broadcast port (R208). -/

namespace Sys2Proof.Machine

/-! ### Shapes -/

/-- Slot A is slot 1 (R188). -/
def slotA : Fin 8 := 1

/-- A result of the A slot: it lands after lat entries and drives bc in a BCAST bundle (R204, R205, R208). -/
def State.resultA (s : State) (ref : RegRef) (v : Vec) (lat : Nat) : State :=
  s.setMe (s.me.writeLater s.freeN slotA ref v lat s.bcast)

/-- The physical predicate that a d field names (R191, R209). -/
def predRef (s : State) (d : BitVec 6) : RegRef := .p (pphys s.me.regs.rot (d.setWidth 4))

/-- s[d] from s[a] and s[b] under the scalar guard (R192, R244). -/
def scalarOp (s : State) (o : OpT) (lat : Nat) (f : Word → Word → Word) : State :=
  if s.guard slotA o.g then
    s.resultA (.s o.d) ((f (s.rdS slotA o.a) (s.rdS slotA o.b)).setWidth 4096) lat
  else s

/-- p[d] from s[a] and s[b] (R246). -/
def compareOp (s : State) (o : OpT) (f : Word → Word → Bool) : State :=
  if s.guard slotA o.g then s.resultA (predRef s o.d) (ofBool (f (s.rdS slotA o.a) (s.rdS slotA o.b))) 1 else s

/-- p[d] from p[a] and p[b] (R246). -/
def predOp (s : State) (o : OpT) (f : Bool → Bool → Bool) : State :=
  if s.guard slotA o.g then
    s.resultA (predRef s o.d) (ofBool (f (s.rdP slotA (o.a.setWidth 4)) (s.rdP slotA (o.b.setWidth 4)))) 1
  else s

/-- s[d] from s[a] and the sign-extended immediate (R247). -/
def immOp (s : State) (o : OpI) (f : Word → Word → Word) : State :=
  if s.guard slotA o.g then
    s.resultA (.s o.d) ((f (s.rdS slotA o.a) (o.imm.signExtend 64)).setWidth 4096) 1
  else s

/-- p[d] from s[a] and the sign-extended immediate (R247). -/
def immCompare (s : State) (o : OpI) (f : Word → Word → Bool) : State :=
  if s.guard slotA o.g then s.resultA (predRef s o.d) (ofBool (f (s.rdS slotA o.a) (o.imm.signExtend 64))) 1 else s

/-- A shift amount (R244). -/
def shiftAmount (y : Word) : Nat := fld y 0 6

/-! ### Values -/

/-- The quotient and remainder of R245. -/
def divSigned (x y : Word) : Word := if y = 0 then BitVec.allOnes 64 else BitVec.ofInt 64 (Int.tdiv x.toInt y.toInt)
def remSigned (x y : Word) : Word := if y = 0 then x else BitVec.ofInt 64 (Int.tmod x.toInt y.toInt)
def divUnsigned (x y : Word) : Word := if y = 0 then BitVec.allOnes 64 else BitVec.ofNat 64 (x.toNat / y.toNat)
def remUnsigned (x y : Word) : Word := if y = 0 then x else BitVec.ofNat 64 (x.toNat % y.toNat)
def mulHigh (x y : Word) : Word := BitVec.ofInt 64 (x.toInt * y.toInt / 2 ^ 64)
def mulHighU (x y : Word) : Word := BitVec.ofNat 64 (x.toNat * y.toNat / 2 ^ 64)
def shiftArith (x : Word) (n : Nat) : Word := BitVec.ofInt 64 (x.toInt / 2 ^ n)
def rotateRight (x : Word) (n : Nat) : Word := BitVec.ofNat 64 (x.toNat / 2 ^ n + x.toNat % 2 ^ n * 2 ^ (64 - n))

/-- Leading zeros, 64 for 0 (R246). -/
def leadingZeros (x : Word) : Nat := if x = 0 then 64 else 63 - Nat.log2 x.toNat
/-- Trailing zeros among the n low bits from bit 64 - n on. -/
def trailingFrom (x : Word) : Nat → Nat
  | 0 => 64
  | n + 1 => if bit x (63 - n) then 63 - n else trailingFrom x n
/-- Trailing zeros, 64 for 0 (R246). -/
def trailingZeros (x : Word) : Nat := trailingFrom x 64

/-! ### Register forms (R244, R245) -/

/-- a.add (R244). -/
def execAAdd (o : OpT) (s : State) : Out := .next (scalarOp s o 1 fun x y => x + y)

/-- a.sub (R244). -/
def execASub (o : OpT) (s : State) : Out := .next (scalarOp s o 1 fun x y => x - y)

/-- a.and (R244). -/
def execAAnd (o : OpT) (s : State) : Out := .next (scalarOp s o 1 fun x y => x &&& y)

/-- a.or (R244). -/
def execAOr (o : OpT) (s : State) : Out := .next (scalarOp s o 1 fun x y => x ||| y)

/-- a.xor (R244). -/
def execAXor (o : OpT) (s : State) : Out := .next (scalarOp s o 1 fun x y => x ^^^ y)

/-- a.andn (R244). -/
def execAAndn (o : OpT) (s : State) : Out := .next (scalarOp s o 1 fun x y => x &&& ~~~y)

/-- a.orn (R244). -/
def execAOrn (o : OpT) (s : State) : Out := .next (scalarOp s o 1 fun x y => x ||| ~~~y)

/-- a.xnor (R244). -/
def execAXnor (o : OpT) (s : State) : Out := .next (scalarOp s o 1 fun x y => ~~~(x ^^^ y))

/-- a.shl (R244). -/
def execAShl (o : OpT) (s : State) : Out := .next (scalarOp s o 1 fun x y => x <<< shiftAmount y)

/-- a.shr (R244). -/
def execAShr (o : OpT) (s : State) : Out := .next (scalarOp s o 1 fun x y => x >>> shiftAmount y)

/-- a.sra (R244). -/
def execASra (o : OpT) (s : State) : Out := .next (scalarOp s o 1 fun x y => shiftArith x (shiftAmount y))

/-- a.ror (R244). -/
def execARor (o : OpT) (s : State) : Out := .next (scalarOp s o 1 fun x y => rotateRight x (shiftAmount y))

/-- a.min (R244). -/
def execAMin (o : OpT) (s : State) : Out := .next (scalarOp s o 1 fun x y => if x.slt y then x else y)

/-- a.max (R244). -/
def execAMax (o : OpT) (s : State) : Out := .next (scalarOp s o 1 fun x y => if x.slt y then y else x)

/-- a.minu (R244). -/
def execAMinu (o : OpT) (s : State) : Out := .next (scalarOp s o 1 fun x y => if x.ult y then x else y)

/-- a.maxu (R244). -/
def execAMaxu (o : OpT) (s : State) : Out := .next (scalarOp s o 1 fun x y => if x.ult y then y else x)

/-- a.adds (R244). -/
def execAAdds (o : OpT) (sh : BitVec 3) (s : State) : Out := .next (scalarOp s o 1 fun x y => x + (y <<< sh.toNat))

/-- a.mul (R245). -/
def execAMul (o : OpT) (s : State) : Out := .next (scalarOp s o 3 fun x y => x * y)

/-- a.mulh (R245). -/
def execAMulh (o : OpT) (s : State) : Out := .next (scalarOp s o 3 fun x y => mulHigh x y)

/-- a.mulhu (R245). -/
def execAMulhu (o : OpT) (s : State) : Out := .next (scalarOp s o 3 fun x y => mulHighU x y)

/-- a.div (R245). -/
def execADiv (o : OpT) (s : State) : Out := .next (scalarOp s o 12 fun x y => divSigned x y)

/-- a.divu (R245). -/
def execADivu (o : OpT) (s : State) : Out := .next (scalarOp s o 12 fun x y => divUnsigned x y)

/-- a.rem (R245). -/
def execARem (o : OpT) (s : State) : Out := .next (scalarOp s o 12 fun x y => remSigned x y)

/-- a.remu (R245). -/
def execARemu (o : OpT) (s : State) : Out := .next (scalarOp s o 12 fun x y => remUnsigned x y)

/-! ### Compares and predicates (R246) -/

/-- a.ceq (R246). -/
def execACeq (o : OpT) (s : State) : Out := .next (compareOp s o fun x y => decide (x = y))

/-- a.cne (R246). -/
def execACne (o : OpT) (s : State) : Out := .next (compareOp s o fun x y => decide (x ≠ y))

/-- a.clt (R246). -/
def execAClt (o : OpT) (s : State) : Out := .next (compareOp s o fun x y => x.slt y)

/-- a.cge (R246). -/
def execACge (o : OpT) (s : State) : Out := .next (compareOp s o fun x y => !x.slt y)

/-- a.cltu (R246). -/
def execACltu (o : OpT) (s : State) : Out := .next (compareOp s o fun x y => x.ult y)

/-- a.cgeu (R246). -/
def execACgeu (o : OpT) (s : State) : Out := .next (compareOp s o fun x y => !x.ult y)

/-- a.ctst (R246). -/
def execACtst (o : OpT) (s : State) : Out := .next (compareOp s o fun x y => decide (x &&& y ≠ 0))

/-- a.cntst (R246). -/
def execACntst (o : OpT) (s : State) : Out := .next (compareOp s o fun x y => decide (x &&& y = 0))

/-- a.sel (R246): p[g] selects, and the instruction always takes effect. -/
def execASel (o : OpT) (s : State) : Out := .next
  (s.resultA (.s o.d) ((if s.rdP slotA o.g then s.rdS slotA o.a else s.rdS slotA o.b).setWidth 4096) 1)

/-- a.clz (R246). -/
def execAClz (o : OpT) (s : State) : Out := .next (scalarOp s o 1 fun x _ => BitVec.ofNat 64 (leadingZeros x))

/-- a.ctz (R246). -/
def execACtz (o : OpT) (s : State) : Out := .next (scalarOp s o 1 fun x _ => BitVec.ofNat 64 (trailingZeros x))

/-- a.popc (R246). -/
def execAPopc (o : OpT) (s : State) : Out := .next (scalarOp s o 1 fun x _ => BitVec.ofNat 64 (popCount 64 x.toNat))

/-- a.pand (R246). -/
def execAPand (o : OpT) (s : State) : Out := .next (predOp s o fun x y => x && y)

/-- a.por (R246). -/
def execAPor (o : OpT) (s : State) : Out := .next (predOp s o fun x y => x || y)

/-- a.pxor (R246). -/
def execAPxor (o : OpT) (s : State) : Out := .next (predOp s o fun x y => x ^^ y)

/-- a.pandn (R246). -/
def execAPandn (o : OpT) (s : State) : Out := .next (predOp s o fun x y => x && !y)

/-! ### Immediate forms (R247) -/

/-- a.addi (R247). -/
def execAAddi (o : OpI) (s : State) : Out := .next (immOp s o fun x i => x + i)

/-- a.andi (R247). -/
def execAAndi (o : OpI) (s : State) : Out := .next (immOp s o fun x i => x &&& i)

/-- a.ori (R247). -/
def execAOri (o : OpI) (s : State) : Out := .next (immOp s o fun x i => x ||| i)

/-- a.xori (R247). -/
def execAXori (o : OpI) (s : State) : Out := .next (immOp s o fun x i => x ^^^ i)

/-- a.shli (R247). -/
def execAShli (o : OpI) (s : State) : Out := .next (immOp s o fun x i => x <<< shiftAmount i)

/-- a.shri (R247). -/
def execAShri (o : OpI) (s : State) : Out := .next (immOp s o fun x i => x >>> shiftAmount i)

/-- a.srai (R247). -/
def execASrai (o : OpI) (s : State) : Out := .next (immOp s o fun x i => shiftArith x (shiftAmount i))

/-- a.ceqi (R247). -/
def execACeqi (o : OpI) (s : State) : Out := .next (immCompare s o fun x i => decide (x = i))

/-- a.clti (R247). -/
def execAClti (o : OpI) (s : State) : Out := .next (immCompare s o fun x i => x.slt i)

/-- a.cltui (R247). -/
def execACltui (o : OpI) (s : State) : Out := .next (immCompare s o fun x i => x.ult i)

/-- a.movi (R247). -/
def execAMovi (o : OpJ) (s : State) : Out := .next (s.resultA (.s o.d) ((o.imm.signExtend 64).setWidth 4096) 1)

/-- a.cat (R247). -/
def execACat (o : OpJ) (s : State) : Out := .next
  (s.resultA (.s o.d) (((s.rdS slotA o.d <<< 19) ||| o.imm.setWidth 64).setWidth 4096) 1)

end Sys2Proof.Machine
end

