-- ==== Sys2Proof/Machine/Schedule.lean ====
section
/-! DEFINITION. Which table row the next step performs (log 15): events that are due, engines, and the agents in turn. -/

namespace Sys2Proof.Machine

/-- An instruction or event with the state in which it is performed. -/
abbrev Pick := Option (Instr × State)

/-! ### A core's turn -/

/-- The C entry i of core c's bundle issues as a no-operation (R189, R226, R239, R241): a branch that is never taken, a breakpoint without
a debugger, or an instruction whose guard is false. -/
def cNoOp (s : State) (c : CoreId) (i : Instr) : Bool :=
  let s1 := { s with now := onCore c }
  match i with
  | .cBr o => o.p = 0 && o.neg = 1
  | .cBrk _ => !ctxDebug s (coreCtx s c)
  | .cJr o | .cCallr o => !s1.guard slotC o.g
  | .cLoop o | .cNest o => !s1.guard slotC o.g
  | .cWaitb o | .cWaitr o | .cWaitq o | .cWaitt o | .cSpop o | .cHalt o => !s1.guard slotC o.g
  | _ => false

/-- Slot x of the bundle in progress issues. -/
def issueSlot (s : State) (c : CoreId) (cur : Current) (x : Fin 8) : Pick :=
  match cur.bundle.slots.getD x.val none with
  | some i =>
    let k := s.core c
    let cur1 := { cur with left := cur.left.filter fun y => y ≠ x, cIdle := cur.cIdle || (x = slotC && cNoOp s c i) }
    some (i, { s.setCore c { k with current := some cur1 } with now := onCore c })
  | none => none

/-- The instruction of slot x. -/
def slotInstr (cur : Current) (x : Fin 8) : Instr := (cur.bundle.slots.getD x.val none).getD (.eccError)

/-- What slot x leaves of the bundle in progress of core c if it issues now: tried on the state as it stands. -/
def trial (ex : Instr → State → Out) (s : State) (c : CoreId) (cur : Current) (x : Fin 8) : Option Current :=
  match issueSlot s c cur x with
  | some (i, s1) => match ex i s1 with
    | .next s2 => (s2.core c).current
    | _ => none
  | none => some cur

/-- Performing slot x would fault it or end the bundle. -/
def wouldFault (ex : Instr → State → Out) (s : State) (c : CoreId) (cur : Current) (x : Fin 8) : Bool :=
  match trial ex s c cur x with
  | some q => decide (cur.faults.length < q.faults.length)
  | none => true

/-- Slot x cannot issue yet. -/
def wouldWait (ex : Instr → State → Out) (s : State) (c : CoreId) (cur : Current) (x : Fin 8) : Bool :=
  match trial ex s c cur x with
  | some q => q.left.contains x
  | none => false

/-- An entry that its kind holds until every other one has passed its fault point. -/
def heldSlot (k : Core) (cur : Current) (x : Fin 8) : Bool := isHeld k (slotInstr cur x)
/-- A wait. -/
def waitSlot (cur : Current) (x : Fin 8) : Bool := isWait (slotInstr cur x)

/-- The held entries that are left in the order in which they are performed: the matrix engine's last, so that the commit follows it at
once (R291). -/
def heldOrder (held : List (Fin 8)) : List (Fin 8) := (held.filter fun x => x ≠ 6) ++ held.filter fun x => x = 6

/-- Which of the held entries goes next: one that faults, so that none is performed; then one that must wait, before any is performed;
then the first (R215, R291, R328). -/
def nextHeld (ex : Instr → State → Out) (s : State) (c : CoreId) (cur : Current) (held : List (Fin 8)) :
    Option (Fin 8) :=
  match heldOrder held with
  | [] => none
  | [x] => some x
  | x :: xs => some (((x :: xs).find? (wouldFault ex s c cur)).getD (((x :: xs).find? (wouldWait ex s c cur)).getD x))

/-- The entries of the bundle issue together (R153): a SYNC, STAMPED or YIELD bundle (R158, R350). -/
def together (b : Bundle) : Bool := b.sync || b.yld || b.stamp.isSome

/-- Nothing of the bundle in progress has issued. -/
def unissued (cur : Current) : Bool := cur.left.length = (cur.bundle.slots.filter Option.isSome).length

/-- What a core does next: an entry issues, or an event of the core. -/
inductive Choice where
  | slot (x : Fin 8)
  | event (i : Instr)

/-- The entry that is neither held nor a wait and goes next; of a bundle whose entries issue together, one that must wait goes before
any has issued. -/
def nextFree (ex : Instr → State → Out) (s : State) (c : CoreId) (cur : Current) : Option (Fin 8) :=
  let free := cur.left.filter fun x => !heldSlot (s.core c) cur x && !waitSlot cur x
  if together cur.bundle && unissued cur then (free.find? (wouldWait ex s c cur)).or free.head? else free.head?

/-- What core c does next (R152, R211, R383; log 3): entry of a bundle; the entries that are not held in slot order, then
a wait, unless a held one faults (R235), then the held ones; the commit, or the fault. A c.halt that ends the continuation leaves the
held ones unissued, and one that ends a sequence commits when the gate can empty. -/
def coreChoice (ex : Instr → State → Out) (s : State) (c : CoreId) : Option Choice :=
  let k := s.core c
  if k.run.isNone || k.stopped || k.stall.isSome then none
  else match k.current with
    | none => some (.event .bundleEntry)
    | some cur =>
      if cur.stampWait then none else
      match (if unissued cur && wantsMark k cur.bundle then k.gate.head? else none) with
      | some e => if canLeave s c e then some (.event .restartMarkEstablish) else none
      | none =>
        match nextFree ex s c cur with
        | some x => some (.slot x)
        | none =>
          if !cur.faults.isEmpty then some (.event .preciseFault)
          else if haltFaults k cur then some (.event .bundleCommit)
          else match cur.left.find? (waitSlot cur) with
            | some x =>
              some (.slot (((cur.left.filter fun y => !waitSlot cur y).find? (wouldFault ex s c cur)).getD x))
            | none => match nextHeld ex s c cur cur.left with
              | some x => some (.slot x)
              | none => if endsSequence k cur && !gateClears s c then none else some (.event .bundleCommit)

/-- A core's turn. -/
def coreNext (ex : Instr → State → Out) (s : State) (c : CoreId) : Pick :=
  match coreChoice ex s c with
  | some (.slot x) => (s.core c).current.bind fun cur => issueSlot s c cur x
  | some (.event i) => some (i, { s with now := onCore c })
  | none => none

/-- No other agent comes between: the entries of a bundle that issue together, once the first has or its stamp is due, and the held
entries of a bundle with its commit (R153, R158, R291). -/
def undivided (s : State) (c : CoreId) : Bool :=
  let k := s.core c
  match k.current with
  | none => false
  | some cur =>
    let begun := !unissued cur
    cur.faults.isEmpty && !cur.stampWait &&
      (together cur.bundle && !cur.left.isEmpty && (begun || (cur.bundle.stamp.isSome && detCore s c))
        || begun && (cur.bracketed || (bundleInstrs cur.bundle).any (isHeld k)) && cur.left.all (heldSlot k cur))

/-- Core c goes on before every other agent, and takes no clk: it is in the middle of what is undivided, and does not have to wait. -/
def goesFirst (ex : Instr → State → Out) (s : State) (c : CoreId) : Bool :=
  undivided s c && match coreChoice ex s c with
    | some (.slot x) => match (s.core c).current with
      | some cur => !wouldWait ex s c cur x
      | none => false
    | some (.event _) => true
    | none => false

/-- The core that goes first, if one does. -/
def firstCore (ex : Instr → State → Out) (s : State) : Option CoreId := (List.finRange 128).find? (goesFirst ex s)

/-! ### The engines -/

/-- An event with its occasion, if it has become possible. -/
abbrev Due := Option (Instr × Occasion)

def dueIf (b : Bool) (i : Instr) (o : Occasion) : Due := if b then some (i, o) else none

/-- The first of several. -/
def firstDue (ds : List (Unit → Due)) : Due := ds.findSome? fun f => f ()

/-- The first among the cores, the towers, the channels. -/
def dueCore (f : CoreId → Due) : Due := (List.finRange 128).findSome? f
def dueTower (f : TowerId → Due) : Due := (List.finRange 4).findSome? f

/-- A pass may end once its bundle has issued it for good (R128). -/
def passOver (k : Core) : Bool :=
  match k.mat.passes with
  | [] => false
  | p :: _ => match k.current with
    | some cur => !(cur.pc = p.bundle && !cur.left.contains 6)
    | none => true

/-- The windows of core c whose oldest entry may be offered again (R149, R170, R431). -/
def retryDue (s : State) (c : CoreId) : Due :=
  let k := s.core c
  (k.replay.find? fun e =>
    (match k.replay.find? fun x => x.dest = e.dest with | some x => x = e | none => false)
      && (match e.held with | some h => decide (h ≤ s.clk) | none => !waitsInCore s c e)).map fun e =>
    (.retryBackoffExpiry, { onCore c with unit := e.dest.code })

/-- A step would send a miss to a walker (R49). -/
def asks (s s1 : State) : Bool :=
  (List.finRange 4).any fun t => (s.tower t).walker.queue.length ≠ (s1.tower t).walker.queue.length

/-- What is due in core c beside its bundles. -/
def coreDue (s : State) (c : CoreId) : Due :=
  let k := s.core c
  let o := onCore c
  firstDue [
    fun _ => dueIf (!k.mat.promos.isEmpty) .promotion o,
    fun _ => dueIf (decide (0 < k.mat.swaps)) .swapExchange o,
    fun _ => dueIf (passOver k) .passEnd o,
    fun _ => dueIf (match k.stall with
      | some w => w.kind = waitYield && atRest s c
      | none => false) .yield { o with addr := (k.stall.map Wait.obj).getD 0 },
    fun _ => dueIf (match k.stall with
      | some w => (waitResult s c w).isSome || stallOver s c w
      | none => false) .stalledWaitSatisfied o,
    fun _ => dueIf (match k.displace with
      | some t0 => k.run.isSome && decide (t0 + 256 ≤ s.clk)
        && (match k.stall with | some w => !(w.kind = waitForced && !k.mat.passes.isEmpty) | none => true)
      | none => false) .yieldTimeout o,
    fun _ => dueIf (match stampDistance s c with
      | some d => decide (d = 0) || decide (2 ^ 30 ≤ d)
      | none => false) .stampDue o,
    fun _ => dueIf (match k.gidx with
      | i :: _ => decide (k.rows.length < 16) && ((gatherRow s c i).1.isSome || asks s (gatherRow s c i).2)
      | [] => false) .gatherRowDeliver o,
    fun _ => dueIf (match (s.tower (towerOf c)).queries.find? fun q => q.core = c with
      | some q => q.result.isSome
      | none => false) .curdResultDeliver o,
    fun _ => retryDue s c]

/-- A copy, or the request at the head of a channel, can go on (R310 to R314). -/
def channelDue (s : State) (d : Dest4) : Due :=
  let ch := s.churnChan d
  let o : Occasion := { Occasion.none with tower := copyTower d, unit := d.code }
  match ch.running with
  | some cp =>
    if cp.ended then
      dueIf (decide (cp.held ≤ s.clk) && match copyTargets s d cp with | (none, s1) => asks s s1 | _ => true) .copyComplete o
    else match copyElement s d cp with
      | .wait s1 => dueIf (asks s s1) (if cp.hold then .granuleHoldRelease else .copyStart) o
      | .held _ => dueIf (!cp.hold) .copyStart o
      | _ => some (if cp.hold then .granuleHoldRelease else .copyStart, o)
  | none => match ch.queue with
    | [] => none
    | r :: _ =>
      let ready := !ctxCurrent s r.ctx r.gen
        || (match readTemplate s (copyView s d r) r.tmpl r.gath.isSome with | (.wait, s1) => asks s s1 | _ => true)
      dueIf ready .copyStart o

/-- The channels of the device that hold anything. -/
def busyChannels (s : State) : List Dest4 :=
  churnChannels.filter fun d => (s.churnChan d).running.isSome || !(s.churnChan d).queue.isEmpty

/-- Dispatches of the Rennet of tower t (R142 to R147). -/
def dispatchDue (s : State) (t : TowerId) : Due :=
  let o := onTower t
  if (s.tower t).ready.isEmpty then none
  else firstDue [
    fun _ => dueIf (dispatchCore s t).isSome .dispatch o,
    fun _ => ((List.range 8).find? fun i =>
      let x := clusterNo (8 * t.val + i)
      (chooseTarget s t fun g => g = .churn x).isSome && (freeChannel s 1 x.val).isSome).map fun i =>
        (.dispatch, { o with unit := 1, value := BitVec.ofNat 64 (8 * t.val + i) }),
    fun _ => dueIf ((chooseTarget s t fun g => g = .hubChurn).isSome && (freeChannel s 2 t.val).isSome) .dispatch
      { o with unit := 2 },
    fun _ => dueIf ((s.tower t).curd.isNone && (chooseTarget s t fun g => g = .curd).isSome) .dispatch { o with unit := 3 },
    fun _ => dueIf (reservedCore s t).isSome .dispatch { o with unit := 4 },
    fun _ => (displaceChoice s t).map fun c => (.displacementRequest, onCore c)]

/-- A record of another device that has ended here (R181). -/
def foreignEnded (s : State) (a : Armed) : Bool :=
  a.origin.isSome && (headerState s a.hdrKey = 0 || headerState s a.hdrKey = 2)

/-- What is due in tower t. -/
def towerDue (s : State) (t : TowerId) : Due :=
  let w := s.tower t
  let o := onTower t
  firstDue [
    fun _ => dueIf (!w.displaced.isEmpty) .preemptWritebackDone o,
    fun _ => (w.susp.find? fun x => suspReady s t x).map fun x => (.wake, { o with addr := x.entry.record }),
    fun _ => dueIf (w.offers.any (offerReady s t)) .retryBackoffExpiry { o with value := 1 },
    fun _ => (w.armed.find? fun a => foreignEnded s a).map fun a => (.podRecordResponse, { o with unit := a.hdrKey, extra := 1 }),
    fun _ => (stagedNext s t).map fun g => (.stagedDispatch, onCore g.core),
    fun _ => dispatchDue s t,
    fun _ => dueIf (openQuery s t).isSome .curdQueryAccept o,
    fun _ => dueIf (match w.handover with
      | some h => decide (h.since + 1024 * max 1 (fld s.hub.htmo 0 32) ≤ s.clk)
      | none => false) .handoverTimeout o,
    fun _ => dueIf (w.walker.running && decide (w.walker.since + 4096 < s.clk)) .routineTimeout o,
    fun _ => dueIf (w.tiers.rebuilt && (reconPosition w.tiers).isSome && rolesFree s t) .changeOfRoles o,
    fun _ => dueIf (w.tiers.rotating && mayRotate w.tiers && rolesFree s t
      && (kPosition w.tiers (BitVec.ofNat 3 ((w.tiers.parity.toNat + 1) % 5))).isSome) .parityRotationSwitch o,
    fun _ => dueIf (!w.combine.isEmpty) .combineBufferFlush o]

/-- What is due in the hub. -/
def hubDue (s : State) : Due :=
  let h := s.hub
  let o := Occasion.none
  firstDue [
    fun _ => dueIf (!h.inject.isEmpty && ptimeReady s) .orderedInject o,
    fun _ => dueIf (match nextOrdered s with
      | some p => pUnit p.hdr || !h.ringFull || (match ringWrite s p with | .full _ => false | _ => true)
      | none => false) .orderedDeliver o,
    fun _ => dueIf (h.circuits.any fun x => decide (x.start ≤ h.podTime.toNat)) .circuitSlotSend o,
    fun _ => dueIf (h.arrived.any fun x => circuitDue s x) .circuitDeliver o,
    fun _ => dueIf (nextInbound s [] h.inbound).isSome .receiveRingWrite o,
    fun _ => dueIf (h.lockstep.any fun l => frameOver s l) .lockstepSignatureSend o,
    fun _ => dueIf (h.lockstep.any fun l => (missingFrame s l).isSome) .lockstepSignatureTimeout o,
    fun _ => ((List.range 20).find? fun x =>
      let p := s.port x
      p.up && decide (p.lastSent + 500 ≤ s.clk) && decide (p.retry.length < 256)).map fun x => (.beaconSend, { o with unit := x }),
    fun _ => dueIf (h.inbound.any fun x => heldLong s x) .packetHeldTimeout o,
    fun _ => ((List.range 16).find? fun x => stalledPort s x).map fun x => (.watermarkStall, { o with unit := x })]

/-- The change of fusion of a cluster that can be made (R33, R138). -/
def fusionDue (s : State) : Due :=
  ((List.finRange 32).find? fun x =>
    (s.cluster x).fuseReq.isSome && ((clusterCores x).all fun c => (s.core c).run.isNone)
      && !waitsForLink s (clusterCores x) (fun _ => true)).map fun x =>
      (.fusionChange, { Occasion.none with unit := x.val })

/-- An event of the device that has become possible (log 15). -/
def dueEvent (s : State) : Due :=
  firstDue [
    fun _ => dueCore fun c => coreDue s c,
    fun _ => (busyChannels s).findSome? fun d => channelDue s d,
    fun _ => dueTower fun t => towerDue s t,
    fun _ => fusionDue s,
    fun _ => hubDue s]

/-! ### The agents in turn -/

/-- The agents by number: cores, curds, walkers. -/
def actorNo (n : Nat) : Actor :=
  let m := n % 136
  if m < 128 then .core (coreNo m) else if m < 132 then .curd (towerNo (m - 128)) else .walker (towerNo (m - 132))

def Actor.number : Actor → Nat
  | .core c => c.val
  | .curd t => 128 + t.val
  | .walker t => 132 + t.val

/-- The curd units of tower t: the start of a program, a refresh window, or the word at pc (R342 to R344). -/
def curdNext (s : State) (t : TowerId) : Pick :=
  let s1 := { s with now := onTower t }
  match (s.tower t).curd with
  | none => none
  | some p =>
    if p.words.isEmpty then some (.curdProgramStart, s1)
    else if p.refresh + 4096 ≤ p.clock then some (.curdRefreshWindow, s1)
    else match decodeCurd (p.words.getD p.pc 0) with
      | .ok i => some (i, s1)
      | .error _ => none

/-- The walker of tower t: an instruction of its routine, or its next request (R53). -/
def walkerNext (s : State) (t : TowerId) : Pick :=
  let s1 := { s with now := onTower t }
  let k := (s.tower t).walker
  match (if k.running then walkerInstr s t else none) with
  | some i => some (i, s1)
  | none =>
    if (k.running || (!k.queue.isEmpty && !walkerBlocked s t)) && (s.tower t).handover.isNone then some (.walkerRequest, s1) else none

/-- What an agent does next, none if it is not running. -/
def actorNext (ex : Instr → State → Out) (s : State) : Actor → Pick
  | .core c => coreNext ex s c
  | .curd t => curdNext s t
  | .walker t => walkerNext s t

/-- The first agent from number n on that can act. -/
def turnFrom (ex : Instr → State → Out) (s : State) : Nat → Nat → Pick
  | 0, _ => none
  | f + 1, n => match actorNext ex s (actorNo n) with
    | some (i, s1) => some (i, { s1 with actor := actorNo (n + 1), engines := true })
    | none => turnFrom ex s f (n + 1)

/-- The row that the next step performs, and the state it is performed in: an event that is due, a core in the middle of what is
undivided, an event of an engine, or the turn of an agent (log 15). -/
def nextRow (ex : Instr → State → Out) (s : State) : Pick :=
  match s.agenda with
  | (i, o) :: rest => some (i, { s with agenda := rest, now := o })
  | [] =>
    match firstCore ex s with
    | some c => coreNext ex s c
    | none =>
      match (if s.engines then dueEvent s else none) with
      | some (i, o) => some (i, { s with now := o })
      | none => turnFrom ex { s with engines := false } 136 s.actor.number

/-- The clks to the nearest stamp that a bundle of a deterministic instance waits for (R158). -/
def nextStamp (s : State) : Option Nat :=
  if (List.finRange 4).any fun t => (s.tower t).armed.any fun a => a.launch.det then
    (((List.finRange 128).filterMap (stampDistance s)).filter fun d => decide (d < 2 ^ 30)).min?
  else none

/-- n clks pass; pod time omits one count where a slew says so (R170). -/
def State.pass (s : State) (n : Nat) : State :=
  { s with clk := s.clk + n,
           hub := { s.hub with podTime := s.hub.podTime + BitVec.ofNat 64 (n - (s.hub.omitNext && decide (0 < n)).toNat),
                               omitNext := s.hub.omitNext && decide (n = 0) } }

/-- Time passes with every step: as many clks as the timing that the model leaves open takes, but none beyond the stamp that a
bundle waits for (log 5). -/
def tick (s : State) : State :=
  let n := Config.stepClks s.freeN
  { s.pass ((nextStamp s).elim n (min n)) with freeN := s.freeN + 1 }

/-- The state in which the next row is performed: time has passed, unless a core is in the middle of what takes one clk (R153, R158). -/
def advance (ex : Instr → State → Out) (s : State) : State :=
  if (firstCore ex s).isSome then { s with freeN := s.freeN + 1 } else tick s

/-- No agent can go on: the engines are looked at; where they have nothing to do either, time passes up to the nearest stamp
that a bundle waits for. -/
def idle (s : State) : State :=
  if s.engines then s.pass ((nextStamp s).getD 0) else { s with engines := true }

/-- A curd program of two words that stands at its first (log 15). -/
def placedProgram (w : BitVec 32) : CurdProgram :=
  { record := 0, recKey := 0, inst := 0, instKey := 0, ctx := 0, gen := 0, words := [w, 0], pc := 0, clock := 0, lastRow := none,
    refresh := 0, fu := 0, nu := 1, aw := 0, args := [], wbase := 0, pages := [], cflg := 0,
    units := [{ i := Vector.replicate 8 0, w := Vector.replicate 8 0, fly := [] }], writes := [], loads := [] }

/-- A word placed for the next step: as a curd program of tower 0, or in the routine store at the pc of tower 0's walker. -/
def placeWord (s : State) (_nbits w : Nat) : State :=
  let word := BitVec.ofNat 32 w
  let q := s.tower 0
  let s0 := { s with agenda := [], engines := false }
  match decodeCurd word with
  | .ok _ => { (s0.setTower 0 { q with curd := some (placedProgram word) }) with actor := .curd 0 }
  | .error _ =>
    let pc := q.walker.pc.toNat
    let store := (List.range 4).foldl (fun m i => sset 0 m (pc + i) (BitVec.ofNat 8 (w / 256 ^ i))) q.store
    { (s0.setTower 0 { q with store := store, walker := { q.walker with running := true } }) with actor := .walker 0 }

end Sys2Proof.Machine
end

