-- ==== Sys2Proof/Machine/Dispatch.lean ====
section
/-! DEFINITION. One arm for each row of the opcode table. -/

namespace Sys2Proof.Machine

def exec (i : Instr) (s : State) : Host.Outcome State Fault Refusal :=
  match i with
  | .cBr o => Sys2Proof.Machine.execCBr o s
  | .cBsz o => Sys2Proof.Machine.execCBsz o s
  | .cBsnz o => Sys2Proof.Machine.execCBsnz o s
  | .cCall o => Sys2Proof.Machine.execCCall o s
  | .cJr o => Sys2Proof.Machine.execCJr o s
  | .cCallr o => Sys2Proof.Machine.execCCallr o s
  | .cRet o => Sys2Proof.Machine.execCRet o s
  | .cLoop o => Sys2Proof.Machine.execCLoop o s
  | .cNest o => Sys2Proof.Machine.execCNest o s
  | .cWaitb o => Sys2Proof.Machine.execCWaitb o s
  | .cWaitr o => Sys2Proof.Machine.execCWaitr o s
  | .cWaitq o => Sys2Proof.Machine.execCWaitq o s
  | .cWaitt o => Sys2Proof.Machine.execCWaitt o s
  | .stalledWaitSatisfied => Sys2Proof.Machine.execStalledWaitSatisfied s
  | .wake => Sys2Proof.Machine.execWake s
  | .cRcr o => Sys2Proof.Machine.execCRcr o s
  | .cWcr o => Sys2Proof.Machine.execCWcr o s
  | .cScr o => Sys2Proof.Machine.execCScr o s
  | .cCcr o => Sys2Proof.Machine.execCCcr o s
  | .cSpop o => Sys2Proof.Machine.execCSpop o s
  | .cTrap o => Sys2Proof.Machine.execCTrap o s
  | .cBrk o => Sys2Proof.Machine.execCBrk o s
  | .cHalt o => Sys2Proof.Machine.execCHalt o s
  | .aAdd o => Sys2Proof.Machine.execAAdd o s
  | .aSub o => Sys2Proof.Machine.execASub o s
  | .aAnd o => Sys2Proof.Machine.execAAnd o s
  | .aOr o => Sys2Proof.Machine.execAOr o s
  | .aXor o => Sys2Proof.Machine.execAXor o s
  | .aAndn o => Sys2Proof.Machine.execAAndn o s
  | .aOrn o => Sys2Proof.Machine.execAOrn o s
  | .aXnor o => Sys2Proof.Machine.execAXnor o s
  | .aShl o => Sys2Proof.Machine.execAShl o s
  | .aShr o => Sys2Proof.Machine.execAShr o s
  | .aSra o => Sys2Proof.Machine.execASra o s
  | .aRor o => Sys2Proof.Machine.execARor o s
  | .aMin o => Sys2Proof.Machine.execAMin o s
  | .aMax o => Sys2Proof.Machine.execAMax o s
  | .aMinu o => Sys2Proof.Machine.execAMinu o s
  | .aMaxu o => Sys2Proof.Machine.execAMaxu o s
  | .aAdds o sh => Sys2Proof.Machine.execAAdds o sh s
  | .aMul o => Sys2Proof.Machine.execAMul o s
  | .aMulh o => Sys2Proof.Machine.execAMulh o s
  | .aMulhu o => Sys2Proof.Machine.execAMulhu o s
  | .aDiv o => Sys2Proof.Machine.execADiv o s
  | .aDivu o => Sys2Proof.Machine.execADivu o s
  | .aRem o => Sys2Proof.Machine.execARem o s
  | .aRemu o => Sys2Proof.Machine.execARemu o s
  | .aCeq o => Sys2Proof.Machine.execACeq o s
  | .aCne o => Sys2Proof.Machine.execACne o s
  | .aClt o => Sys2Proof.Machine.execAClt o s
  | .aCge o => Sys2Proof.Machine.execACge o s
  | .aCltu o => Sys2Proof.Machine.execACltu o s
  | .aCgeu o => Sys2Proof.Machine.execACgeu o s
  | .aCtst o => Sys2Proof.Machine.execACtst o s
  | .aCntst o => Sys2Proof.Machine.execACntst o s
  | .aSel o => Sys2Proof.Machine.execASel o s
  | .aClz o => Sys2Proof.Machine.execAClz o s
  | .aCtz o => Sys2Proof.Machine.execACtz o s
  | .aPopc o => Sys2Proof.Machine.execAPopc o s
  | .aPand o => Sys2Proof.Machine.execAPand o s
  | .aPor o => Sys2Proof.Machine.execAPor o s
  | .aPxor o => Sys2Proof.Machine.execAPxor o s
  | .aPandn o => Sys2Proof.Machine.execAPandn o s
  | .aAddi o => Sys2Proof.Machine.execAAddi o s
  | .aAndi o => Sys2Proof.Machine.execAAndi o s
  | .aOri o => Sys2Proof.Machine.execAOri o s
  | .aXori o => Sys2Proof.Machine.execAXori o s
  | .aShli o => Sys2Proof.Machine.execAShli o s
  | .aShri o => Sys2Proof.Machine.execAShri o s
  | .aSrai o => Sys2Proof.Machine.execASrai o s
  | .aCeqi o => Sys2Proof.Machine.execACeqi o s
  | .aClti o => Sys2Proof.Machine.execAClti o s
  | .aCltui o => Sys2Proof.Machine.execACltui o s
  | .aMovi o => Sys2Proof.Machine.execAMovi o s
  | .aCat o => Sys2Proof.Machine.execACat o s
  | .lLde o => Sys2Proof.Machine.execLLde o s
  | .lLdei o => Sys2Proof.Machine.execLLdei o s
  | .lLdv o => Sys2Proof.Machine.execLLdv o s
  | .lLdvi o => Sys2Proof.Machine.execLLdvi o s
  | .lPf o => Sys2Proof.Machine.execLPf o s
  | .lPfL2 o => Sys2Proof.Machine.execLPfL2 o s
  | .lPfTile o => Sys2Proof.Machine.execLPfTile o s
  | .lGpop o => Sys2Proof.Machine.execLGpop o s
  | .lHld o => Sys2Proof.Machine.execLHld o s
  | .lAdv o => Sys2Proof.Machine.execLAdv o s
  | .loadDataReturn => Sys2Proof.Machine.execLoadDataReturn s
  | .wSte o => Sys2Proof.Machine.execWSte o s
  | .wStv o => Sys2Proof.Machine.execWStv o s
  | .wAadd o use => Sys2Proof.Machine.execWAadd o use s
  | .wAand o use => Sys2Proof.Machine.execWAand o use s
  | .wAor o use => Sys2Proof.Machine.execWAor o use s
  | .wAxor o use => Sys2Proof.Machine.execWAxor o use s
  | .wAmin o use => Sys2Proof.Machine.execWAmin o use s
  | .wAmax o use => Sys2Proof.Machine.execWAmax o use s
  | .wAminu o use => Sys2Proof.Machine.execWAminu o use s
  | .wAmaxu o use => Sys2Proof.Machine.execWAmaxu o use s
  | .wAswp o use => Sys2Proof.Machine.execWAswp o use s
  | .wAcas o use => Sys2Proof.Machine.execWAcas o use s
  | .wArd o use => Sys2Proof.Machine.execWArd o use s
  | .atomicAtHome => Sys2Proof.Machine.execAtomicAtHome s
  | .combineBufferFlush => Sys2Proof.Machine.execCombineBufferFlush s
  | .wFrel o => Sys2Proof.Machine.execWFrel o s
  | .wFacq o => Sys2Proof.Machine.execWFacq o s
  | .wFall o => Sys2Proof.Machine.execWFall o s
  | .wAcq o => Sys2Proof.Machine.execWAcq o s
  | .wRel o => Sys2Proof.Machine.execWRel o s
  | .syncAcquireAtHome => Sys2Proof.Machine.execSyncAcquireAtHome s
  | .syncReleaseAtHome => Sys2Proof.Machine.execSyncReleaseAtHome s
  | .wBind o => Sys2Proof.Machine.execWBind o s
  | .wRacq o => Sys2Proof.Machine.execWRacq o s
  | .wRrel o => Sys2Proof.Machine.execWRrel o s
  | .vFadd o ty => Sys2Proof.Machine.execVFadd o ty s
  | .vFsub o ty => Sys2Proof.Machine.execVFsub o ty s
  | .vFmul o ty => Sys2Proof.Machine.execVFmul o ty s
  | .vFma o ty => Sys2Proof.Machine.execVFma o ty s
  | .vFnma o ty => Sys2Proof.Machine.execVFnma o ty s
  | .vFmax o ty => Sys2Proof.Machine.execVFmax o ty s
  | .vFmin o ty => Sys2Proof.Machine.execVFmin o ty s
  | .vFceq o ty => Sys2Proof.Machine.execVFceq o ty s
  | .vFclt o ty => Sys2Proof.Machine.execVFclt o ty s
  | .vFcle o ty => Sys2Proof.Machine.execVFcle o ty s
  | .vFabs o ty => Sys2Proof.Machine.execVFabs o ty s
  | .vFneg o ty => Sys2Proof.Machine.execVFneg o ty s
  | .vXscl o ty => Sys2Proof.Machine.execVXscl o ty s
  | .vAdd o ty => Sys2Proof.Machine.execVAdd o ty s
  | .vSub o ty => Sys2Proof.Machine.execVSub o ty s
  | .vMul o ty => Sys2Proof.Machine.execVMul o ty s
  | .vAdds o ty => Sys2Proof.Machine.execVAdds o ty s
  | .vSubs o ty => Sys2Proof.Machine.execVSubs o ty s
  | .vMin o ty => Sys2Proof.Machine.execVMin o ty s
  | .vMax o ty => Sys2Proof.Machine.execVMax o ty s
  | .vAnd o ty => Sys2Proof.Machine.execVAnd o ty s
  | .vOr o ty => Sys2Proof.Machine.execVOr o ty s
  | .vXor o ty => Sys2Proof.Machine.execVXor o ty s
  | .vShl o ty => Sys2Proof.Machine.execVShl o ty s
  | .vSra o ty => Sys2Proof.Machine.execVSra o ty s
  | .vShr o ty => Sys2Proof.Machine.execVShr o ty s
  | .vCeq o ty => Sys2Proof.Machine.execVCeq o ty s
  | .vClt o ty => Sys2Proof.Machine.execVClt o ty s
  | .vKand o => Sys2Proof.Machine.execVKand o s
  | .vKor o => Sys2Proof.Machine.execVKor o s
  | .vKxor o => Sys2Proof.Machine.execVKxor o s
  | .vKandn o => Sys2Proof.Machine.execVKandn o s
  | .vRsum o ty => Sys2Proof.Machine.execVRsum o ty s
  | .vRmax o ty => Sys2Proof.Machine.execVRmax o ty s
  | .vRmin o ty => Sys2Proof.Machine.execVRmin o ty s
  | .vRisum o ty => Sys2Proof.Machine.execVRisum o ty s
  | .vPerm o ty => Sys2Proof.Machine.execVPerm o ty s
  | .vBcst o ty => Sys2Proof.Machine.execVBcst o ty s
  | .vSlide o ty => Sys2Proof.Machine.execVSlide o ty s
  | .vExp2r o ty => Sys2Proof.Machine.execVExp2r o ty s
  | .vExp2f o ty => Sys2Proof.Machine.execVExp2f o ty s
  | .vLog2r o ty => Sys2Proof.Machine.execVLog2r o ty s
  | .vLog2f o ty => Sys2Proof.Machine.execVLog2f o ty s
  | .vRcpr o ty => Sys2Proof.Machine.execVRcpr o ty s
  | .vRcpf o ty => Sys2Proof.Machine.execVRcpf o ty s
  | .vRsqr o ty => Sys2Proof.Machine.execVRsqr o ty s
  | .vRsqf o ty => Sys2Proof.Machine.execVRsqf o ty s
  | .vTanhr o ty => Sys2Proof.Machine.execVTanhr o ty s
  | .vTanhf o ty => Sys2Proof.Machine.execVTanhf o ty s
  | .vSinr o ty => Sys2Proof.Machine.execVSinr o ty s
  | .vSinf o ty => Sys2Proof.Machine.execVSinf o ty s
  | .vCosr o ty => Sys2Proof.Machine.execVCosr o ty s
  | .vCosf o ty => Sys2Proof.Machine.execVCosf o ty s
  | .xCvt o => Sys2Proof.Machine.execXCvt o s
  | .xBpt o => Sys2Proof.Machine.execXBpt o s
  | .xTrr o => Sys2Proof.Machine.execXTrr o s
  | .xTrc o => Sys2Proof.Machine.execXTrc o s
  | .xMxq o => Sys2Proof.Machine.execXMxq o s
  | .xMxd o => Sys2Proof.Machine.execXMxd o s
  | .xSaq o => Sys2Proof.Machine.execXSaq o s
  | .xPack o => Sys2Proof.Machine.execXPack o s
  | .xUnpk o => Sys2Proof.Machine.execXUnpk o s
  | .xVtos o => Sys2Proof.Machine.execXVtos o s
  | .xStov o => Sys2Proof.Machine.execXStov o s
  | .mRun8 o => Sys2Proof.Machine.execMRun8 o s
  | .mRun4 o => Sys2Proof.Machine.execMRun4 o s
  | .mRunt o => Sys2Proof.Machine.execMRunt o s
  | .mWin o => Sys2Proof.Machine.execMWin o s
  | .mWsc o => Sys2Proof.Machine.execMWsc o s
  | .mSwap o => Sys2Proof.Machine.execMSwap o s
  | .mProm o => Sys2Proof.Machine.execMProm o s
  | .mDrain o => Sys2Proof.Machine.execMDrain o s
  | .mZrd o => Sys2Proof.Machine.execMZrd o s
  | .mBrd o => Sys2Proof.Machine.execMBrd o s
  | .mZclr o => Sys2Proof.Machine.execMZclr o s
  | .mFold o => Sys2Proof.Machine.execMFold o s
  | .mClip o => Sys2Proof.Machine.execMClip o s
  | .mCal o => Sys2Proof.Machine.execMCal o s
  | .mPin o => Sys2Proof.Machine.execMPin o s
  | .swapExchange => Sys2Proof.Machine.execSwapExchange s
  | .passEnd => Sys2Proof.Machine.execPassEnd s
  | .promotion => Sys2Proof.Machine.execPromotion s
  | .driftCapRise => Sys2Proof.Machine.execDriftCapRise s
  | .columnRetrim => Sys2Proof.Machine.execColumnRetrim s
  | .backgroundCalibration => Sys2Proof.Machine.execBackgroundCalibration s
  | .rebuildComplete => Sys2Proof.Machine.execRebuildComplete s
  | .changeOfRoles => Sys2Proof.Machine.execChangeOfRoles s
  | .eCpush o => Sys2Proof.Machine.execECpush o s
  | .eCpop o => Sys2Proof.Machine.execECpop o s
  | .eGidx o => Sys2Proof.Machine.execEGidx o s
  | .eBarm o => Sys2Proof.Machine.execEBarm o s
  | .eBexp o => Sys2Proof.Machine.execEBexp o s
  | .eBarv o => Sys2Proof.Machine.execEBarv o s
  | .eCq o => Sys2Proof.Machine.execECq o s
  | .eCqi o => Sys2Proof.Machine.execECqi o s
  | .eCqpop o => Sys2Proof.Machine.execECqpop o s
  | .eOsend o => Sys2Proof.Machine.execEOsend o s
  | .eUsend o => Sys2Proof.Machine.execEUsend o s
  | .eCsend o => Sys2Proof.Machine.execECsend o s
  | .eRecv o => Sys2Proof.Machine.execERecv o s
  | .eSpawn o => Sys2Proof.Machine.execESpawn o s
  | .eDec o => Sys2Proof.Machine.execEDec o s
  | .eDone o => Sys2Proof.Machine.execEDone o s
  | .eArm o => Sys2Proof.Machine.execEArm o s
  | .ePrime o => Sys2Proof.Machine.execEPrime o s
  | .bundleEntry => Sys2Proof.Machine.execBundleEntry s
  | .bundleCommit => Sys2Proof.Machine.execBundleCommit s
  | .resultLand => Sys2Proof.Machine.execResultLand s
  | .restartMarkEstablish => Sys2Proof.Machine.execRestartMarkEstablish s
  | .stampDue => Sys2Proof.Machine.execStampDue s
  | .preciseFault => Sys2Proof.Machine.execPreciseFault s
  | .engineFault => Sys2Proof.Machine.execEngineFault s
  | .replayAck => Sys2Proof.Machine.execReplayAck s
  | .replayNak => Sys2Proof.Machine.execReplayNak s
  | .retryBackoffExpiry => Sys2Proof.Machine.execRetryBackoffExpiry s
  | .garmStore => Sys2Proof.Machine.execGarmStore s
  | .gprimeStore => Sys2Proof.Machine.execGprimeStore s
  | .gctlResume => Sys2Proof.Machine.execGctlResume s
  | .gctlRestart => Sys2Proof.Machine.execGctlRestart s
  | .gctlAbandon => Sys2Proof.Machine.execGctlAbandon s
  | .abandonComplete => Sys2Proof.Machine.execAbandonComplete s
  | .successorDecrement => Sys2Proof.Machine.execSuccessorDecrement s
  | .spawnAtHomeRennet => Sys2Proof.Machine.execSpawnAtHomeRennet s
  | .dispatch => Sys2Proof.Machine.execDispatch s
  | .stagedDispatch => Sys2Proof.Machine.execStagedDispatch s
  | .displacementRequest => Sys2Proof.Machine.execDisplacementRequest s
  | .yield => Sys2Proof.Machine.execYield s
  | .yieldTimeout => Sys2Proof.Machine.execYieldTimeout s
  | .preemptWritebackDone => Sys2Proof.Machine.execPreemptWritebackDone s
  | .fusionChange => Sys2Proof.Machine.execFusionChange s
  | .podRecordForward => Sys2Proof.Machine.execPodRecordForward s
  | .podRecordResponse => Sys2Proof.Machine.execPodRecordResponse s
  | .churnParamWrite => Sys2Proof.Machine.execChurnParamWrite s
  | .churnGoWrite => Sys2Proof.Machine.execChurnGoWrite s
  | .copyStart => Sys2Proof.Machine.execCopyStart s
  | .copyComplete => Sys2Proof.Machine.execCopyComplete s
  | .granuleHoldRelease => Sys2Proof.Machine.execGranuleHoldRelease s
  | .gatherRowDeliver => Sys2Proof.Machine.execGatherRowDeliver s
  | .barrierArm => Sys2Proof.Machine.execBarrierArm s
  | .barrierExpect => Sys2Proof.Machine.execBarrierExpect s
  | .barrierArrival => Sys2Proof.Machine.execBarrierArrival s
  | .curdQueryAccept => Sys2Proof.Machine.execCurdQueryAccept s
  | .curdResultDeliver => Sys2Proof.Machine.execCurdResultDeliver s
  | .curdProgramStart => Sys2Proof.Machine.execCurdProgramStart s
  | .curdRefreshWindow => Sys2Proof.Machine.execCurdRefreshWindow s
  | .qNop w => Sys2Proof.Machine.execQNop w s
  | .qArg w d imm => Sys2Proof.Machine.execQArg w d imm s
  | .qAddi w d a imm => Sys2Proof.Machine.execQAddi w d a imm s
  | .qRd w d a f => Sys2Proof.Machine.execQRd w d a f s
  | .qWr w a b f => Sys2Proof.Machine.execQWr w a b f s
  | .qLook w d a b => Sys2Proof.Machine.execQLook w d a b s
  | .qLerp w d a b => Sys2Proof.Machine.execQLerp w d a b s
  | .qTld w a b imm => Sys2Proof.Machine.execQTld w a b imm s
  | .qAdd w d a b => Sys2Proof.Machine.execQAdd w d a b s
  | .qAdds w d a b => Sys2Proof.Machine.execQAdds w d a b s
  | .qSub w d a b => Sys2Proof.Machine.execQSub w d a b s
  | .qSubs w d a b => Sys2Proof.Machine.execQSubs w d a b s
  | .qExt w d a imm => Sys2Proof.Machine.execQExt w d a imm s
  | .qExts w d a imm => Sys2Proof.Machine.execQExts w d a imm s
  | .qIns w d a b imm => Sys2Proof.Machine.execQIns w d a b imm s
  | .qLoop w a imm => Sys2Proof.Machine.execQLoop w a imm s
  | .qEnd w => Sys2Proof.Machine.execQEnd w s
  | .walkerRequest => Sys2Proof.Machine.execWalkerRequest s
  | .routineTimeout => Sys2Proof.Machine.execRoutineTimeout s
  | .wkLdp t r d => Sys2Proof.Machine.execWkLdp t r d s
  | .wkLdh t r d => Sys2Proof.Machine.execWkLdh t r d s
  | .wkDone t r d => Sys2Proof.Machine.execWkDone t r d s
  | .wkFail t r d => Sys2Proof.Machine.execWkFail t r d s
  | .wkInv t r d => Sys2Proof.Machine.execWkInv t r d s
  | .wkChn t r d => Sys2Proof.Machine.execWkChn t r d s
  | .hostHandoverAnswer => Sys2Proof.Machine.execHostHandoverAnswer s
  | .handoverTimeout => Sys2Proof.Machine.execHandoverTimeout s
  | .sliceRetire => Sys2Proof.Machine.execSliceRetire s
  | .sliceRestore => Sys2Proof.Machine.execSliceRestore s
  | .eccError => Sys2Proof.Machine.execEccError s
  | .sramScrub => Sys2Proof.Machine.execSramScrub s
  | .dramPatrolScrub => Sys2Proof.Machine.execDramPatrolScrub s
  | .dramRefresh => Sys2Proof.Machine.execDramRefresh s
  | .telemetry => Sys2Proof.Machine.execTelemetry s
  | .parityRotationCopy => Sys2Proof.Machine.execParityRotationCopy s
  | .parityRotationSwitch => Sys2Proof.Machine.execParityRotationSwitch s
  | .thermalReading => Sys2Proof.Machine.execThermalReading s
  | .powerPacing => Sys2Proof.Machine.execPowerPacing s
  | .flitReceive => Sys2Proof.Machine.execFlitReceive s
  | .linkNakReceive => Sys2Proof.Machine.execLinkNakReceive s
  | .beaconSend => Sys2Proof.Machine.execBeaconSend s
  | .orderedInject => Sys2Proof.Machine.execOrderedInject s
  | .orderedDeliver => Sys2Proof.Machine.execOrderedDeliver s
  | .circuitSlotSend => Sys2Proof.Machine.execCircuitSlotSend s
  | .circuitDeliver => Sys2Proof.Machine.execCircuitDeliver s
  | .receiveRingWrite => Sys2Proof.Machine.execReceiveRingWrite s
  | .portDown => Sys2Proof.Machine.execPortDown s
  | .portTrained => Sys2Proof.Machine.execPortTrained s
  | .portTrainingTimeout => Sys2Proof.Machine.execPortTrainingTimeout s
  | .watermarkStall => Sys2Proof.Machine.execWatermarkStall s
  | .packetHeldTimeout => Sys2Proof.Machine.execPacketHeldTimeout s
  | .podTimeSlew => Sys2Proof.Machine.execPodTimeSlew s
  | .podTimeDrift => Sys2Proof.Machine.execPodTimeDrift s
  | .lockstepSignatureSend => Sys2Proof.Machine.execLockstepSignatureSend s
  | .lockstepSignatureReceive => Sys2Proof.Machine.execLockstepSignatureReceive s
  | .lockstepSignatureTimeout => Sys2Proof.Machine.execLockstepSignatureTimeout s
  | .cxlLinkDown => Sys2Proof.Machine.execCxlLinkDown s
  | .hostCxlMemAccess => Sys2Proof.Machine.execHostCxlMemAccess s
  | .mgmtRegisterWrite => Sys2Proof.Machine.execMgmtRegisterWrite s
  | .ctxwinWrite => Sys2Proof.Machine.execCtxwinWrite s
  | .invselWrite => Sys2Proof.Machine.execInvselWrite s
  | .ckillWrite => Sys2Proof.Machine.execCkillWrite s
  | .domainWrite => Sys2Proof.Machine.execDomainWrite s
  | .keyWrite => Sys2Proof.Machine.execKeyWrite s
  | .dbgcGo => Sys2Proof.Machine.execDbgcGo s
  | .rslenWrite => Sys2Proof.Machine.execRslenWrite s
  | .routineStoreWrite => Sys2Proof.Machine.execRoutineStoreWrite s
  | .attgoWrite => Sys2Proof.Machine.execAttgoWrite s
  | .porterrClear => Sys2Proof.Machine.execPorterrClear s
  | .reset => Sys2Proof.Machine.execReset s
  | .readyBitSet => Sys2Proof.Machine.execReadyBitSet s
  | .cxlCompletionTimeout => Sys2Proof.Machine.execCxlCompletionTimeout s

end Sys2Proof.Machine
end

