-- ==== Sys2Proof/Machine/Step.lean ====
section
/-! DEFINITION. One step of the device: time passes, and the row that the schedule names is performed; and the placing of
a word where the next step fetches its instruction. -/

namespace Sys2Proof.Machine

/-- One step. Where nothing can happen, time alone passes. -/
def step (s : State) : Host.Outcome State Fault Refusal :=
  match nextRow exec (advance exec s) with
  | some (i, s1) => exec i s1
  | none => .next (idle (advance exec s))

/-- The word stands where the next step fetches it: a curd word as the program of tower 0's curd, a walker word at the pc
of tower 0's walker (log 15, log 16). -/
def State.withFetchWord (s : State) (nbits w : Nat) : State := placeWord s nbits w

end Sys2Proof.Machine
end

