-- ==== Sys2Proof/Safety.lean ====
section
/-! DEFINITION. What counts as a safe state: the memory, the poison marks and lane space in their canonical forms, and the
registers that R191 fixes holding what it says. -/

namespace Sys2Proof.Machine

/-- The memory, the poison marks and lane space are in their canonical forms. -/
def State.canonical (s : State) : Prop :=
  Memory.wf s.mem = true ∧ swf (0 : Code) s.poison = true ∧ swf (0 : BitVec 32) s.lanes = true

/-- s0 reads zero and p0 reads one in a set of registers (R191). -/
def Regs.fixed (r : Regs) : Prop := r.s.get 0 = 0 ∧ r.p.getLsbD 0 = true

end Sys2Proof.Machine
end

