-- ==== Sys2Proof/Certificates/Slice0/Obligations.lean ====
section
/-! DEFINITION. The statements for the provers: def Obligations.<Name> : Prop. What they are written with stands in Sys2Proof.Claims
beside them: tables of what the spec gives each instruction, in plain arithmetic, and what a reader of the state sees. -/

open Sys2Proof Sys2Proof.Machine

/-! ### Registers (R191, R192, R205, R206, R208) -/

namespace Sys2Proof.Claims

/-- The value fits the register's width. -/
def fits : RegRef → Vec → Prop
  | .s _, v => v.toNat < 2 ^ 64
  | .p _, v => v.toNat < 2
  | .v _, _ => True
  | .k _, v => v.toNat < 2 ^ 512

/-- No other slot of the group in progress has written the register (R203: a group never writes it twice). -/
def aloneInGroup (k : Core) (x : Fin 8) (ref : RegRef) : Prop := ∀ g ∈ k.group, g.reg = ref → g.slot = x

/-- Every result in flight for the register is of slot x: those of other slots have landed, as R206 has a write wait for them. -/
def ownFlight (k : Core) (x : Fin 8) (ref : RegRef) : Prop := ∀ f ∈ k.regs.fly, f.reg = some ref → f.slot = x

/-- Every register but ref is seen as before by every slot, the broadcast value is as given, and nothing of the core has changed
but register values, results in flight and the group's notes. -/
def onlyWrites (k t : Core) (ref : RegRef) (bc : Word) : Prop :=
  (∀ y r, r ≠ ref → t.regs.seen y r = k.regs.seen y r) ∧ t.regs.bcValue = bc ∧
  t = { k with group := t.group, regs := { k.regs with s := t.regs.s, v := t.regs.v, p := t.regs.p, k := t.regs.k,
                                                       fly := t.regs.fly } }

end Sys2Proof.Claims

/-- R191: s0 reads zero and p0 reads one in every state, whatever a slot reads them; a write to s0 or p0 changes nothing; field 63 of a
scalar source in the V, X, M and E slots reads bc. -/
def Obligations.ConstantRegistersReadFixedAndDiscardWrites : Prop :=
  ∀ (s : State) (x : Fin 8), s.rdS x 0 = 0 ∧ s.rdP x 0 = true ∧ s.rdSB x 63 = s.me.regs.bcValue ∧
    (∀ v, s.resultS x 0 v = s) ∧ (∀ v lat, s.laterS x 0 v lat false = s) ∧ (∀ v lat, s.laterP x 0 v lat false = s)

/-- R206, R208: a write in the C, L, W, M and E slots is seen by every later reader at once; it changes no other register, no broadcast
value and nothing else of the core. -/
def Sys2Proof.Claims.writesWithoutLatencyAreSeenByEveryReader : Prop :=
  ∀ (k : Core) (n : Nat) (x : Fin 8) (ref : RegRef) (v : Vec), ref.constant = false → Claims.fits ref v →
    Claims.aloneInGroup k x ref →
    (∀ y, (k.writeNow n x ref v).regs.seen y ref = v) ∧ Claims.onlyWrites k (k.writeNow n x ref v) ref k.regs.bcValue

/-- R205, R206, R208: a write of latency L in the A, V or X slot is seen by every other slot, which waits for it; by its own slot at the
entries from L on, and not before; a result that drives the broadcast port is what bc reads. -/
def Sys2Proof.Claims.writesWithLatencyKeepTheirWindow : Prop :=
  ∀ (k : Core) (n : Nat) (x : Fin 8) (ref : RegRef) (v : Vec) (lat : Nat) (bc : Bool), ref.constant = false →
    Claims.fits ref v → Claims.aloneInGroup k x ref → Claims.ownFlight k x ref →
    let t := k.writeLater n x ref v lat bc
    (∀ y, y ≠ x → t.regs.seen y ref = v) ∧
    (∀ m, lat ≤ m → (t.regs.landWithin m).seen x ref = v) ∧
    (∀ m, m < lat → (t.regs.landWithin m).seen x ref = (k.regs.landWithin m).seen x ref) ∧
    Claims.onlyWrites k t ref (if bc then v.setWidth 64 else k.regs.bcValue)

/-! ### The A slot (R244 to R247) -/

namespace Sys2Proof.Claims

/-- R244, R245: what an instruction that writes s[d] from s[a] and s[b] computes, and its latency (R204). -/
def scalarTable : Instr → Option (OpT × (Word → Word → Word) × Nat)
  | .aAdd o => some (o, fun x y => BitVec.ofNat 64 (x.toNat + y.toNat), 1)
  | .aSub o => some (o, fun x y => BitVec.ofInt 64 (x.toInt - y.toInt), 1)
  | .aAnd o => some (o, fun x y => x &&& y, 1)
  | .aOr o => some (o, fun x y => x ||| y, 1)
  | .aXor o => some (o, fun x y => x ^^^ y, 1)
  | .aAndn o => some (o, fun x y => x &&& ~~~y, 1)
  | .aOrn o => some (o, fun x y => x ||| ~~~y, 1)
  | .aXnor o => some (o, fun x y => ~~~x ^^^ y, 1)
  | .aShl o => some (o, fun x y => BitVec.ofNat 64 (x.toNat * 2 ^ (y.toNat % 64)), 1)
  | .aShr o => some (o, fun x y => BitVec.ofNat 64 (x.toNat / 2 ^ (y.toNat % 64)), 1)
  | .aSra o => some (o, fun x y => x.sshiftRight (y.toNat % 64), 1)
  | .aRor o => some (o, fun x y => x.rotateRight (y.toNat % 64), 1)
  | .aMin o => some (o, fun x y => if x.toInt ≤ y.toInt then x else y, 1)
  | .aMax o => some (o, fun x y => if x.toInt ≤ y.toInt then y else x, 1)
  | .aMinu o => some (o, fun x y => if x.toNat ≤ y.toNat then x else y, 1)
  | .aMaxu o => some (o, fun x y => if x.toNat ≤ y.toNat then y else x, 1)
  | .aAdds o sh => some (o, fun x y => BitVec.ofNat 64 (x.toNat + y.toNat * 2 ^ sh.toNat), 1)
  | .aMul o => some (o, fun x y => BitVec.ofInt 64 (x.toInt * y.toInt), 3)
  | .aMulh o => some (o, fun x y => (x.signExtend 128 * y.signExtend 128).extractLsb' 64 64, 3)
  | .aMulhu o => some (o, fun x y => (x.setWidth 128 * y.setWidth 128).extractLsb' 64 64, 3)
  | .aDiv o => some (o, fun x y => if y = 0 then BitVec.allOnes 64 else x.sdiv y, 12)
  | .aDivu o => some (o, fun x y => if y = 0 then BitVec.allOnes 64 else x / y, 12)
  | .aRem o => some (o, fun x y => if y = 0 then x else x.srem y, 12)
  | .aRemu o => some (o, fun x y => if y = 0 then x else x % y, 12)
  | _ => none

/-- R246: what a compare writes to p[d]. -/
def compareTable : Instr → Option (OpT × (Word → Word → Bool))
  | .aCeq o => some (o, fun x y => decide (x = y))
  | .aCne o => some (o, fun x y => decide (x ≠ y))
  | .aClt o => some (o, fun x y => decide (x.toInt < y.toInt))
  | .aCge o => some (o, fun x y => decide (y.toInt ≤ x.toInt))
  | .aCltu o => some (o, fun x y => decide (x.toNat < y.toNat))
  | .aCgeu o => some (o, fun x y => decide (y.toNat ≤ x.toNat))
  | .aCtst o => some (o, fun x y => (List.range 64).any fun n => x.getLsbD n && y.getLsbD n)
  | .aCntst o => some (o, fun x y => (List.range 64).all fun n => !(x.getLsbD n && y.getLsbD n))
  | _ => none

/-- R246: what a predicate operation writes to p[d]. -/
def predicateTable : Instr → Option (OpT × (Bool → Bool → Bool))
  | .aPand o => some (o, fun x y => x && y)
  | .aPor o => some (o, fun x y => x || y)
  | .aPxor o => some (o, fun x y => x != y)
  | .aPandn o => some (o, fun x y => x && !y)
  | _ => none

/-- R246: the counts over the bits of s[a]. -/
def countTable : Instr → Option (OpT × (Word → Nat))
  | .aClz o => some (o, fun x => ((List.range 64).takeWhile fun n => !x.getLsbD (63 - n)).length)
  | .aCtz o => some (o, fun x => ((List.range 64).takeWhile fun n => !x.getLsbD n).length)
  | .aPopc o => some (o, fun x => ((List.range 64).filter fun n => x.getLsbD n).length)
  | _ => none

/-- R247: what an immediate form writes to s[d] from s[a] and its immediate. -/
def immediateTable : Instr → Option (OpI × (Word → BitVec 9 → Word))
  | .aAddi o => some (o, fun x i => BitVec.ofInt 64 (x.toInt + i.toInt))
  | .aAndi o => some (o, fun x i => x &&& i.signExtend 64)
  | .aOri o => some (o, fun x i => x ||| i.signExtend 64)
  | .aXori o => some (o, fun x i => x ^^^ i.signExtend 64)
  | .aShli o => some (o, fun x i => BitVec.ofNat 64 (x.toNat * 2 ^ i.toNat))
  | .aShri o => some (o, fun x i => BitVec.ofNat 64 (x.toNat / 2 ^ i.toNat))
  | .aSrai o => some (o, fun x i => x.sshiftRight i.toNat)
  | _ => none

/-- R247: what an immediate compare writes to p[d]. -/
def immediateCompareTable : Instr → Option (OpI × (Word → BitVec 9 → Bool))
  | .aCeqi o => some (o, fun x i => decide (x.toInt = i.toInt))
  | .aClti o => some (o, fun x i => decide (x.toInt < i.toInt))
  | .aCltui o => some (o, fun x i => decide (x.toNat < (i.signExtend 64).toNat))
  | _ => none

end Sys2Proof.Claims

/-- R244, R245, R192, R204: each register form of the A slot completes; under a true guard s[d] receives the table's value with
the table's latency, under a false guard nothing changes. Division by zero gives all ones, or x as the remainder. -/
def Sys2Proof.Claims.scalarRegisterFormsCompute : Prop :=
  ∀ (i : Instr) (o : OpT) (f : Word → Word → Word) (lat : Nat) (s : State), Claims.scalarTable i = some (o, f, lat) →
    exec i s = .next (if s.guard slotA o.g then
      s.resultA (.s o.d) ((f (s.rdS slotA o.a) (s.rdS slotA o.b)).setWidth 4096) lat else s)

/-- R246: each compare, predicate operation and count of the A slot completes, with its value in p[d] or s[d]; a.sel selects by p[g]
and takes effect whatever p[g] is. -/
def Sys2Proof.Claims.scalarComparesAndCounts : Prop :=
  (∀ (i : Instr) (o : OpT) (r : Word → Word → Bool) (s : State), Claims.compareTable i = some (o, r) →
    exec i s = .next (if s.guard slotA o.g then
      s.resultA (predRef s o.d) (ofBool (r (s.rdS slotA o.a) (s.rdS slotA o.b))) 1 else s)) ∧
  (∀ (i : Instr) (o : OpT) (f : Bool → Bool → Bool) (s : State), Claims.predicateTable i = some (o, f) →
    exec i s = .next (if s.guard slotA o.g then
      s.resultA (predRef s o.d) (ofBool (f (s.rdP slotA (o.a.setWidth 4)) (s.rdP slotA (o.b.setWidth 4)))) 1
      else s)) ∧
  (∀ (i : Instr) (o : OpT) (f : Word → Nat) (s : State), Claims.countTable i = some (o, f) →
    exec i s = .next (if s.guard slotA o.g then
      s.resultA (.s o.d) ((BitVec.ofNat 64 (f (s.rdS slotA o.a))).setWidth 4096) 1 else s)) ∧
  (∀ (o : OpT) (s : State), exec (.aSel o) s = .next
    (s.resultA (.s o.d) ((s.rdS slotA (if s.rdP slotA o.g then o.a else o.b)).setWidth 4096) 1))

/-- R247: each well-formed immediate form of the A slot completes with the table's value; a.movi and a.cat always take effect. -/
def Sys2Proof.Claims.scalarImmediateFormsCompute : Prop :=
  (∀ (i : Instr) (o : OpI) (f : Word → BitVec 9 → Word) (s : State), Claims.immediateTable i = some (o, f) →
    i.wellFormed = true →
    exec i s = .next (if s.guard slotA o.g then
      s.resultA (.s o.d) ((f (s.rdS slotA o.a) o.imm).setWidth 4096) 1 else s)) ∧
  (∀ (i : Instr) (o : OpI) (r : Word → BitVec 9 → Bool) (s : State), Claims.immediateCompareTable i = some (o, r) →
    exec i s = .next (if s.guard slotA o.g then
      s.resultA (predRef s o.d) (ofBool (r (s.rdS slotA o.a) o.imm)) 1 else s)) ∧
  (∀ (o : OpJ) (s : State), exec (.aMovi o) s = .next
    (s.resultA (.s o.d) ((BitVec.ofInt 64 o.imm.toInt).setWidth 4096) 1)) ∧
  (∀ (o : OpJ) (s : State), exec (.aCat o) s = .next
    (s.resultA (.s o.d) ((BitVec.ofNat 64 ((s.rdS slotA o.d).toNat * 2 ^ 19 + o.imm.toNat)).setWidth 4096) 1))

/-! ### The C slot (R226 to R241) -/

namespace Sys2Proof.Claims

/-- The next bundle of bundle cur is target, by a taken control transfer. -/
def jumped (cur : Current) (target : Word) : Current := { cur with next := target, taken := true }

/-- R226: whether a conditional branch is taken, and how many bundles away its target lies. -/
def branchTable (s : State) : Instr → Option (Bool × Int)
  | .cBr o => some (s.rdP slotC o.p != (o.neg == 1), o.off.toInt)
  | .cBsz o => some (s.rdS slotC o.a == 0, o.off.toInt)
  | .cBsnz o => some (s.rdS slotC o.a != 0, o.off.toInt)
  | _ => none

/-- The core after control has gone to the target: the bodies left are popped (R232), and the bundle's next is the target. -/
def branched (k : Core) (cur : Current) (target : Word) : Core :=
  { k with regs := loopExit cur.pc target 4 k.regs, current := some (jumped cur target) }

/-- The core after a call to the target: the link has been pushed, the oldest of 16 dropped (R227). -/
def called (k : Core) (cur : Current) (target : Word) : Core :=
  { k with returns := ((cur.pc + 32) :: k.returns).take 16, current := some (jumped cur target) }

/-- What entry to a loop body changes of a set of registers: the pushed entry, DEPTH and the stage predicates. -/
def entered (r t : Regs) (cnt : Word) (add : Word) : Prop :=
  loopDepth t = loopDepth r + 1 ∧ t.lcnt = r.lcnt.setIfInBounds (loopDepth r) cnt ∧
  t.ladd = r.ladd.setIfInBounds (loopDepth r) add ∧
  t = { r with p := t.p, fly := t.fly, lcnt := t.lcnt, ladd := t.ladd, ldep := t.ldep }

/-- The control registers that software writes and that store what they are given: NFLAGS, SRSEED, SRSTR, RETRY, TRAPV, TRET, STATW, LCNT0 to
LCNT3, LADD0 to LADD3, NEST0 to NEST5 (R237). -/
def plainRegisters : List Nat :=
  [0x004, 0x007, 0x008, 0x009, 0x00A, 0x00B, 0x00E, 0x01C, 0x01D, 0x01E, 0x01F, 0x020, 0x021, 0x022, 0x023,
   0x028, 0x029, 0x02A, 0x02B, 0x02C, 0x02D]

/-- The RW bits of those registers. -/
def rwBit (n b : Nat) : Bool :=
  if n = 0x004 then decide (16 ≤ b) && decide (b ≤ 21)
  else if n = 0x009 then decide (b ≤ 15) || (decide (20 ≤ b) && decide (b ≤ 23))
  else if n = 0x00A || n = 0x00B then b = 0 || decide (5 ≤ b)
  else if decide (0x01C ≤ n) && decide (n ≤ 0x01F) then decide (12 ≤ b)
  else if decide (0x020 ≤ n) && decide (n ≤ 0x023) then decide (5 ≤ b)
  else true

/-- Their W1C bits: the flags of NFLAGS. -/
def w1cBit (n b : Nat) : Bool := n = 0x004 && decide (b ≤ 5)

/-- What such a register reads as when w is written: a BASE of 0 in RETRY reads as 16, a CAPX above 10 as 10 (R150). -/
def readsAs (n : Nat) (w : Word) : Word :=
  let base := w.toNat % 2 ^ 16
  let capx := w.toNat / 2 ^ 20 % 16
  if n = 0x009 then BitVec.ofNat 64 (w.toNat - base - capx * 2 ^ 20 + (if base = 0 then 16 else base) + min 10 capx * 2 ^ 20) else w

/-- The index of dimension x in the iteration just ended: the digit of T - 1 - REM over the bounds, n0 least significant (R231). -/
def nestIndex (r : Regs) (cnt : Word) (x : Nat) : Nat :=
  (nestTotal r (lcntEpd cnt) - 1 - lcntRem cnt) / ((List.range x).map fun y => nestBound (nestReg r y)).foldl (fun p q => p * q) 1
    % nestBound (nestReg r x)

/-- x is the lowest dimension whose index is below BOUND - 1 (R231). -/
def dimensionSteps (r : Regs) (cnt : Word) (x : Nat) : Prop :=
  nestIndex r cnt x + 1 < nestBound (nestReg r x) ∧
  ∀ y, y < x → ¬ nestIndex r cnt y + 1 < nestBound (nestReg r y)

end Sys2Proof.Claims

/-- R226, R232: a conditional branch of bundle pc is taken when its condition holds, to pc + 32 × offset, and leaves the loop bodies
that it branches out of; otherwise nothing changes. -/
def Sys2Proof.Claims.branchesGoWhereTheOffsetSays : Prop :=
  ∀ (s : State) (cur : Current) (i : Instr) (take : Bool) (off : Int), s.me.current = some cur →
    Claims.branchTable s i = some (take, off) →
    exec i s = .next (if take then s.setMe (Claims.branched s.me cur (cur.pc + BitVec.ofInt 64 (32 * off))) else s)

/-- R227: calls write the link pc + 32, push it on the call-return stack and jump; c.jr and c.ret jump to s[a], c.ret popping the stack;
a register target that is no bundle address faults with 0x0112 and next is not taken; a false guard changes nothing. -/
def Sys2Proof.Claims.callsAndRegisterJumpsTransferControl : Prop :=
  ∀ (s : State) (cur : Current), s.me.current = some cur →
    (∀ o : OpJ, exec (.cCall o) s = .next
      (s.setMe (Claims.called (s.resultS slotC o.d (cur.pc + 32)).me cur (cur.pc + BitVec.ofInt 64 (32 * o.imm.toInt))))) ∧
    (∀ o : OpT, s.guard slotC o.g = true → (s.rdS slotC o.a).toNat % 32 = 0 →
      exec (.cJr o) s = .next (s.setMe (Claims.branched s.me cur (s.rdS slotC o.a))) ∧
      exec (.cCallr o) s = .next (s.setMe (Claims.called (s.resultS slotC o.d (cur.pc + 32)).me cur (s.rdS slotC o.a))) ∧
      exec (.cRet o) s = .next (s.setMe { s.me with
        returns := s.me.returns.drop 1, current := some (Claims.jumped cur (s.rdS slotC o.a)) })) ∧
    (∀ o : OpT, s.guard slotC o.g = true → (s.rdS slotC o.a).toNat % 32 ≠ 0 → ∀ i ∈ [Instr.cJr o, .cCallr o, .cRet o],
      exec i s = .next (s.slotFault slotC 0x0112)) ∧
    (∀ o : OpT, s.guard slotC o.g = false → ∀ i ∈ [Instr.cJr o, .cCallr o, .cRet o], exec i s = .next s)

/-- R229: c.loop of bundle pc with N = s[a], E = d and LEN = imm: with DEPTH below 4 and 0 < N + E < 2^32 it pushes REM = N + E - 1, V,
NST = 0, EPD, LEN and ADD = pc + 32, and writes p8 = (N > 0) and p9 to p15 = 0 by their logical numbers, seen by every slot; an empty
count skips the body; DEPTH = 4 faults with 0x0114 before a count of 2^32 or more faults with 0x0115; a false guard changes nothing. -/
def Sys2Proof.Claims.countedLoopsPushTheirEntry : Prop :=
  ∀ (s : State) (cur : Current) (o : OpI), s.me.current = some cur → o.d.toNat < 8 →
    (s.guard slotC o.g = false → exec (.cLoop o) s = .next s) ∧
    (s.guard slotC o.g = true → loopDepth s.me.regs = 4 → exec (.cLoop o) s = .next (s.slotFault slotC 0x0114)) ∧
    (s.guard slotC o.g = true → loopDepth s.me.regs < 4 →
      let total := (s.rdS slotC o.a).toNat + o.d.toNat
      (2 ^ 32 ≤ total → exec (.cLoop o) s = .next (s.slotFault slotC 0x0115)) ∧
      (total = 0 → exec (.cLoop o) s = .next
        (s.setMe { s.me with current := some { cur with next := cur.pc + BitVec.ofNat 64 (32 * (o.imm.toNat + 1)) } })) ∧
      (0 < total → total < 2 ^ 32 → ∃ r, exec (.cLoop o) s = .next (s.setMe { s.me with regs := r }) ∧
        Claims.entered s.me.regs r (mkLcnt (total - 1) false o.d.toNat 0 o.imm.toNat) (cur.pc + 32) ∧
        (∀ y, r.seen y (.p (pphys r.rot 8)) = ofBool (decide (0 < (s.rdS slotC o.a).toNat))) ∧
        (∀ y n, 9 ≤ n → n ≤ 15 → r.seen y (.p (pphys r.rot (BitVec.ofNat 4 n))) = 0) ∧
        (∀ y n, n < 8 → r.seen y (.p (BitVec.ofNat 4 n)) = s.me.regs.seen y (.p (BitVec.ofNat 4 n)))))

/-- R231: c.nest of bundle pc over n0 to n[d] with T the product of the bounds: with DEPTH below 4 and 0 < T < 2^32 it pushes
REM = T - 1, V, NST = 1, EPD = d, CUR = a, LEN and ADD = pc + 32 and writes no predicate; T = 0 skips the body; DEPTH = 4 faults with
0x0114 before a T of 2^32 or more faults with 0x0115; a false guard changes nothing. -/
def Sys2Proof.Claims.nestsPushTheirEntry : Prop :=
  ∀ (s : State) (cur : Current) (o : OpI), s.me.current = some cur → o.d.toNat ≤ 5 →
    (s.guard slotC o.g = false → exec (.cNest o) s = .next s) ∧
    (s.guard slotC o.g = true → loopDepth s.me.regs = 4 → exec (.cNest o) s = .next (s.slotFault slotC 0x0114)) ∧
    (s.guard slotC o.g = true → loopDepth s.me.regs < 4 →
      let total := ((s.me.regs.n.toList.take (o.d.toNat + 1)).map fun w => w.toNat % 2 ^ 24).foldl (fun x y => x * y) 1
      (2 ^ 32 ≤ total → exec (.cNest o) s = .next (s.slotFault slotC 0x0115)) ∧
      (total = 0 → exec (.cNest o) s = .next
        (s.setMe { s.me with current := some { cur with next := cur.pc + BitVec.ofNat 64 (32 * (o.imm.toNat + 1)) } })) ∧
      (0 < total → total < 2 ^ 32 → ∃ r, exec (.cNest o) s = .next (s.setMe { s.me with regs := r }) ∧
        Claims.entered s.me.regs r (mkLcnt (total - 1) true o.d.toNat o.a.toNat o.imm.toNat) (cur.pc + 32) ∧
        r.p = s.me.regs.p ∧ r.fly = s.me.regs.fly))

/-- R229, R231: the loop-back of the top entry at the last bundle of its body. With REM > 0 it goes to ADD and REM falls by one; a c.loop
entry rotates VB and PB by R210 and writes logical p8 = (REM >= EPD) after the decrement; a c.nest entry adds the strides of the
dimension that steps to its two cursors; with REM = 0 the entry is popped and, where no
outer body ends there, the next bundle follows. -/
def Sys2Proof.Claims.loopBackDecrementsRotatesAndReturns : Prop :=
  ∀ (r : Regs) (pc : Word), 0 < loopDepth r → loopDepth r ≤ 4 →
    let i := loopDepth r - 1
    let cnt := loopCnt r i
    let add := loopAdd r i
    add.toNat % 32 = 0 → pc = add + BitVec.ofNat 64 (32 * (lcntLen cnt - 1)) →
    (0 < lcntRem cnt → lcntNst cnt = false →
      let t := (loopBack pc 4 r).2
      (loopBack pc 4 r).1 = add ∧ loopDepth t = loopDepth r ∧ lcntRem (loopCnt t i) = lcntRem cnt - 1 ∧
      rotVB t.rot = (rotVB r.rot + 31) % 32 ∧ rotPB t.rot = (rotPB r.rot + 7) % 8 ∧
      (∀ y, t.seen y (.p (pphys t.rot 8)) = ofBool (decide (lcntEpd cnt ≤ lcntRem cnt - 1))) ∧ t.s = r.s ∧ t.v = r.v) ∧
    (0 < lcntRem cnt → lcntNst cnt = true →
      let t := (loopBack pc 4 r).2
      (loopBack pc 4 r).1 = add ∧ loopDepth t = loopDepth r ∧ lcntRem (loopCnt t i) = lcntRem cnt - 1 ∧
      t.rot = r.rot ∧ t.p = r.p ∧ t.v = r.v ∧
      (∀ x a, lcntCur cnt = a → 0 < a → a < 63 → x ≤ lcntEpd cnt → lcntEpd cnt ≤ 5 → Claims.dimensionSteps r cnt x →
        (∀ f ∈ r.fly, f.reg = none) → ∀ y,
        t.seen y (.s (BitVec.ofNat 6 a)) = ((r.s.toList.getD a 0 + ((nestReg r x).extractLsb' 24 20).signExtend 64).setWidth 4096) ∧
        t.seen y (.s (BitVec.ofNat 6 (a + 1))) =
          ((r.s.toList.getD (a + 1) 0 + ((nestReg r x).extractLsb' 44 20).signExtend 64).setWidth 4096))) ∧
    (lcntRem cnt = 0 → loopDepth r = 1 → (loopBack pc 4 r).1 = pc + 32 ∧ loopDepth (loopBack pc 4 r).2 = 0 ∧
      (loopBack pc 4 r).2.p = r.p ∧ (loopBack pc 4 r).2.rot = r.rot)

/-- R233: a wait whose condition holds at issue, where operands combined for its word have been applied (R79), completes with its result: c.waitt with PODTIME, c.waitq with the count of the queue, at
most 65,535, c.waitr with the 4-byte word at its home, c.waitb with ERR and a full acquire that its bundle performs as it commits. In a deterministic instance c.waitr and c.waitb
fault with 0x0311 (R390), and misaligned addresses fault with 0x0113; a reserved selector of c.waitq faults with 0x0122. -/
def Sys2Proof.Claims.waitsCompleteWhenTheirConditionHolds : Prop :=
  ∀ (s : State) (o : OpT), s.guard slotC o.g = true →
    let a := s.rdS slotC o.a
    let b := s.rdS slotC o.b
    (a.toNat ≤ s.hub.podTime.toNat → exec (.cWaitt o) s = .next (s.resultS slotC o.d s.hub.podTime)) ∧
    (a.toNat % 8 < 4 → a.toNat / 8 % 32 = 0 → a.toNat / 2 ^ 16 = 0 → 0 < queueCount s s.now.core a →
      exec (.cWaitq o) s = .next (s.resultS slotC o.d (BitVec.ofNat 64 (min (queueCount s s.now.core a) 65535)))) ∧
    (4 ≤ a.toNat % 8 → exec (.cWaitq o) s = .next (s.slotFault slotC 0x0122)) ∧
    (detCore s s.now.core = true → exec (.cWaitr o) s = .next (s.slotFault slotC 0x0311) ∧
      exec (.cWaitb o) s = .next (s.slotFault slotC 0x0311)) ∧
    (detCore s s.now.core = false →
      (a.toNat % 4 ≠ 0 → exec (.cWaitr o) s = .next (s.slotFault slotC 0x0113)) ∧
      (a.toNat % 8 ≠ 0 → exec (.cWaitb o) s = .next (s.slotFault slotC 0x0113)) ∧
      (∀ e key s0, reachHome s s.now.core a false = (.ok e, key, s0) →
        (a.toNat % 4 = 0 → let s1 := touchHome s0 key 4 false
          poisonOf s1 key 4 = none → readNat s1 key 4 ≠ b.toNat % 2 ^ 32 →
          exec (.cWaitr o) s = .next (s1.resultS slotC o.d (BitVec.ofNat 64 (readNat s1 key 4)))) ∧
        (a.toNat % 8 = 0 → let s1 := touchHome s0 key 8 false
          poisonOf s1 key 8 = none → barPhase (readWord s1 key) ≠ b.toNat % 256 →
          exec (.cWaitb o) s = .next (
            let u := s1.resultS slotC o.d (if barErr (readWord s1 key) then 1 else 0)
            u.setMe (u.me.mapCurrent fun cur => { cur with acquire := true })))))

/-- R234: a wait whose condition fails on a bundle without YIELD stalls its core with the object it waits for; a stalled wait whose
condition has come to hold completes with its result and the stall is over, and while it fails nothing changes. -/
def Sys2Proof.Claims.waitsStallInPlaceUntilSatisfied : Prop :=
  (∀ (s : State) (o : OpT), s.guard slotC o.g = true → s.yieldBit = false →
    s.hub.podTime.toNat < (s.rdS slotC o.a).toNat →
    exec (.cWaitt o) s = .next (s.setMe { s.me with
      stall := some { kind := waitTime, obj := s.rdS slotC o.a, arg := 0, key := 0, slot := slotC, dst := o.d } })) ∧
  (∀ (s : State) (w : Wait) (v : Word), s.me.stall = some w → waitResult s s.now.core w = some v → w.kind ≠ waitBarrier →
    exec .stalledWaitSatisfied s = .next ((s.setMe { s.me with stall := none }).resultS w.slot w.dst v)) ∧
  (∀ (s : State) (w : Wait), s.me.stall = some w → waitResult s s.now.core w = none → w.kind < 7 →
    exec .stalledWaitSatisfied s = .next s)

/-- R235, R236: c.rcr writes the control register's value to s[d]; c.wcr, c.scr and c.ccr keep their write, with the source as it was at
issue, for the commit of their bundle, and a nest register that a valid c.nest entry uses faults with 0x0116 instead (R231). -/
def Sys2Proof.Claims.controlRegisterInstructionsReadAndDefer : Prop :=
  ∀ (s : State) (cur : Current) (o : OpJ), s.me.current = some cur →
    exec (.cRcr o) s = .next (s.resultS slotC o.d (readCr s s.now.core o.imm.toNat)) ∧
    (nestInUse s.me.regs o.imm.toNat = false → ∀ p ∈ [(Instr.cWcr o, 0x0B), (.cScr o, 0x0C), (.cCcr o, 0x0D)],
      exec p.1 s = .next (s.setMe { s.me with
        current := some { cur with crWrites := cur.crWrites ++ [(p.2, o.imm.toNat, s.rdS slotC o.d)] } })) ∧
    (nestInUse s.me.regs o.imm.toNat = true → ∀ i ∈ [Instr.cWcr o, .cScr o, .cCcr o],
      exec i s = .next (s.slotFault slotC 0x0116))

/-- R236, with the fields of R103, R182, R228, R230, R239, R240 and R269: what c.wcr (0x0B), c.scr (0x0C) and c.ccr (0x0D) leave in each
bit of a control register: RW bits take, gain or lose the source's ones, W1C bits fall where c.wcr or c.ccr give a one, every other bit
stays; RETRY reads back as R150 says; and no other of these registers changes. -/
def Sys2Proof.Claims.controlRegisterWritesFollowFieldAccess : Prop :=
  ∀ (s : State) (c : CoreId) (op n : Nat) (src : Word), op ∈ [0x0B, 0x0C, 0x0D] → n ∈ Claims.plainRegisters →
    (∃ w : Word, readCr (applyCr s c op n src) c n = Claims.readsAs n w ∧ ∀ b, b < 64 → w.getLsbD b =
      (let old := (readCr s c n).getLsbD b
       let one := src.getLsbD b
       if Claims.rwBit n b then (if op = 0x0B then one else if op = 0x0C then old || one else old && !one)
       else if Claims.w1cBit n b then (if op = 0x0C then old else old && !one)
       else old)) ∧
    (∀ m ∈ Claims.plainRegisters, m ≠ n → readCr (applyCr s c op n src) c m = readCr s c m) ∧
    (applyCr s c op n src).mem = s.mem

/-- R238, R240, R241: c.spop moves the head record into four scalars, or zeros from an empty queue; c.trap with EN = 1 and ACT = 0 saves NUM
and the return bundle and goes to the handler, without a handler it faults with 0x0117 and inside one with 0x0118; c.brk and c.halt mark the
bundle in progress, to take effect at its commit. -/
def Sys2Proof.Claims.trapsBreaksAndStatisticsPops : Prop :=
  ∀ (s : State) (cur : Current), s.me.current = some cur →
    (∀ (o : OpT) (r : BitVec 256) (rs : List (BitVec 256)), s.guard slotC o.g = true → s.me.stats = r :: rs →
      exec (.cSpop o) s = .next ((((
        (s.setMe { s.me with stats := rs, current := some { cur with pops := cur.pops ++ [.statRecord r] } }).resultS slotC o.d
          (r.extractLsb' 0 64)).resultS slotC (o.d + 1) (r.extractLsb' 64 64)).resultS slotC (o.d + 2)
          (r.extractLsb' 128 64)).resultS slotC (o.d + 3) (r.extractLsb' 192 64))) ∧
    (∀ o : OpT, s.guard slotC o.g = true → s.me.stats = [] → exec (.cSpop o) s = .next
      ((((s.resultS slotC o.d 0).resultS slotC (o.d + 1) 0).resultS slotC (o.d + 2) 0).resultS slotC (o.d + 3) 0)) ∧
    (∀ o : OpJ, s.me.regs.trapv.getLsbD 0 = true → s.me.regs.tret.getLsbD 0 = false → exec (.cTrap o) s = .next
      (s.setMe { s.me with
        regs := { s.me.regs with targ := (o.imm.setWidth 16).setWidth 64, tret := (cur.pc + 32) ||| 1 },
        current := some (Claims.jumped cur (s.me.regs.trapv >>> 5 <<< 5)) })) ∧
    (∀ o : OpJ, s.me.regs.trapv.getLsbD 0 = false → exec (.cTrap o) s = .next (s.slotFault slotC 0x0117)) ∧
    (∀ o : OpJ, s.me.regs.trapv.getLsbD 0 = true → s.me.regs.tret.getLsbD 0 = true →
      exec (.cTrap o) s = .next (s.slotFault slotC 0x0118)) ∧
    (∀ o : OpJ, exec (.cBrk o) s = .next (s.setMe { s.me with current := some { cur with ending := .brk (o.imm.setWidth 16) } })) ∧
    (∀ o : OpT, exec (.cHalt o) s = .next (if s.guard slotC o.g then
      s.setMe { s.me with current := some { cur with ending := .halt } } else s))

/-! ### Tensor operands and the L slot (R45, R220, R249 to R261) -/

namespace Sys2Proof.Claims

/-- The coordinates lie inside the descriptor's dimensions (R45). -/
def inside (d : BitVec 512) (c : Nat → Nat) : Prop := ∀ k, k < dRank d → c k < dDim d k

/-- The bits of w low bits of a number in two's complement, as a scalar. -/
def signExtended (w x : Nat) : Word := BitVec.ofInt 64 (BitVec.ofNat w x).toInt

/-- The formats whose elements a scalar load extends with their sign: INT2, INT4, INT8, INT16, INT32 and ternary (R87, R255). -/
def signedFormats : List Nat := [0x10, 0x11, 0x12, 0x13, 0x14, 0x17]

/-- A load through the operand of o in slot L, as it is outstanding, under the version of the slice map as it stands (R40). -/
def elementLoad (s : State) (o : OpH) (p : Operand) (e : BitVec 64) (inv : Bool) : Load :=
  { slot := slotL, bundle := s.bundlePc, dst := o.d, inv := inv, mapv := (s.tower (towerOf s.now.core)).mapv,
    data := .element { tid := p.tid, tile := p.tile, tte := e } p.bit p.width
      (match p.fmt with | some f => signedFormats.contains f | none => false) }

/-- Nothing of the core's architectural state has changed: registers, bundle in progress, queues, gate and outstanding loads; no byte of
memory at its home, and no event is due. -/
def untouched (s t : State) : Prop :=
  t.me.regs = s.me.regs ∧ t.me.current = s.me.current ∧ t.me.loads = s.me.loads ∧ t.me.gate = s.me.gate ∧
  t.me.rows = s.me.rows ∧ t.agenda = s.agenda ∧ t.now = s.now

/-- The byte at key a belongs to a word with combined operands that have not been applied yet (R79). -/
def combining (s : State) (a : Nat) : Prop := ∃ t : TowerId, ∃ c ∈ (s.tower t).combine, c.key ≤ a ∧ a < c.key + 8

end Sys2Proof.Claims

/-- R45: coordinates inside a tensor's dimensions have an address; one outside any dimension has none; and two different elements of a
tensor never share tile and bit offset. -/
def Obligations.DistinctElementsHaveDistinctPlaces : Prop :=
  ∀ (d : BitVec 512) (c : Nat → Nat),
    (Claims.inside d c → (tileAddress d c).isSome = true) ∧ (¬ Claims.inside d c → tileAddress d c = none) ∧
    (∀ c', Claims.inside d c → Claims.inside d c' → tileAddress d c = tileAddress d c' → ∀ k, k < dRank d → c k = c' k)

/-- R220, R249, R250: how a tensor operand is evaluated: through a handle, the coordinates are those of s(cb + RANK - 1 - d), 0 where zm says
so; a RANK of 0 or 7 faults with 0x011A, registers beyond s63 with 0x011B; in the V, X, M and E slots 63 names bc (R191); through h0 the coordinate is a byte address, an access of 2^W
bytes, and a misaligned address faults with 0x0113. -/
def Sys2Proof.Claims.operandsAreEvaluatedFromHandleAndCoordinates : Prop :=
  ∀ (s : State) (x : Fin 8) (h : BitVec 5) (cb : BitVec 6) (zm : BitVec 4) (vec : Bool),
    let d : BitVec 512 := (s.rdH h).setWidth 512
    let reg : BitVec 6 → Word := fun n => if 4 ≤ x.val ∧ n = 63 then s.me.regs.bcValue else s.rdS x n
    let c : Nat → Nat := fun k => if k < 4 ∧ zm.getLsbD k = true then 0 else (reg (BitVec.ofNat 6 (cb.toNat + dRank d - 1 - k))).toNat
    (h ≠ 0 → dRank d = 0 ∨ dRank d = 7 → evaluate s x h cb zm vec = .precise 0x011A) ∧
    (h ≠ 0 → 1 ≤ dRank d → dRank d ≤ 6 → 64 ≤ cb.toNat + dRank d - 1 → evaluate s x h cb zm vec = .precise 0x011B) ∧
    (h ≠ 0 → 1 ≤ dRank d → dRank d ≤ 6 → cb.toNat + dRank d - 1 < 64 →
      evaluate s x h cb zm vec = (match tileAddress d c with
        | some a => .at { desc := some d, tid := dTid d, tile := a.1, bit := a.2, width := 2 ^ dEsize d, fmt := some (dFmt d), c0 := c 0 }
        | none => .outside)) ∧
    (h = 0 →
      let a := if zm.getLsbD 0 then 0 else (reg cb).toNat
      let w := zm.toNat / 4
      (a % (if vec then 4 else 2 ^ w) ≠ 0 → evaluate s x h cb zm vec = .precise 0x0113) ∧
      (a % (if vec then 4 else 2 ^ w) = 0 → evaluate s x h cb zm vec =
        .at { desc := none, tid := 0, tile := a / 2 ^ 16, bit := 8 * (a % 2 ^ 16), width := 8 * 2 ^ w, fmt := none, c0 := a }))

/-- R254, R255, R256: l.lde, l.ldei, l.ldv and l.ldvi under a true guard, with an operand that is evaluated and reached, leave one outstanding
load of the operand's element or of the row's lanes; they change no register, no gate entry and no byte of memory. A coordinate outside its
dimension is refused with 0x1201, a false guard changes nothing. -/
def Sys2Proof.Claims.loadsBecomeOutstanding : Prop :=
  (∀ (s s1 : State) (o : OpH) (p : Operand) (e : BitVec 64), s.guard slotL o.g = true →
    evaluate s slotL o.h o.cb o.zm false = .at p → reachTile s s.now.core p.desc p.tile p.fmt false = (.ok e, s1) →
    ∀ q ∈ [(Instr.lLde o, false), (.lLdei o, true)],
      exec q.1 s = .next ((s1.setMe { s1.me with loads := s1.me.loads ++ [Claims.elementLoad s1 o p e q.2] }).due
        .loadDataReturn (onCore s.now.core)) ∧
      s1.me.regs = s.me.regs ∧ s1.me.gate = s.me.gate ∧ (∀ a, readByte s1 a = readByte s a)) ∧
  (∀ (s s1 : State) (o : OpH) (p : Operand) (e : BitVec 64) (n : Nat) (places : List (Nat × Place × Nat)),
    s.vectorGuard slotL o.g = true → evaluate s slotL o.h o.cb o.zm true = .at p →
    resolveLanes s.now.core p false (rowLanes s slotL p o.cb o.zm o.g) [] s = ((.ok e, n), places, s1) →
    ∀ q ∈ [(Instr.lLdv o, false), (.lLdvi o, true)],
      exec q.1 s = .next ((s1.setMe { s1.me with loads := s1.me.loads ++ [{ slot := slotL, bundle := s1.bundlePc, dst := o.d, inv := q.2, mapv := (s1.tower (towerOf s1.now.core)).mapv, data := .row p.width (rowBase s slotL p o.g (s.rdV slotL o.d)) places }] }).due .loadDataReturn (onCore s.now.core)) ∧
      s1.me.regs = s.me.regs ∧ s1.me.gate = s.me.gate ∧ (∀ a, readByte s1 a = readByte s a)) ∧
  (∀ (s : State) (o : OpH), evaluate s slotL o.h o.cb o.zm false = .outside → s.guard slotL o.g = true →
    ∀ i ∈ [Instr.lLde o, .lLdei o], exec i s = .next (s.refuse slotL 0x1201 (outsideInfo s accLoad slotL o.h))) ∧
  (∀ (s : State) (o : OpH), s.guard slotL o.g = false → ∀ i ∈ [Instr.lLde o, .lLdei o], exec i s = .next s) ∧
  (∀ (s : State) (o : OpH), s.vectorGuard slotL o.g = false → ∀ i ∈ [Instr.lLdv o, .lLdvi o], exec i s = .next s)

/-- R256: which lanes of a row an access concerns: those that the guard leaves on and whose element lies inside DIM0; a load writes zero to
the lanes that are on and lie beyond it, and leaves every other lane of the register as it was. -/
def Sys2Proof.Claims.rowsAccessTheirLanesInsideDim0 : Prop :=
  ∀ (s : State) (x : Fin 8) (p : Operand) (cb : BitVec 6) (zm g : BitVec 4) (v : Vec), p.width ∈ [2, 4, 8, 16, 32, 64] →
    (∀ e a, (e, a) ∈ rowLanes s x p cb zm g → e < 4096 / p.width ∧ s.laneOn x g (4096 / p.width) e = true ∧
      (∀ d, p.desc = some d → p.c0 + e < dDim d 0)) ∧
    (∀ e, e < 4096 / p.width →
      (rowBase s x p g v).extractLsb' (e * p.width) p.width =
        if s.laneOn x g (4096 / p.width) e = true ∧ (∃ d, p.desc = some d ∧ dDim d 0 ≤ p.c0 + e) then 0
        else v.extractLsb' (e * p.width) p.width)

/-- R254, R255, R256, R258, R262: LOAD_DATA_RETURN lands the oldest outstanding load that carries the version of the slice map as it stands: an element, extended with its sign for the signed integer
formats and with zeros otherwise; a row, lane by lane; a descriptor, with cursors of zero; the word of an atomic. A poisoned word faults
the slot precisely while its bundle stands uncommitted (R406); one from host memory is reported as well (R428). A load that a retired
slice refuses for its old version is sent again under the new map (R40, R404). -/
def Sys2Proof.Claims.loadDataLandInTheirRegister : Prop :=
  ∀ (s : State) (l : Load) (ls : List Load), s.me.loads = l :: ls →
    let s0 := s.setMe { s.me with loads := ls }
    let mapv := (s.tower (towerOf s.now.core)).mapv
    (refusedLoad s l = true → exec .loadDataReturn s = .next
      ((s.setMe { s.me with loads := { l with mapv := mapv } :: ls }).dueFirst .loadDataReturn (onCore s.now.core))) ∧
    (l.mapv = mapv →
    (∀ p b w sg v s1, l.data = .element p b w sg → 0 < w → readElement s0 s.now.core p b w l.inv = (v, none, s1) →
      exec .loadDataReturn s = .next (s1.resultS l.slot l.dst (if sg then Claims.signExtended w v else BitVec.ofNat 64 v))) ∧
    (∀ w base lanes v s1, l.data = .row w base lanes → readLanes s.now.core w l.inv lanes base none s0 = (v, none, s1) →
      exec .loadDataReturn s = .next (s1.resultV l.slot l.dst v)) ∧
    (∀ p off v s1, l.data = .descriptor p off → readElement s0 s.now.core p (8 * off) 512 l.inv = (v, none, s1) →
      descriptorOk (BitVec.ofNat 512 v) = true →
      exec .loadDataReturn s = .next (s1.resultH l.dst ((BitVec.ofNat 512 v).setWidth 704))) ∧
    (∀ w, l.data = .word w → exec .loadDataReturn s = .next (s0.resultS l.slot l.dst w)) ∧
    (∀ p b w sg v q s1 cur, l.data = .element p b w sg → readElement s0 s.now.core p b w l.inv = (v, some q, s1) →
      s1.me.current = some cur → cur.pc = l.bundle → exec .loadDataReturn s = .next ((hostError s1 q).slotFault l.slot q)))

/-- R257, R253, R49: a prefetch faults nothing and changes no register; in a deterministic partition it does nothing; one whose tile misses in
the tile cache waits for the walker; l.pf of a cacheable tile whose memory is reached leaves the line in the L1 that serves the core, and
l.pf.l2 and l.pf.tile change no byte of memory but those of a word whose combined operands are applied (R79). -/
def Sys2Proof.Claims.prefetchesOnlyMoveLines : Prop :=
  ∀ (s : State) (o : OpH),
    (∀ i ∈ [Instr.lPf o, .lPfL2 o, .lPfTile o], ∃ t, exec i s = .next t ∧
      ((∀ p, evaluate s slotL o.h o.cb o.zm false = .at p →
        (reachTile s s.now.core p.desc p.tile p.fmt false).1 ≠ .miss) → Claims.untouched s t) ∧
      (∀ p s1, s.guard slotL o.g = true → detCore s s.now.core = false → evaluate s slotL o.h o.cb o.zm false = .at p →
        reachTile s s.now.core p.desc p.tile p.fmt false = (.miss, s1) → t = s1.reissue slotL) ∧
      (detCore s s.now.core = true → t = s) ∧ (s.guard slotL o.g = false → t = s)) ∧
    (Memory.wf s.mem = true → ∀ i ∈ [Instr.lPfL2 o, .lPfTile o], ∃ t, exec i s = .next t ∧
      ∀ a, ¬ Claims.combining s a → readByte t a = readByte s a) ∧
    (∀ p e s1, s.guard slotL o.g = true → detCore s s.now.core = false → evaluate s slotL o.h o.cb o.zm false = .at p →
      reachTile s s.now.core p.desc p.tile p.fmt false = (.ok e, s1) → cacheable e = true → tteKind e = 2 →
      ∃ t, exec (.lPf o) s = .next t ∧
        (t.core (l1Owner s1 s.now.core p.tile (p.bit / 1024))).l1.any (fun m =>
          m.isAt (coreCtx s s.now.core) (coreGen s s.now.core) p.tid p.tile (p.bit / 1024)) = true)

/-- R258, R260, R261: l.hld reads the 64 bytes at an aligned address as a plain load would; l.adv writes one cursor coordinate of a handle,
added to or set, and no other bit of it, faulting with 0x011C where it would leave its dimension; l.gpop takes the oldest gathered row, and
an empty queue stalls the slot. -/
def Sys2Proof.Claims.handleLoadsCursorMovesAndGatherPops : Prop :=
  ∀ (s : State) (o : OpT), s.guard slotL o.g = true →
    ((s.rdS slotL o.a).toNat % 64 ≠ 0 → exec (.lHld o) s = .next (s.slotFault slotL 0x0113)) ∧
    (∀ e s1, (s.rdS slotL o.a).toNat % 64 = 0 →
      reachTile s s.now.core none ((s.rdS slotL o.a).toNat / 2 ^ 16) none false = (.ok e, s1) →
      exec (.lHld o) s = .next ((s1.setMe { s1.me with loads := s1.me.loads ++ [{ slot := slotL, bundle := s1.bundlePc, dst := o.d, inv := false, mapv := (s1.tower (towerOf s1.now.core)).mapv, data := .descriptor { tid := 0, tile := (s.rdS slotL o.a).toNat / 2 ^ 16, tte := e } ((s.rdS slotL o.a).toNat % 2 ^ 16) }] }).due
        .loadDataReturn (onCore s1.now.core))) ∧
    (∀ x : Nat, 0 < o.d.toNat → o.d.toNat < 32 → x ≤ 5 →
      let sel := (s.rdS slotL o.a).toNat
      sel = x ∨ sel = x + 256 →
      let h := s.rdH (o.d.setWidth 5)
      let d : BitVec 512 := h.setWidth 512
      let v : Int := if sel = x then (cursor h x : Int) + (s.rdS slotL o.b).toInt else (s.rdS slotL o.b).toInt
      let stays := if x < dRank d then 0 ≤ v ∧ v < dDim d x else v = 0
      (stays → ∃ g : BitVec 704, exec (.lAdv o) s = .next (s.resultH o.d g) ∧ (cursor g x : Int) = v ∧
        (∀ y, y ≤ 5 → y ≠ x → cursor g y = cursor h y) ∧ g.setWidth 512 = d) ∧
      (¬ stays → exec (.lAdv o) s = .next (s.slotFault slotL 0x011C))) ∧
    (∀ r rs cur, s.me.rows = r :: rs → s.me.current = some cur → exec (.lGpop o) s = .next
      ((s.setMe { s.me with rows := rs, current := some { cur with pops := cur.pops ++ [.gatherRow r.1 r.2] } }).resultV slotL o.d r.2)) ∧
    (s.me.rows = [] → ∃ t, exec (.lGpop o) s = .next t ∧ t.me.stall.isSome = true ∧ t.me.regs = s.me.regs)

/-! ### The W slot (R251, R255, R256, R262 to R266) -/

namespace Sys2Proof.Claims

/-- R262: the operation of each atomic, by its number. -/
def atomicTable : Instr → Option (Fin 11 × OpT × BitVec 3)
  | .wAadd o u => some (0, o, u)
  | .wAand o u => some (1, o, u)
  | .wAor o u => some (2, o, u)
  | .wAxor o u => some (3, o, u)
  | .wAmin o u => some (4, o, u)
  | .wAmax o u => some (5, o, u)
  | .wAminu o u => some (6, o, u)
  | .wAmaxu o u => some (7, o, u)
  | .wAswp o u => some (8, o, u)
  | .wAcas o u => some (9, o, u)
  | .wArd o u => some (10, o, u)
  | _ => none

/-- R262: the new word m' of an atomic from the old word m, the operand y = s[b] and x = s[d]. -/
def atomicEffect (op : Nat) (m y x : Word) : Word :=
  match op with
  | 0 => BitVec.ofNat 64 (m.toNat + y.toNat)
  | 1 => m &&& y
  | 2 => m ||| y
  | 3 => m ^^^ y
  | 4 => if m.toInt ≤ y.toInt then m else y
  | 5 => if m.toInt ≤ y.toInt then y else m
  | 6 => if m.toNat ≤ y.toNat then m else y
  | 7 => if m.toNat ≤ y.toNat then y else m
  | 8 => y
  | 9 => if m = x then y else m
  | _ => m

/-- The L1s that serve core c hold no dirty byte. -/
def noDirtyLine (s : State) (c : CoreId) : Prop := ∀ o ∈ l1Cores s c, ∀ l ∈ (s.core o).l1, l.dirty = 0

/-- The L1s that serve core c hold no line of context (ctx, gen) but those tagged invariant. -/
def onlyInvariantLines (s : State) (c : CoreId) (ctx : BitVec 16) (gen : BitVec 8) : Prop :=
  ∀ o ∈ l1Cores s c, ∀ l ∈ (s.core o).l1, l.ctx = ctx → l.gen = gen → l.inv = true

end Sys2Proof.Claims

/-- R214, R255, R256: w.ste and w.stv under a true guard, with an operand that is evaluated and reached, put one entry into the restart gate,
that of the element or of every lane that takes effect; until it leaves the gate they change no register and no byte of memory. A coordinate
outside its dimension is refused with 0x1201, a false guard changes nothing. -/
def Obligations.StoresWaitInTheRestartGate : Prop :=
  (∀ (s s1 : State) (o : OpH) (p : Operand) (e : BitVec 64), s.guard slotW o.g = true →
    evaluate s slotW o.h o.cb o.zm false = .at p → reachTile s s.now.core p.desc p.tile p.fmt true = (.ok e, s1) →
    exec (.wSte o) s = .next (s1.setMe { s1.me with gate := s.me.gate ++
      [.store s.bundlePc (storeBytes { tid := p.tid, tile := p.tile, tte := e } p.bit p.width (s.rdS slotW o.d).toNat)] }) ∧
    s1.me.regs = s.me.regs ∧ ∀ a, readByte s1 a = readByte s a) ∧
  (∀ (s s1 : State) (o : OpH) (p : Operand) (e : BitVec 64) (n : Nat) (places : List (Nat × Place × Nat)),
    s.vectorGuard slotW o.g = true → evaluate s slotW o.h o.cb o.zm true = .at p →
    resolveLanes s.now.core p true (rowLanes s slotW p o.cb o.zm o.g) [] s = ((.ok e, n), places, s1) →
    exec (.wStv o) s = .next (s1.setMe { s1.me with gate := s.me.gate ++
      [.store s.bundlePc (places.flatMap fun l => storeBytes l.2.1 l.2.2 p.width (lane (s.rdV slotW o.d) p.width l.1))] }) ∧
    s1.me.regs = s.me.regs ∧ ∀ a, readByte s1 a = readByte s a) ∧
  (∀ (s : State) (o : OpH), evaluate s slotW o.h o.cb o.zm false = .outside → s.guard slotW o.g = true →
    exec (.wSte o) s = .next (s.refuse slotW 0x1201 (outsideInfo s accStore slotW o.h))) ∧
  (∀ (s : State) (o : OpH), s.guard slotW o.g = false → exec (.wSte o) s = .next s) ∧
  (∀ (s : State) (o : OpH), s.vectorGuard slotW o.g = false → exec (.wStv o) s = .next s)

/-- R9, R251, R255: an element of w bits that leaves the gate for a place that is not held in L1 is written at its home: the element reads as the
stored bits, the other bits of a shared byte stay, and every byte outside the element's bytes reads as before, but those of a word whose
combined operands are applied first (R79); where the L1s that serve the core hold no line of that memory, no core changes. -/
def Sys2Proof.Claims.storedElementChangesExactlyItsBits : Prop :=
  ∀ (s : State) (c : CoreId) (ctx : BitVec 16) (gen : BitVec 8) (p : Place) (b w v : Nat), Memory.wf s.mem = true →
    cacheable p.tte = false → w ∈ [2, 4, 8, 16, 32, 64] → b % w = 0 →
    let t := performStore s c ctx gen (storeBytes p b w v)
    let key := tteKey s p.tte (b / 8)
    readNat t key ((w + 7) / 8) / 2 ^ (b % 8) % 2 ^ w = v % 2 ^ w ∧
    (¬ Claims.combining s key → Claims.noDirtyLine s c → ∀ i, i < 8 → w < 8 → i < b % 8 ∨ b % 8 + w ≤ i →
      (readByte t key).getLsbD i = (readByte s key).getLsbD i) ∧
    (∀ a, a < key ∨ key + (w + 7) / 8 ≤ a → ¬ Claims.combining s a → readByte t a = readByte s a) ∧
    ((∀ o ∈ l1Cores s c, ∀ l ∈ (s.core o).l1, l.home ≠ key / 128 * 128) → t.cores = s.cores)

/-- R61, R251, R255: a load of the core that stored, of the element it stored, returns the stored bits, whether the tile is held in L1 or
not; another element of the same L1 line that was there keeps its bits. -/
def Sys2Proof.Claims.loadAfterStoreReturnsTheStoredBits : Prop :=
  ∀ (s : State) (c : CoreId) (ctx : BitVec 16) (gen : BitVec 8) (p : Place) (b w v : Nat), Memory.wf s.mem = true →
    tteKind p.tte ≠ 3 → w ∈ [2, 4, 8, 16, 32, 64] → b % w = 0 → b < 2 ^ 19 →
    let t := performStore s c ctx gen (storeBytes p b w v)
    (loadBits t c ctx gen p b w false).1 = v % 2 ^ w ∧
    (∀ b2 w2, cacheable p.tte = true → w2 ∈ [2, 4, 8, 16, 32, 64] → b2 % w2 = 0 → b2 / 1024 = b / 1024 → b2 + w2 ≤ b ∨ b + w ≤ b2 →
      (loadBits t c ctx gen p b2 w2 false).1 = (loadBits s c ctx gen p b2 w2 false).1)

/-- R77 to R81, R262: an atomic under a true guard at an aligned address whose home is reached and not poisoned: the commutative use (2) and the
quantum use (4) enter the gate; the synchronising use (0), after a full release, and the uses 1 and 3 go to the home at once; the speculative
use (5) returns the word as the core sees it, or whether it equals s[d]. A misaligned address faults with 0x0113, an atomic of a deterministic
instance with 0x0311. -/
def Sys2Proof.Claims.atomicsGoWhereTheirUseSays : Prop :=
  ∀ (s : State) (i : Instr) (op : Fin 11) (o : OpT) (u : BitVec 3), Claims.atomicTable i = some (op, o, u) →
    (s.guard slotW o.g = false → exec i s = .next s) ∧
    (s.guard slotW o.g = true → detCore s s.now.core = true → exec i s = .next (s.slotFault slotW 0x0311)) ∧
    (s.guard slotW o.g = true → detCore s s.now.core = false →
      let a := s.rdS slotW o.a
      (a.toNat % 8 ≠ 0 → exec i s = .next (s.slotFault slotW 0x0113)) ∧
      (∀ e key s1, a.toNat % 8 = 0 → reachHome s s.now.core a (decide (op ≠ 10 ∧ u ≠ 5)) = (.ok e, key, s1) →
        poisonOf s1 key 8 = none →
        (u = 2 → exec i s = .next (s1.setMe { s1.me with gate := s1.me.gate ++ [.com s1.bundlePc op (a.toNat / 2 ^ 16) key (s.rdS slotW o.b)] })) ∧
        (u = 4 → exec i s = .next (s1.setMe { s1.me with gate := s1.me.gate ++ [.quant s1.bundlePc (a.toNat / 2 ^ 16) key (s.rdS slotW o.b) (o.d.setWidth 4)] })) ∧
        (u = 5 → (∀ c ∈ l1Cores s1 s.now.core, (s.core c).l1 = []) →
          (s.core (l1Owner s1 s.now.core (a.toNat / 2 ^ 16) (a.toNat / 128 % 512))).l1 = [] → s.me.gate = [] →
          let s2 := touchHome s1 key 8 false
          exec i s = .next (s2.returnWord o.d (if op = 10 then readWord s2 key else if readWord s2 key = s.rdS slotW o.d then 1 else 0))) ∧
        (u = 0 → exec i s = .next ((fullRelease s1 s.now.core).dueFirst .atomicAtHome
          (atomicOccasion s.now.core key op.val 0 o.d (s.rdS slotW o.b) (s.rdS slotW o.d)))) ∧
        (u = 1 ∨ u = 3 → exec i s = .next (s1.dueFirst .atomicAtHome
          (atomicOccasion s.now.core key op.val u.toNat o.d (s.rdS slotW o.b) (s.rdS slotW o.d))))))

/-- R77, R262: ATOMIC_AT_HOME replaces the word at its home, as it stands there after the core's dirty bytes and combined operands, by the new
word of R262; w.ard writes nothing; the old word is on its way to s[d]; the synchronising use ends with a full acquire. -/
def Sys2Proof.Claims.atomicsReplaceTheWordAtItsHome : Prop :=
  ∀ (s : State) (c : CoreId) (key op u : Nat) (d : BitVec 6) (y x : Word), op ≤ 10 → u < 4 →
    s.now = atomicOccasion c key op u d y x →
    let s1 := homeWord s c key
    let old := readWord s1 key
    let s2 := if op = 10 then s1 else writeWord s1 key (Claims.atomicEffect op old y x)
    exec .atomicAtHome s = .next ((if u = 0 then fullAcquire s2 c else s2).returnWord d old)

/-- R78, R79: the flush of a tower's combining buffers applies each combined operand to its word at home, once, and leaves the buffers empty and
every byte of other words as before. -/
def Sys2Proof.Claims.combiningBuffersApplyEachOperandOnce : Prop :=
  ∀ (s : State), Memory.wf s.mem = true → let w := s.tower s.now.tower
    w.combine.Pairwise (fun c d => c.key + 8 ≤ d.key ∨ d.key + 8 ≤ c.key) →
    ∃ t, exec .combineBufferFlush s = .next t ∧ (t.tower s.now.tower).combine = [] ∧ t.cores = s.cores ∧
      (∀ e ∈ w.combine, readWord t e.key = Claims.atomicEffect e.op.val (readWord s e.key) e.y 0) ∧
      (∀ a, (∀ e ∈ w.combine, a < e.key ∨ e.key + 8 ≤ a) → readByte t a = readByte s a)

/-- R73, R263: after w.frel no operand is buffered and no L1 that serves the core holds a dirty byte; after w.facq those L1s hold no line of
the continuation's context but lines tagged invariant; w.fall does both; none changes a register, and a false guard changes nothing. The host
link is up: a line of host memory waits for it (R437). -/
def Sys2Proof.Claims.fencesReleaseAndAcquire : Prop :=
  ∀ (s : State) (o : OpT), s.hub.cxlUp = true →
    let c := s.now.core
    (s.guard slotW o.g = false → ∀ i ∈ [Instr.wFrel o, .wFacq o, .wFall o], exec i s = .next s) ∧
    (s.guard slotW o.g = true →
      (∃ t, exec (.wFrel o) s = .next t ∧ t.me.quantum = [] ∧ (t.tower (towerOf c)).combine = [] ∧ Claims.noDirtyLine t c ∧
        t.me.regs = s.me.regs) ∧
      (∃ t, exec (.wFacq o) s = .next t ∧ Claims.onlyInvariantLines t c (coreCtx s c) (coreGen s c) ∧ t.me.regs = s.me.regs) ∧
      (∃ t, exec (.wFall o) s = .next t ∧ t.me.quantum = [] ∧ (t.tower (towerOf c)).combine = [] ∧ Claims.noDirtyLine t c ∧
        Claims.onlyInvariantLines t c (coreCtx s c) (coreGen s c) ∧ t.me.regs = s.me.regs))

/-- R69, R264: w.acq of a valid entry that is not held, of a continuation that need not wait for its passes to suspend, sends its request to the object's home and waits; at the home, with no waiter before it
and a compatible word of no other context, it is granted: HELD[i] is set, HMODE[i] is the mode asked for, s[d] receives EPOCH and the wait is
over. An entry that is held is refused with 0x1105, a broken one with 0x1104. -/
def Sys2Proof.Claims.acquiresAreGrantedAtTheirHome : Prop :=
  (∀ (s : State) (o : OpI), s.guard slotW o.g = true → detCore s s.now.core = false →
    let i := ((s.rdS slotW o.a).toNat + o.imm.toNat) % 64
    let e := bindEntry s.me i
    (bindBroken s e = true → exec (.wAcq o) s = .next (s.refuse slotW 0x1104 (flatInfo accAtomic 3 (bSync e)))) ∧
    (bindBroken s e = false → s.me.held.getLsbD i = true →
      exec (.wAcq o) s = .next (s.refuse slotW 0x1105 (flatInfo accAtomic 3 (bSync e)))) ∧
    (∀ q key s0, bindBroken s e = false → s.me.held.getLsbD i = false → s.awaitsPasses = false →
      reachHome s s.now.core (bSync e) true = (.ok q, key, s0) → let s1 := touchHome s0 key 8 true
      poisonOf s1 key 8 = none →
      exec (.wAcq o) s = .next ((s1.setMe { s1.me with
        stall := some { kind := waitAcquire, obj := BitVec.ofNat 64 i, arg := BitVec.ofNat 64 (o.imm.toNat / 64 % 2), key := key, slot := slotW, dst := o.d } }).dueFirst .syncAcquireAtHome { onCore s.now.core with unit := key }))) ∧
  (∀ (s : State) (w : Wait), s.me.stall = some w → Memory.wf s.mem = true →
    let key := s.now.unit
    let t := towerNo (key / 2 ^ 40)
    let word := readWord s key
    let ctx := coreCtx s s.now.core
    let gen := coreGen s s.now.core
    (s.tower t).syncs = [] → syncStale s word = false → syncHeld word = false ∨ syncCtx word = ctx →
    syncCompatible word (decide (w.arg = 0)) = true →
    let word1 := syncGrant word (decide (w.arg = 0)) ctx gen
    exec .syncAcquireAtHome s = .next (completeAcquire (writeWord s key word1) s.now.core word1) ∧
    (let u := (completeAcquire (writeWord s key word1) s.now.core word1).me
     u.stall = none ∧ u.held.getLsbD (w.obj.toNat % 64) = true ∧ (u.hmode.getLsbD (w.obj.toNat % 64) = true ↔ w.arg = 1) ∧
     (∀ j, j < 64 → j ≠ w.obj.toNat % 64 → u.held.getLsbD j = s.me.held.getLsbD j ∧ u.hmode.getLsbD j = s.me.hmode.getLsbD j) ∧
     (0 < w.dst.toNat → Claims.aloneInGroup s.me w.slot (.s w.dst) → ∀ y, u.regs.seen y (.s w.dst) = BitVec.ofNat 4096 (syncEpoch word1))))

/-- R70, R264: w.rel of an entry that is not held is refused with 0x1105; of a held one it goes to the object's home, where the hold ends and
HELD[i] falls, and no other bit of HELD. -/
def Sys2Proof.Claims.releasesEndTheirHold : Prop :=
  (∀ (s : State) (o : OpI), s.guard slotW o.g = true → detCore s s.now.core = false →
    let i := ((s.rdS slotW o.a).toNat + o.imm.toNat) % 64
    let e := bindEntry s.me i
    (s.me.held.getLsbD i = false → exec (.wRel o) s = .next (s.refuse slotW 0x1105 (flatInfo accAtomic 3 (bSync e)))) ∧
    (∀ q key s0, s.me.held.getLsbD i = true → bindBroken s e = false → reachHome s s.now.core (bSync e) true = (.ok q, key, s0) →
      let s1 := touchHome s0 key 8 true
      poisonOf s1 key 8 = none → ∃ t, exec (.wRel o) s = .next t ∧
        t.agenda = (.syncReleaseAtHome, { onCore s.now.core with unit := key, addr := BitVec.ofNat 64 i }) :: s1.agenda ∧
        t.me.regs = s1.me.regs ∧ t.me.quantum = [])) ∧
  (∀ (s : State), Memory.wf s.mem = true → let key := s.now.unit
    let i := s.now.addr.toNat % 64
    (s.tower (towerNo (key / 2 ^ 40))).syncs = [] →
    ∃ t, exec .syncReleaseAtHome s = .next t ∧
      readWord t key = syncRelease (readWord s key) (!s.me.hmode.getLsbD i) ∧ t.me.held.getLsbD i = false ∧
      (∀ j, j < 64 → j ≠ i → t.me.held.getLsbD j = s.me.held.getLsbD j) ∧ t.me.regs = s.me.regs ∧
      (∀ a, a < key ∨ key + 8 ≤ a → readByte t a = readByte s a))

/-- R265, R266: w.bind installs the 32-byte image at flat address s[b] as entry s[a] of the core's copy and of the table, and refuses an entry
that is held; w.racq and w.rrel send their request to the walker of the lowest tower of the context's partition and wait for its status,
w.rrel after a full release; reserved bits of s[a] fault with 0x0110. -/
def Sys2Proof.Claims.bindingsAndRangeRequests : Prop :=
  (∀ (s : State) (o : OpT), s.guard slotW o.g = true →
    let i := s.rdS slotW o.a
    let b := s.rdS slotW o.b
    (64 ≤ i.toNat → exec (.wBind o) s = .next (s.slotFault slotW 0x0110)) ∧
    (i.toNat < 64 → b.toNat % 32 ≠ 0 → exec (.wBind o) s = .next (s.slotFault slotW 0x0113)) ∧
    (i.toNat < 64 → b.toNat % 32 = 0 → s.me.held.getLsbD i.toNat = true →
      exec (.wBind o) s = .next (s.refuse slotW 0x1105 (flatInfo accLoad 3 b))) ∧
    (∀ q s1 v s2 q2 s3, Memory.wf s.mem = true → i.toNat < 64 → b.toNat % 32 = 0 → s.me.held.getLsbD i.toNat = false →
      reachTile s s.now.core none (b.toNat / 2 ^ 16) none false = (.ok q, s1) →
      readElement s1 s.now.core { tid := 0, tile := b.toNat / 2 ^ 16, tte := q } (8 * (b.toNat % 2 ^ 16)) 256 false = (v, none, s2) →
      (bValid (BitVec.ofNat 256 v) = true → bindBroken s2 (BitVec.ofNat 256 v) = false) →
      let at_ := s2.me.bindb + BitVec.ofNat 64 (32 * i.toNat)
      reachTile s2 s.now.core none (at_.toNat / 2 ^ 16) none true = (.ok q2, s3) →
      let key := tteKey s3 q2 (at_.toNat % 2 ^ 16)
      ∃ t, exec (.wBind o) s = .next t ∧ readNat t key 32 = v ∧ t.me.binds.toList.getD i.toNat 0 = BitVec.ofNat 256 v ∧
        t.me.regs = s.me.regs)) ∧
  (∀ (s : State) (o : OpT), s.guard slotW o.g = true → detCore s s.now.core = false → s.yieldBit = false →
    let i := s.rdS slotW o.a
    let v := coreView s s.now.core
    let t0 := lowTower s v.ctx
    (32 ≤ i.toNat → ∀ j ∈ [Instr.wRacq o, .wRrel o], exec j s = .next (s.slotFault slotW 0x0110)) ∧
    (i.toNat < 32 → ctxValid s v.ctx = true → rValid (rangeEntry s v i.toNat) = true → rOwn (rangeEntry s v i.toNat) ≠ 3 →
      (s.tower t0).answers = [] →
      ∃ t w r, exec (.wRacq o) s = .next t ∧ t.me.stall = some w ∧ w.kind = waitRange ∧ w.obj = i ∧ w.dst = o.d ∧
        (t.tower t0).walker.queue = (s.tower t0).walker.queue ++ [r] ∧ r.kind = 3 ∧ r.a2 = i ∧ r.core = some s.now.core ∧
        t.me.regs = s.me.regs) ∧
    (i.toNat < 32 → ctxValid s v.ctx = true → rValid (rangeEntry s v i.toNat) = true → rOwn (rangeEntry s v i.toNat) ≠ 3 →
      (∀ x, (s.tower x).answers = []) → ∃ t w r t1, exec (.wRrel o) s = .next t ∧ t.me.stall = some w ∧ w.kind = waitRange ∧ w.arg = 1 ∧
        r ∈ (t.tower t1).walker.queue ∧ r.kind = 4 ∧ r.a2 = i ∧ r.core = some s.now.core ∧ t.me.regs = s.me.regs))

/-! ### The V slot (R267 to R280) and the arithmetic behind it (R89 to R111) -/

namespace Sys2Proof.Claims

/-- t is s after an elementwise instruction of slot x with elements of w bits (R267): each element that is on has f's value, every other one
keeps its old one; the flags are those of the elements that are on (R268); the result lands after lat entries. -/
def perElement (s : State) (x : Fin 8) (o : OpT) (w lat : Nat) (f : Nat → Nat × Flags) (t : State) : Prop :=
  ∃ (r : Vec) (fl : Flags), t = s.resultVX x (vecRef s o.d) r fl lat ∧
    (∀ e, e < 4096 / w → lane r w e = if s.laneOn x o.g (4096 / w) e then (f e).1 % 2 ^ w else lane (s.rdV x o.d) w e) ∧
    (∀ b, b < 6 → (fl.getLsbD b = true ↔ ∃ e, e < 4096 / w ∧ s.laneOn x o.g (4096 / w) e = true ∧ (f e).2.getLsbD b = true))

/-- t is s after a compare into a mask (R273): the 512 / E bits of each element that is on are f's answer, the others keep their value. -/
def perMask (s : State) (o : OpT) (w lat : Nat) (f : Nat → Bool × Flags) (t : State) : Prop :=
  ∃ (r : Vec) (fl : Flags), t = s.resultVX slotV (.k (o.d.setWidth 3)) r fl lat ∧
    (∀ e j, e < 4096 / w → j < w / 8 → r.getLsbD (e * (w / 8) + j) =
      if s.laneOn slotV o.g (4096 / w) e then (f e).1 else (s.rdK slotV (o.d.setWidth 3)).getLsbD (e * (w / 8) + j)) ∧
    (∀ b, b < 6 → (fl.getLsbD b = true ↔ ∃ e, e < 4096 / w ∧ s.laneOn slotV o.g (4096 / w) e = true ∧ (f e).2.getLsbD b = true))

/-- A whole number clamped to w bits in two's complement, and whether it was (R107). -/
def clamped (w : Nat) (v : Int) : BitVec w × Bool :=
  if v < -(2 ^ (w - 1)) then (BitVec.intMin w, true)
  else if 2 ^ (w - 1) - 1 < v then (BitVec.intMax w, true)
  else (BitVec.ofInt w v, false)

/-- R275: the result of each integer operation on elements of w bits, and whether it raises SAT. -/
def vectorIntTable : Instr → Option (OpT × BitVec 3 × ((w : Nat) → BitVec w → BitVec w → BitVec w × Bool))
  | .vAdd o ty => some (o, ty, fun _ x y => (x + y, false))
  | .vSub o ty => some (o, ty, fun _ x y => (x - y, false))
  | .vMul o ty => some (o, ty, fun _ x y => (x * y, false))
  | .vAdds o ty => some (o, ty, fun w x y => clamped w (x.toInt + y.toInt))
  | .vSubs o ty => some (o, ty, fun w x y => clamped w (x.toInt - y.toInt))
  | .vMin o ty => some (o, ty, fun _ x y => (if x.slt y then x else y, false))
  | .vMax o ty => some (o, ty, fun _ x y => (if x.slt y then y else x, false))
  | .vAnd o ty => some (o, ty, fun _ x y => (x &&& y, false))
  | .vOr o ty => some (o, ty, fun _ x y => (x ||| y, false))
  | .vXor o ty => some (o, ty, fun _ x y => (x ^^^ y, false))
  | .vShl o ty => some (o, ty, fun w x y => (x <<< (y.toNat % w), false))
  | .vSra o ty => some (o, ty, fun w x y => (x.sshiftRight (y.toNat % w), false))
  | .vShr o ty => some (o, ty, fun w x y => (x >>> (y.toNat % w), false))
  | _ => none

/-- R276: the mask operations, bit by bit. -/
def maskTable : Instr → Option (OpT × (Bool → Bool → Bool))
  | .vKand o => some (o, fun x y => x && y)
  | .vKor o => some (o, fun x y => x || y)
  | .vKxor o => some (o, fun x y => x != y)
  | .vKandn o => some (o, fun x y => x && !y)
  | _ => none

/-- The float formats of ty (R267). -/
def floatType : Nat → FloatFmt
  | 0 => fp32
  | 1 => bf16
  | 2 => fp16
  | 3 => e4m3
  | _ => e5m2

/-- R272: the fused product and sum that each float operation rounds once, from v[a], v[b] and v[d]. -/
def vectorFloatTable : Instr → Option (OpT × BitVec 3 × (Machine.Num → Machine.Num → Machine.Num → Machine.Num × Machine.Num × Machine.Num))
  | .vFadd o ty => some (o, ty, fun x y _ => (x, .fin false 1 0, y))
  | .vFsub o ty => some (o, ty, fun x y _ => (x, .fin false 1 0, y.neg))
  | .vFmul o ty => some (o, ty, fun x y _ => (x, y, .fin true 0 0))
  | .vFma o ty => some (o, ty, fun x y z => (x, y, z))
  | .vFnma o ty => some (o, ty, fun x y z => (x.neg, y, z))
  | _ => none

/-- R273: the float compares, and the flag that a NaN operand raises. -/
def floatCompareTable : Instr → Option (OpT × BitVec 3 × (Machine.Num → Machine.Num → Bool) × Flags)
  | .vFceq o ty => some (o, ty, fun x y => !x.lt y && !y.lt x, 0)
  | .vFclt o ty => some (o, ty, fun x y => x.lt y, 1)
  | .vFcle o ty => some (o, ty, fun x y => !y.lt x, 1)
  | _ => none

/-- The function, form and latency of each transcendental (R279). -/
def transcendentalTable : Instr → Option (OpT × BitVec 3 × Trans7 × Bool)
  | .vExp2r o ty => some (o, ty, .exp2, true)
  | .vExp2f o ty => some (o, ty, .exp2, false)
  | .vLog2r o ty => some (o, ty, .log2, true)
  | .vLog2f o ty => some (o, ty, .log2, false)
  | .vRcpr o ty => some (o, ty, .rcp, true)
  | .vRcpf o ty => some (o, ty, .rcp, false)
  | .vRsqr o ty => some (o, ty, .rsqrt, true)
  | .vRsqf o ty => some (o, ty, .rsqrt, false)
  | .vTanhr o ty => some (o, ty, .tanh, true)
  | .vTanhf o ty => some (o, ty, .tanh, false)
  | .vSinr o ty => some (o, ty, .sin, true)
  | .vSinf o ty => some (o, ty, .sin, false)
  | .vCosr o ty => some (o, ty, .cos, true)
  | .vCosf o ty => some (o, ty, .cos, false)
  | _ => none

/-- A false guard of p8 to p15 makes the instruction change nothing (R192). -/
def idleWhenOff (s : State) (x : Fin 8) (o : OpT) (i : Instr) : Prop := s.vectorGuard x o.g = false → exec i s = .next s

end Sys2Proof.Claims

/-- R89, R95, R96: every code of a float format that is no NaN rounds to itself, under every mode, saturation and random bits, with no flag. -/
def Obligations.RepresentableValuesRoundToThemselves : Prop :=
  ∀ F ∈ [fp32, bf16, fp16, e4m3, e5m2, e3m2, e2m3, e2m1], ∀ (c rm : Nat) (sat : Bool) (rnd : BitVec 32), c < 2 ^ F.width →
    F.decode c ≠ .nan → F.round (F.decode c) rm sat rnd = (c, 0)

/-- R95: a magnitude man × 2^exp as whole units 2^q: exact where q is at most exp; otherwise each rounding mode chooses its neighbour, and the
result is inexact just when something was discarded. -/
def Sys2Proof.Claims.roundingModesChooseTheirNeighbour : Prop :=
  ∀ (man : Nat) (exp q : Int) (rm : Nat) (neg : Bool) (rnd : BitVec 32),
    let r := roundMag man exp q rm neg rnd
    let d : Nat := 2 ^ (q - exp).toNat
    (q ≤ exp → r = (man * 2 ^ (exp - q).toNat, false)) ∧
    (exp < q → (r.2 = true ↔ man % d ≠ 0) ∧ (r.1 = man / d ∨ r.1 = man / d + 1) ∧ (man % d = 0 → rm < 5 → r.1 * d = man) ∧
      (rm = 0 → 2 * man ≤ (2 * r.1 + 1) * d ∧ 2 * r.1 * d ≤ 2 * man + d ∧ (2 * (man % d) = d → r.1 % 2 = 0)) ∧
      (rm = 1 → r.1 * d ≤ man ∧ man < (r.1 + 1) * d) ∧
      (rm = 2 → if neg then r.1 * d ≤ man ∧ man < (r.1 + 1) * d else man ≤ r.1 * d ∧ r.1 * d < man + d) ∧
      (rm = 3 → if neg then man ≤ r.1 * d ∧ r.1 * d < man + d else r.1 * d ≤ man ∧ man < (r.1 + 1) * d) ∧
      (rm = 4 → 2 * man < (2 * r.1 + 1) * d ∧ 2 * r.1 * d ≤ 2 * man + d))

/-- R104: the product and sum of finite values are exact before their one rounding: at any exponent e below those of the terms and 0, the
signed mantissa of the result is that of a × b + c, and no flag is raised. -/
def Sys2Proof.Claims.fusedMultiplyAddIsExactBeforeRounding : Prop :=
  ∀ (sa sb sc : Bool) (ma mb mc rm : Nat) (ea eb ec e : Int), e ≤ ea + eb → e ≤ ec →
    let r := fmaNum (.fin sa ma ea) (.fin sb mb eb) (.fin sc mc ec) rm
    r.2 = 0 ∧
    r.1.at (min e 0) = (Machine.Num.fin sa ma 0).at 0 * (Machine.Num.fin sb mb 0).at 0 * 2 ^ (ea + eb - min e 0).toNat + (Machine.Num.fin sc mc ec).at (min e 0)

/-- R102, R103, R380: the flags that an A-, V- or X-slot instruction raises join those of its bundle; where NFLAGS enables traps for some of
them, the slot faults with the code of the lowest such flag and INFO holding all that were raised. -/
def Sys2Proof.Claims.raisedFlagsJoinTheBundleOrTrap : Prop :=
  ∀ (s : State) (x : Fin 8) (f : Flags) (cur : Current), s.me.current = some cur →
    let enabled := fun n => f.getLsbD n && s.me.regs.nflags.getLsbD (16 + n)
    ((∀ n, n < 6 → enabled n = false) →
      s.raiseFlags x f = s.setMe { s.me with current := some { cur with flags := cur.flags ||| f } }) ∧
    (∀ n, n < 6 → enabled n = true → (∀ m, m < n → enabled m = false) →
      s.raiseFlags x f = s.setMe { s.me with
        current := some { cur with faults := cur.faults ++ [(x, 0x0140 + BitVec.ofNat 16 n, f.setWidth 64)] } })

/-- R275: the integer operations of the V slot complete element by element with latency 2 and the table's value, SAT where a sum was clamped. -/
def Sys2Proof.Claims.vectorIntegerOperations : Prop :=
  (∀ (s : State) (i : Instr) (o : OpT) (ty : BitVec 3) (f : (w : Nat) → BitVec w → BitVec w → BitVec w × Bool),
    Claims.vectorIntTable i = some (o, ty, f) → ty.toNat < 3 →
    let w := 32 / 2 ^ ty.toNat
    Claims.idleWhenOff s slotV o i ∧
    (s.vectorGuard slotV o.g = true → ∃ t, exec i s = .next t ∧ Claims.perElement s slotV o w 2 (fun e =>
      let r := f w ((s.rdV slotV o.a).extractLsb' (e * w) w) ((s.rdV slotV o.b).extractLsb' (e * w) w)
      (r.1.toNat, if r.2 then 32 else 0)) t))

/-- R276: major 0x20 combines the bits of k[a] and k[b] into k[d]: fn 0 AND, 1 OR, 2 XOR, 3 AND NOT, and fn 4 to 7 are reserved; a lane-mask guard masks bit for bit, and a bit that is off keeps its value; the latency is 2. -/
def Obligations.MaskOperationsCombineBitForBit : Prop :=
  (∀ (s : State) (i : Instr) (o : OpT) (f : Bool → Bool → Bool), Claims.maskTable i = some (o, f) →
    Claims.idleWhenOff s slotV o i ∧
    (s.vectorGuard slotV o.g = true → ∃ r : Mask, exec i s = .next (s.resultVX slotV (.k (o.d.setWidth 3)) (r.setWidth 4096) 0 2) ∧
      ∀ n, n < 512 → r.getLsbD n = if s.laneOn slotV o.g 512 n then
        f ((s.rdK slotV (o.a.setWidth 3)).getLsbD n) ((s.rdK slotV (o.b.setWidth 3)).getLsbD n)
        else (s.rdK slotV (o.d.setWidth 3)).getLsbD n)) ∧
  (∀ (w : BitVec 31) (i : Instr), w.toNat / 2 ^ 25 = 0x20 → decodeSlot 4 w = .ok (some i) → w.toNat % 8 < 4 ∧
    let o : OpT := { d := w.extractLsb' 19 6, a := w.extractLsb' 13 6, b := w.extractLsb' 7 6, g := w.extractLsb' 3 4 }
    i = (if w.toNat % 8 = 0 then .vKand o else if w.toNat % 8 = 1 then .vKor o else if w.toNat % 8 = 2 then .vKxor o else .vKandn o))

/-- R272: the float operations of the V slot complete element by element with latency 4 and the product and sum of the table rounded once
under VRM into the format (with VSAT but for FP32); v.fmax and v.fmin order NaN above and -0 below +0 and round nothing. -/
def Sys2Proof.Claims.vectorFloatOperationsRoundOnce : Prop :=
  (∀ (s : State) (i : Instr) (o : OpT) (ty : BitVec 3) (f : Machine.Num → Machine.Num → Machine.Num → Machine.Num × Machine.Num × Machine.Num),
    Claims.vectorFloatTable i = some (o, ty, f) →
    let F := Claims.floatType ty.toNat
    Claims.idleWhenOff s slotV o i ∧
    (s.vectorGuard slotV o.g = true → ∃ t, exec i s = .next t ∧ Claims.perElement s slotV o F.width 4 (fun e =>
      let q := f (F.decode (lane (s.rdV slotV o.a) F.width e)) (F.decode (lane (s.rdV slotV o.b) F.width e))
        (F.decode (lane (s.rdV slotV o.d) F.width e))
      let p := fmaNum q.1 q.2.1 q.2.2 (xVrm s)
      let r := F.round p.1 (xVrm s) (decide (ty ≠ 0) && xVsat s) (elementBits s e)
      (r.1, p.2 ||| r.2)) t)) ∧
  (∀ (s : State) (o : OpT) (ty : BitVec 3), let F := Claims.floatType ty.toNat
    ∀ p ∈ [(Instr.vFmax o ty, true), (.vFmin o ty, false)], Claims.idleWhenOff s slotV o p.1 ∧
    (s.vectorGuard slotV o.g = true → ∃ t, exec p.1 s = .next t ∧ Claims.perElement s slotV o F.width 4 (fun e =>
      let a := lane (s.rdV slotV o.a) F.width e
      let b := lane (s.rdV slotV o.b) F.width e
      let less := (F.decode a).lt (F.decode b) || (!(F.decode b).lt (F.decode a) && decide (2 ^ (F.width - 1) ≤ a) && decide (b < 2 ^ (F.width - 1)))
      (if F.decode a = .nan ∨ F.decode b = .nan then F.nanCode else if less = p.2 then b else a, 0)) t))

/-- R274: v.fabs (major 0x0B) clears and v.fneg (major 0x0C) inverts the sign bit of each element that is on; a NaN gives the canonical NaN of the format, in E4M3 both 0x7F and 0xFF give 0x7F; no flag is raised, and the latency is 2. -/
def Obligations.SignsAreClearedAndInverted : Prop :=
  (∀ (s : State) (o : OpT) (ty : BitVec 3), let F := Claims.floatType ty.toNat
    ∀ p ∈ [(Instr.vFabs o ty, true), (.vFneg o ty, false)], Claims.idleWhenOff s slotV o p.1 ∧
    (s.vectorGuard slotV o.g = true → ∃ t, exec p.1 s = .next t ∧ Claims.perElement s slotV o F.width 2 (fun e =>
      let a := lane (s.rdV slotV o.a) F.width e
      let m := a % 2 ^ (F.width - 1)
      (if F.decode a = .nan then F.nanCode else if p.2 = false ∧ a = m then m + 2 ^ (F.width - 1) else m, 0)) t)) ∧
  (e4m3.decode 0x7F = .nan ∧ e4m3.decode 0xFF = .nan ∧ e4m3.nanCode = 0x7F) ∧
  (∀ (w : BitVec 31) (i : Instr), decodeSlot 4 w = .ok (some i) →
    let o : OpT := { d := w.extractLsb' 19 6, a := w.extractLsb' 13 6, b := w.extractLsb' 7 6, g := w.extractLsb' 3 4 }
    (w.toNat / 2 ^ 25 = 0x0B → i = .vFabs o (w.extractLsb' 0 3)) ∧ (w.toNat / 2 ^ 25 = 0x0C → i = .vFneg o (w.extractLsb' 0 3)))

/-- R273: the compares of the V slot write the mask bits of each element that is on, the float compares with latency 4 and a NaN operand false,
the integer compares with latency 2. -/
def Sys2Proof.Claims.vectorComparesWriteMasks : Prop :=
  (∀ (s : State) (i : Instr) (o : OpT) (ty : BitVec 3) (f : Machine.Num → Machine.Num → Bool) (nf : Flags),
    Claims.floatCompareTable i = some (o, ty, f, nf) →
    let F := Claims.floatType ty.toNat
    Claims.idleWhenOff s slotV o i ∧
    (s.vectorGuard slotV o.g = true → ∃ t, exec i s = .next t ∧ Claims.perMask s o F.width 4 (fun e =>
      let x := F.decode (lane (s.rdV slotV o.a) F.width e)
      let y := F.decode (lane (s.rdV slotV o.b) F.width e)
      if x = .nan ∨ y = .nan then (false, nf) else (f x y, 0)) t)) ∧
  (∀ (s : State) (o : OpT) (ty : BitVec 3), ty.toNat < 3 → let w := 32 / 2 ^ ty.toNat
    ∀ p ∈ [(Instr.vCeq o ty, fun x y : Int => decide (x = y)), (.vClt o ty, fun x y => decide (x < y))],
    Claims.idleWhenOff s slotV o p.1 ∧
    (s.vectorGuard slotV o.g = true → ∃ t, exec p.1 s = .next t ∧ Claims.perMask s o w 2 (fun e =>
      (p.2 ((s.rdV slotV o.a).extractLsb' (e * w) w).toInt ((s.rdV slotV o.b).extractLsb' (e * w) w).toInt, 0)) t))

/-- R277, R109: the reductions complete with latency 8: v.rsum, v.rmax and v.rmin combine the elements, widened to FP32 and the identity where they
are off, by the binary tree of R109 into bits [31:0] of v[d]; v.risum adds them modulo 2^64; every other bit of v[d] is zero. -/
def Sys2Proof.Claims.vectorReductionsCombineTheElements : Prop :=
  (∀ (s : State) (o : OpT) (ty : BitVec 3), let F := Claims.floatType ty.toNat
    ∀ p ∈ [(Instr.vRsum o ty, 0x80000000, fun x y => add32 x y 0), (.vRmax o ty, 0xFF800000, fun x y => (fMaxMin fp32 true x y, 0)),
      (.vRmin o ty, 0x7F800000, fun x y => (fMaxMin fp32 false x y, 0))], Claims.idleWhenOff s slotV o p.1 ∧
    (s.vectorGuard slotV o.g = true →
      let xs := (List.range (4096 / F.width)).map fun e => if s.laneOn slotV o.g (4096 / F.width) e then
        (fp32.round (F.decode (lane (s.rdV slotV o.a) F.width e)) 0 false 0).1 else p.2.1
      let r := reduceTree p.2.2 (Nat.log2 (4096 / F.width)) xs
      exec p.1 s = .next (s.resultVX slotV (vecRef s o.d) ((BitVec.ofNat 32 r.1).setWidth 4096) r.2 8))) ∧
  (∀ (s : State) (o : OpT) (ty : BitVec 3), ty.toNat < 3 → let w := 32 / 2 ^ ty.toNat
    Claims.idleWhenOff s slotV o (.vRisum o ty) ∧
    (s.vectorGuard slotV o.g = true →
      let sum := ((List.range (4096 / w)).map fun e => if s.laneOn slotV o.g (4096 / w) e then
        ((s.rdV slotV o.a).extractLsb' (e * w) w).toInt else 0).foldl (fun x y => x + y) 0
      exec (.vRisum o ty) s = .next (s.resultVX slotV (vecRef s o.d) ((BitVec.ofInt 64 sum).setWidth 4096) 0 8)))

/-- R278, R280: v.perm, v.bcst and v.slide move elements with latency 3 and no flag; v.xscl writes one scale byte a block with latency 4, and a
selector that names no MX or SA format faults with 0x011D. -/
def Sys2Proof.Claims.vectorPermutesAndScales : Prop :=
  ∀ (s : State) (o : OpT) (ty : BitVec 3), ty.toNat < 3 → let w := 32 / 2 ^ ty.toNat
    let n := 4096 / w
    let src := fun e => lane (s.rdV slotV o.a) w e
    (∀ i ∈ [Instr.vPerm o ty, .vBcst o ty, .vSlide o ty, .vXscl o ty], Claims.idleWhenOff s slotV o i) ∧
    (s.vectorGuard slotV o.g = true →
      (∃ t, exec (.vPerm o ty) s = .next t ∧ Claims.perElement s slotV o w 3 (fun e =>
        let i := lane (s.rdV slotV o.b) w e
        (src (if w = 8 then (if e < 256 then i else 256 + i) else i % n), 0)) t) ∧
      (∃ t, exec (.vBcst o ty) s = .next t ∧ Claims.perElement s slotV o w 3 (fun _ => ((s.rdSB slotV o.a).toNat, 0)) t) ∧
      (∃ t, exec (.vSlide o ty) s = .next t ∧ Claims.perElement s slotV o w 3 (fun e =>
        let i : Int := e + (s.rdSB slotV o.b).toInt
        (if 0 ≤ i ∧ i < n then src i.toNat else 0, 0)) t) ∧
      (let sel := (s.rdSB slotV o.b).toNat
       let F := Claims.floatType ty.toNat
       let m := 4096 / F.width
       (sel ∉ [0x20, 0x21, 0x22, 0x30, 0x31, 0x32, 0x33, 0x34, 0x35] → exec (.vXscl o ty) s = .next (s.slotFault slotV 0x011D)) ∧
       (∀ em size, (sel, em, size) ∈ [(0x20, (6 : Int), m), (0x21, 2, m), (0x22, 0, m), (0x30, 8, 32), (0x31, 15, 32), (0x32, 4, 32),
          (0x33, 2, 32), (0x34, 2, 32), (0x35, 0, 32)] →
        ∃ (r : Vec) (fl : Flags), exec (.vXscl o ty) s = .next (s.resultVX slotV (vecRef s o.d) r fl 4) ∧
          ∀ k, k < 512 → lane r 8 k = if k < m / size then
            (blockScale em (((List.range size).map fun j => size * k + j).map fun e =>
              if s.laneOn slotV o.g m e then F.decode (lane (s.rdV slotV o.a) F.width e) else .fin false 0 0)).1
            else 0)))

/-- R110, R111, R279: the transcendentals complete element by element, the reproducible forms with latency 14, the fast ones with latency 6;
both give the special values of R110 with their flags, and a fast result of a finite operand is the reproducible one or lies within the bound of
R111 (its value within the bound is free: log 10). -/
def Obligations.TranscendentalsCompleteWithinTheirBounds : Prop :=
  (∀ (s : State) (i : Instr) (o : OpT) (ty : BitVec 3) (f : Trans7) (rep : Bool), Claims.transcendentalTable i = some (o, ty, f, rep) →
    let F := Claims.floatType ty.toNat
    Claims.idleWhenOff s slotV o i ∧
    (s.vectorGuard slotV o.g = true → ∃ t, exec i s = .next t ∧ Claims.perElement s slotV o F.width (if rep then 14 else 6)
      (fun e => (if rep then reproducible f F else fastForm f F) (lane (s.rdV slotV o.a) F.width e)) t)) ∧
  (∀ (f : Trans7) (F : FloatFmt) (c : Nat) (r : Nat × Flags), specialValue f F (F.decode c) = some r →
    reproducible f F c = r ∧ fastForm f F c = r) ∧
  (∀ (f : Trans7) (F : FloatFmt) (c : Nat) (neg : Bool) (m : Nat) (e : Int), F.decode c = .fin neg m e →
    specialValue f F (.fin neg m e) = none →
    ((fastForm f F c).1 = (reproducible f F c).1 ∨
      withinBound (F.decode (fastForm f F c).1) (enclose f neg m e) (fastBound f F (.fin neg m e) (enclose f neg m e)) = true) ∧
    ((reproducible f F c).2.getLsbD 4 = true → (fastForm f F c).2.getLsbD 4 = true)) ∧
  (∀ F ∈ [fp32, bf16, fp16], ∀ f, specialValue f F .nan = some (F.nanCode, 0)) ∧
  (∀ F ∈ [fp32, bf16, fp16], ∀ neg e,
    specialValue .rcp F (.fin neg 0 e) = some (F.signed neg F.infCode, 2) ∧
    specialValue .rsqrt F (.fin neg 0 e) = some (F.signed neg F.infCode, 2) ∧
    specialValue .log2 F (.fin neg 0 e) = some (F.signed true F.infCode, 2) ∧
    specialValue .sin F (.inf neg) = some (F.nanCode, 1) ∧ specialValue .cos F (.inf neg) = some (F.nanCode, 1))

/-! ### The X slot (R281 to R288) -/

namespace Sys2Proof.Claims

/-- t is s after slot X has written n elements of w bits into v[d], element e at place dst e where it is on, every other element of v[d] kept,
the flags those of the elements that are on; the result lands after six entries. -/
def partElements (s : State) (d : BitVec 6) (w n : Nat) (dst : Nat → Nat) (on : Nat → Bool) (f : Nat → Nat × Flags) (t : State) : Prop :=
  ∃ (r : Vec) (fl : Flags), t = s.resultVX slotX (vecRef s d) r fl 6 ∧
    (∀ e, e < n → on e = true → lane r w (dst e) = (f e).1 % 2 ^ w) ∧
    (∀ k, k < 4096 / w → (∀ e, e < n → on e = true → dst e ≠ k) → lane r w k = lane (s.rdV slotX d) w k) ∧
    (∀ b, b < 6 → (fl.getLsbD b = true ↔ ∃ e, e < n ∧ on e = true ∧ (f e).2.getLsbD b = true))

/-- The places of the shuffles of R287: which element of v[a] (false) or v[b] (true) element e of v[d] takes, of n elements. -/
def shuffleTable (s : State) (n : Nat) : Instr → Option (OpT × (Nat → Bool × Nat))
  | .xTrc o => some (o, fun e =>
      let t := 2 ^ xTs s
      if e / t % 2 = 0 then (false, if xHi s then e + t else e) else (true, if xHi s then e else e - t))
  | .xPack o => some (o, fun e => if 2 * e < n then (false, 2 * e) else (true, 2 * e - n))
  | .xUnpk o => some (o, fun e => (decide (e % 2 = 1), (if xHi s then n / 2 else 0) + e / 2))
  | _ => none

/-- The planes of an SA format (R93). -/
def planesOf : Nat → Option Nat
  | 0x20 => some 8
  | 0x21 => some 4
  | 0x22 => some 2
  | _ => none

/-- A number other than zero below the smallest normal number of FP32, 2^-126. -/
def tiny32 (x : Machine.Num) : Bool := x.abs.lt (.fin false 1 (-126)) && (Machine.Num.fin false 0 0).lt x.abs

end Sys2Proof.Claims

/-- R281, R282: x.cvt converts each element between two formats, with the random bits of its destination place; between formats of two widths
it reads or writes the part that XMODE.PART names and keeps the rest of v[d]; it completes with latency 6. -/
def Sys2Proof.Claims.conversionsKeepTheirPart : Prop :=
  ∀ (s : State) (o : OpXC), (Instr.xCvt o).wellFormed = true →
    let sf := o.sf.toNat
    let df := o.df.toNat
    let ws := fmtBits (if sf = 0 then df else sf)
    let wd := fmtBits (if df = 0 then sf else df)
    let n := 4096 / max ws wd
    let part := xPart s % (max ws wd / min ws wd)
    ∃ t, exec (.xCvt o) s = .next t ∧ Claims.partElements s o.d wd n (fun e => if wd < ws then part * n + e else e) (fun _ => true)
      (fun e => convertFmt sf df (lane (s.rdV slotX o.a) ws (if ws < wd then part * n + e else e)) (xRm s) (decide (o.sat = 1))
        (elementBits s (if wd < ws then part * n + e else e))) t

/-- R282 to R285: x.mxq, x.mxd and x.saq complete with latency 6 under the vector convention: element by element with the scale of its block of
32, or of the segment, into or out of the part that XMODE.PART names; a reserved scale makes the codes zero, or the value the canonical NaN; a tiny result of x.mxd raises UF; an
XMODE.MXF that is no MX or SA format faults with 0x011D. -/
def Sys2Proof.Claims.quantisationScalesItsBlocks : Prop :=
  ∀ (s : State) (o : OpT),
    (∀ i ∈ [Instr.xMxq o, .xMxd o, .xSaq o], Claims.idleWhenOff s slotX o i) ∧
    (s.vectorGuard slotX o.g = true →
      (xMxf s < 0x30 ∨ 0x35 < xMxf s → ∀ i ∈ [Instr.xMxq o, .xMxd o], exec i s = .next (s.slotFault slotX 0x011D)) ∧
      (Claims.planesOf (xMxf s) = none → exec (.xSaq o) s = .next (s.slotFault slotX 0x011D)) ∧
      (0x30 ≤ xMxf s → xMxf s ≤ 0x35 →
        let w := if xMxf s = 0x34 then 4 else 8
        let part := xPart s % (32 / w)
        (∃ t, exec (.xMxq o) s = .next t ∧ Claims.partElements s o.d w 128 (fun e => part * 128 + e) (s.laneOn slotX o.g 128)
          (fun e => mxqElement (xMxf s) (lane (s.rdV slotX o.b) 8 (e / 32)) (lane (s.rdV slotX o.a) 32 e) (xRm s)
            (elementBits s (part * 128 + e))) t) ∧
        (∃ t, exec (.xMxd o) s = .next t ∧ Claims.partElements s o.d 32 128 id (s.laneOn slotX o.g 128) (fun e =>
          let sc := lane (s.rdV slotX o.b) 8 (e / 32)
          let x := (decodeFmt (xMxf s) (lane (s.rdV slotX o.a) w (part * 128 + e))).1.scale ((sc : Int) - 127)
          let r := fp32.round x (xRm s) false (elementBits s e)
          if sc = 255 then (0x7FC00000, 0) else (r.1, if Claims.tiny32 x then r.2 ||| 8 else r.2)) t)) ∧
      (∀ p, Claims.planesOf (xMxf s) = some p →
        let part := xPart s % 4
        ∃ t, exec (.xSaq o) s = .next t ∧ Claims.partElements s o.d 8 128 (fun e => part * 128 + e) (s.laneOn slotX o.g 128)
          (fun e => let sc := lane (s.rdV slotX o.b) 8 0
            if sc = 255 then (0, 0) else intEncode 8 (-(2 ^ (p - 1) - 1)) (2 ^ (p - 1) - 1)
              ((fp32.decode (lane (s.rdV slotX o.a) 32 e)).scale (127 - (sc : Int))) (xRm s) (elementBits s (part * 128 + e)) true) t)) ∧
    (∀ f x rm rnd, mxqElement f 0xFF x rm rnd = (0, 0))

/-- R287, R288: x.trr, x.trc, x.pack and x.unpk move elements of XMODE.EW bits, each element that is on from its place; a matrix that does not fit
faults with 0x011D; x.vtos writes one 64-bit element of v[a] to s[d] and x.stov one of v[d] from s[a]; every result lands after six entries. -/
def Sys2Proof.Claims.shufflesAndMovesTakeTheirPlaces : Prop :=
  ∀ (s : State) (o : OpT),
    let w := 4 * 2 ^ xEw s
    let n := 4096 / w
    (∀ i ∈ [Instr.xTrr o, .xTrc o, .xPack o, .xUnpk o, .xVtos o, .xStov o], Claims.idleWhenOff s slotX o i) ∧
    (s.vectorGuard slotX o.g = true →
      (∀ i o2 f, i ∈ [Instr.xTrc o, .xPack o, .xUnpk o] → Claims.shuffleTable s n i = some (o2, f) →
        (i = .xTrc o → 2 ^ xTs s < n) →
        ∃ t, exec i s = .next t ∧ Claims.perElement s slotX o w 6 (fun e =>
          (lane (if (f e).1 then s.rdV slotX o.b else s.rdV slotX o.a) w (f e).2, 0)) t) ∧
      (n ≤ 2 ^ xTs s → exec (.xTrc o) s = .next (s.slotFault slotX 0x011D)) ∧
      (let rows := (s.rdSB slotX o.b).toNat
       (16 ≤ rows ∨ n < 2 ^ rows → exec (.xTrr o) s = .next (s.slotFault slotX 0x011D)) ∧
       (rows < 16 → 2 ^ rows ≤ n → ∃ t, exec (.xTrr o) s = .next t ∧ Claims.perElement s slotX o w 6 (fun e =>
          (lane (s.rdV slotX o.a) w (e % 2 ^ rows * (n / 2 ^ rows) + e / 2 ^ rows), 0)) t)) ∧
      (let l := (s.rdSB slotX o.b).toNat % 64
       exec (.xVtos o) s = .next (s.laterS slotX o.d ((s.rdV slotX o.a).extractLsb' (64 * l) 64) 6 false) ∧
       ∃ t, exec (.xStov o) s = .next t ∧ Claims.partElements s o.d 64 1 (fun _ => l) (fun _ => s.laneOn slotX o.g 64 l)
         (fun _ => ((s.rdSB slotX o.a).toNat, 0)) t))

/-- R286: x.bpt puts the planes of 512 codes, clamped to P bits, into the gate as one entry for a scratchpad tile of an SA tensor, with SAT where a
code was clamped; bit k of byte i of plane j is bit j of code 8i + k; a format that is no SA format is refused with 0x1209, a coordinate that is
no quarter of a segment faults with 0x0113. -/
def Sys2Proof.Claims.planeStoresTransposeTheirCodes : Prop :=
  (∀ (s s1 : State) (o : OpH) (p : Operand) (ls : List (Nat × Nat × Nat)) (e : BitVec 64) (n planes : Nat) (places : List (Nat × Place × Nat)),
    s.guard slotX o.g = true → evaluate s slotX o.h o.cb o.zm false = .at p → p.fmt.bind Claims.planesOf = some planes →
    p.c0 % 64 = 0 → p.c0 % (256 * planes) < 256 → planeLanes s p o.cb o.zm planes = some ls →
    resolveLanes s.now.core p true ls [] s = ((.ok e, n), places, s1) → (∀ l ∈ places, tteKind l.2.1.tte = 1) →
    exec (.xBpt o) s = .next ((s1.setMe { s1.me with gate := s1.me.gate ++ [.store s1.bundlePc (places.flatMap fun l =>
      storeBytes l.2.1 l.2.2 8 (planeByte planes (s.rdV slotX o.d) (l.1 / 256) (l.1 % 256)).toNat)] }).raiseFlags slotX
        (if planesClamp planes (s.rdV slotX o.d) then 32 else 0))) ∧
  (∀ (s : State) (o : OpH) (p : Operand), s.guard slotX o.g = true → evaluate s slotX o.h o.cb o.zm false = .at p →
    (p.fmt.bind Claims.planesOf = none → exec (.xBpt o) s = .next (s.refuse slotX 0x1209 (operandInfo p accStore slotX o.h))) ∧
    (∀ planes, p.fmt.bind Claims.planesOf = some planes → p.c0 % 64 ≠ 0 ∨ 256 ≤ p.c0 % (256 * planes) →
      exec (.xBpt o) s = .next (s.slotFault slotX 0x0113))) ∧
  (∀ (s : State) (o : OpH), s.guard slotX o.g = false → exec (.xBpt o) s = .next s) ∧
  (∀ (planes : Nat) (v : Vec) (i j k : Nat), planes ∈ [2, 4, 8] → i < 64 → j < planes → k < 8 →
    (planeByte planes v j i).getLsbD k = ((Claims.clamped planes (BitVec.ofNat 8 (lane v 8 (8 * i + k))).toInt).1).getLsbD j)

/-! ### The M slot and the matrix engine (R113 to R132, R292 to R304, R419 to R424) -/

namespace Sys2Proof.Claims

/-- The matrix engine of the core has nothing in flight. -/
def engineIdle (s : State) : Prop := s.me.mat.passes = [] ∧ s.me.mat.promos = [] ∧ s.me.mat.swaps = 0

/-- m.win and m.wsc write their fields of the set-up register and no other, once the passes in flight have ended, and promote an open group early; a selector out of range
faults with 0x0110 (R293, R294). -/
def setupWritesItsFields : Prop :=
  ∀ (s : State) (o : OpT),
    (s.guard slotM o.g = false → ∀ i ∈ [Instr.mWin o, .mWsc o], exec i s = .next s) ∧
    (s.guard slotM o.g = true →
      let a := (s.rdSB slotM o.a).toNat
      let b := s.rdSB slotM o.b
      let m := s.me.regs.msetup
      (a < 2 ^ 12 → a % 16 ≤ 11 → a / 16 % 16 ≤ 12 → a / 256 ≤ 11 → s.me.mat.passes ≠ [] → exec (.mWin o) s = .next (s.reissue slotM)) ∧
      (b.toNat < 2 ^ 32 → s.me.mat.passes ≠ [] → exec (.mWsc o) s = .next (s.reissue slotM)) ∧
      (a < 2 ^ 12 → a % 16 ≤ 11 → a / 16 % 16 ≤ 12 → a / 256 ≤ 11 → s.me.mat.passes = [] →
        ∃ w, exec (.mWin o) s = .next (s.earlyPromotion.mapRegs fun r => { r with msetup := w }) ∧
          muFdst w = o.d ∧ muZcg w = a % 16 ∧ muNg w = a / 16 % 16 ∧ muObg w = a / 256 ∧
          muAsh w = muAsh m ∧ muWsh w = muWsh m ∧ muWrow w = muWrow m) ∧
      (2 ^ 12 ≤ a ∨ 11 < a % 16 ∨ 12 < a / 16 % 16 ∨ 11 < a / 256 → exec (.mWin o) s = .next (s.slotFault slotM 0x0110)) ∧
      (b.toNat < 2 ^ 32 → s.me.mat.passes = [] →
        ∃ w, exec (.mWsc o) s = .next (s.earlyPromotion.mapRegs fun r => { r with msetup := w }) ∧
          muAsh w = o.d.setWidth 5 ∧ muWsh w = o.a.setWidth 5 ∧ muWrow w = b.toNat ∧
          muFdst w = muFdst m ∧ muZcg w = muZcg m ∧ muNg w = muNg m ∧ muObg w = muObg m) ∧
      (2 ^ 32 ≤ b.toNat → exec (.mWsc o) s = .next (s.slotFault slotM 0x0110)))

/-- The runs and their weight formats (R295). -/
def runTable : Instr → Option (OpMR × Nat)
  | .mRun8 o => some (o, 0x12)
  | .mRun4 o => some (o, 0x13)
  | .mRunt o => some (o, 0x17)
  | _ => none

/-- The outputs of a run (R115). -/
def runOutputs (wfmt : Nat) : Nat := if wfmt = 0x12 then 384 else if wfmt = 0x13 then 768 else 1536

/-- The reads of a run succeed (R294, R296): its planes, and the activation scales of its rows, 2^0 where the set-up names none. -/
def runReads (s : State) (o : OpMR) (pa : Nat) (planes : List (BitVec 2048)) (bad : Bool) (ea : List Nat) (bad2 : Bool) (t : State) : Prop :=
  let a := s.rdH o.h
  let ha := muAsh s.me.regs.msetup
  let rows := o.mm.toNat + 1
  ∃ s1, activationPlanes a rows = some pa ∧ runPlanes a o.h pa (List.range rows) s = .ok planes bad s1 ∧
    ((ha = 0 ∧ ea = List.replicate rows 0x7F ∧ bad2 = false ∧ t = s1) ∨
     (ha ≠ 0 ∧ activationScaleOk ((s1.rdH ha).setWidth 512) (dRank (a.setWidth 512)) (cursor a 0 / (256 * pa)) (cursor a 1 + rows) = true ∧
      runElements (fun st m => runElement st ((s1.rdH ha).setWidth 512) ha 8 fun x =>
        if x = 0 then cursor a 0 / (256 * pa) else if x = 1 then cursor a 1 + m else cursor a x) (List.range rows) s1 = .ok ea bad2 t))

/-- The weight scales of a run that opens a group are read in state t (R294), 1.0 where the set-up names none. -/
def scaleReads (t : State) (ng : Nat) (sw : List Nat) (u : State) : Prop :=
  let ms := t.me.regs.msetup
  let d : BitVec 512 := (t.rdH (muWsh ms)).setWidth 512
  (muWsh ms = 0 ∧ sw = List.replicate (128 * ng) 0x3F800000 ∧ u = t) ∨
  (muWsh ms ≠ 0 ∧ weightScaleOk d (muWrow ms) (128 * (muObg ms + ng)) = true ∧
    ∃ bad, runElements (fun st i => runElement st d (muWsh ms) 32 fun k => if k = 0 then 128 * muObg ms + i else muWrow ms)
      (List.range (128 * ng)) t = .ok sw bad u)

/-- The pass of a run stands in the engine: its number, operands and place in the group, the trims that stand from it on (R124), and nothing
written to memory. -/
def passIssued (s u : State) (o : OpMR) (wfmt : Nat) (planes : List (BitVec 2048)) (g : Group) : Prop :=
  ∃ p, u.me.mat.passes = [p] ∧ p.seq = s.me.mat.seq + 1 ∧ u.me.mat.seq = p.seq ∧ p.planes = planes ∧ p.z = o.z ∧
    p.m = o.mm.toNat + 1 ∧ p.wfmt = BitVec.ofNat 8 wfmt ∧ p.half = s.me.mat.half ∧ p.sp = o.sp.toNat ∧
    u.me.mat.trim = s.me.mat.nextTrim ∧
    u.me.mat.group = some g ∧ (p.promo = true ↔ g.passes = g.p) ∧ u.mem = s.mem ∧ u.me.regs = s.me.regs

/-- A run whose operands are good issues its pass: the pass joins the open group where all that R119 names agree, and otherwise opens one with its
weight scales, after the promotion of a group that is open; SEQ advances, the group counts the pass, and the last of P passes is the one that promotes. With NORED, a
reduced run faults with 0x3004 (R379). -/
def runsIssueTheirPass : Prop :=
  ∀ (s : State) (i : Instr) (o : OpMR) (wfmt : Nat), runTable i = some (o, wfmt) →
    (s.guard slotM o.g = false → exec i s = .next s) ∧
    (s.guard slotM o.g = true → ¬ engineIdle s → exec i s = .next (s.reissue slotM)) ∧
    (s.guard slotM o.g = true → engineIdle s →
      let w := (s.tower (towerOf s.now.core)).tiers
      let ms := s.me.regs.msetup
      let ng := if muNg ms = 0 then runOutputs wfmt / 128 else muNg ms
      let fits := muZcg ms + ng ≤ 12 ∧ muObg ms + ng ≤ runOutputs wfmt / 128
      let seff := effectiveSplit s s.now.core o.sp.toNat (fallbackMask w s.me.regs.mpin)
      let reduced := (detCore s s.now.core = false ∧ seff < o.sp.toNat) ∨ w.skip.isSome = true
      (w.lost ≠ 0 → exec i s = .next (s.slotFault slotM 0x3033)) ∧
      (w.lost = 0 → ¬ fits → exec i s = .next (s.slotFault slotM 0x011E)) ∧
      (∀ pa planes bad ea bad2 t, w.lost = 0 → fits → runReads s o pa planes bad ea bad2 t →
        (s.me.regs.mpin.getLsbD 8 = true → reduced → exec i s = .next (t.slotFault slotM 0x3004)) ∧
        (s.me.regs.mpin.getLsbD 8 = false ∨ ¬ reduced →
          let setup : RunSetup := { wfmt := wfmt, pa := pa, afmt := dFmt ((s.rdH o.h).setWidth 512), ng := ng, ea := ea, eaBad := bad2, seff := seff, fb := fallbackMask w s.me.regs.mpin }
          (∀ g, s.me.mat.group = some g → joinsGroup g o setup ms = true →
            ∃ u, exec i s = .next u ∧ passIssued s u o wfmt planes { g with passes := g.passes + 1, bundle := s.bundlePc }) ∧
          (∀ sw u0, s.me.mat.group = none → scaleReads t ng sw u0 → ∃ g u, exec i s = .next u ∧ passIssued s u o wfmt planes g ∧
            g.passes = 1 ∧ g.p = o.pp.toNat + 1 ∧ g.z = o.z ∧ g.sw = sw.map (BitVec.ofNat 32) ∧ g.ea = ea.map (BitVec.ofNat 8)) ∧
          (∀ g0 sw u0, s.me.mat.group = some g0 → joinsGroup g0 o setup ms = false →
            scaleReads t ng sw u0 → ∃ g u, exec i s = .next u ∧ passIssued s u o wfmt planes g ∧
            g.passes = 1 ∧ g.p = o.pp.toNat + 1 ∧ g.z = o.z ∧ g.sw = sw.map (BitVec.ofNat 32) ∧
            u.me.mat.promos = [{ group := g0, nb := s.me.mat.nb, seq := s.me.mat.seq }]))))

/-- m.swap asks for an exchange of the halves, which SWAP_EXCHANGE performs; a pre-emptor's faults with 0x1109 (R129, R298, R360). -/
def swapsExchangeTheHalves : Prop :=
  (∀ (s : State) (o : OpT), (s.guard slotM o.g = false → exec (.mSwap o) s = .next s) ∧
    (s.guard slotM o.g = true → s.me.run.bind Running.preemptor = none →
      exec (.mSwap o) s = .next (s.setMe { s.me with aff := true, mat := { s.me.mat with swaps := s.me.mat.swaps + 1 } })) ∧
    (∀ b, s.guard slotM o.g = true → s.me.run.bind Running.preemptor = some b → exec (.mSwap o) s = .next (s.layoutFault slotM 0x1109))) ∧
  (∀ (s : State) (n : Nat), s.me.mat.swaps = n + 1 → ∃ m, exec .swapExchange s = .next (s.setMe { s.me with mat := m }) ∧
    m = { s.me.mat with half := !s.me.mat.half, swpc := s.me.mat.swpc + 1, swaps := n })

/-- m.prom closes the open group and starts its promotion; PROMOTION performs it: every element the group delivers takes its promoted value
and its bound, and no other element of any z register changes (R120, R121, R299). -/
def promotionsReachExactlyTheirElements : Prop :=
  (∀ (s : State) (o : OpT), s.guard slotM o.g = true → s.me.mat.passes = [] →
    (s.me.mat.group = none → exec (.mProm o) s = .next s) ∧
    (∀ g, s.me.mat.group = some g → exec (.mProm o) s = .next (s.setMe { s.me with mat := { s.me.mat with
      group := none, nb := [], promos := s.me.mat.promos ++ [{ group := g, nb := s.me.mat.nb, seq := s.me.mat.seq }] } }))) ∧
  (∀ (s : State) (p : Promo), s.me.mat.promos = [p] → swf 0 s.me.mat.z = true → swf 0 s.me.mat.zb = true →
    p.group.m ≤ 16 → p.group.zcg + p.group.ng ≤ 12 →
    let g := p.group
    let place := fun m i => 24576 * g.z.toNat + 1536 * m + 128 * g.zcg + i
    ∃ t, exec .promotion s = .next t ∧ t.me.mat.promos = [] ∧
      (∀ m i, m < g.m → i < 128 * g.ng →
        let e := promoteElement g m i (sget 0 s.me.mat.z (place m i)) (sget 0 s.me.mat.zb (place m i)) (sget 0 p.nb (1536 * m + 128 * g.zcg + i))
        (sget 0 t.me.mat.z (place m i), sget 0 t.me.mat.zb (place m i)) = (e.1, e.2.1)) ∧
      (∀ a, (∀ m i, m < g.m → i < 128 * g.ng → a ≠ place m i) →
        sget 0 t.me.mat.z a = sget 0 s.me.mat.z a ∧ sget 0 t.me.mat.zb a = sget 0 s.me.mat.zb a) ∧ t.mem = s.mem)

/-- m.drain reads 128 narrow sums of a row, zero beyond the group's rows, and with ABANDON closes the group unpromoted (R300). -/
def drainsReadTheNarrowSums : Prop :=
  ∀ (s : State) (o : OpT), s.guard slotM o.g = true →
    let sel := (s.rdSB slotM o.a).toNat
    let row := sel % 16
    let cg := sel / 16 % 16
    (2 ^ 9 ≤ sel ∨ 11 < cg → exec (.mDrain o) s = .next (s.slotFault slotM 0x0110)) ∧
    (sel < 2 ^ 9 → cg ≤ 11 → s.me.mat.passes ≠ [] → exec (.mDrain o) s = .next (s.reissue slotM)) ∧
    (sel < 2 ^ 9 → cg ≤ 11 → s.me.mat.passes = [] → ∃ (v : Vec) (t : State), exec (.mDrain o) s = .next t ∧
      t.me.regs = (s.resultV slotM o.d v).me.regs ∧ t.me.mat.z = s.me.mat.z ∧ t.me.mat.zb = s.me.mat.zb ∧
      (∀ j, j < 128 → lane v 32 j = (match s.me.mat.group with
        | some g => if row < g.m then (sget 0 s.me.mat.nb (1536 * row + 128 * cg + j)).toNat else 0
        | none => 0)) ∧
      (if 256 ≤ sel ∧ s.me.mat.group.isSome = true then t.me.mat.group = none ∧ t.me.mat.nb = []
       else t.me.mat.group = s.me.mat.group ∧ t.me.mat.nb = s.me.mat.nb))

/-- m.zrd and m.brd read 128 elements of an accumulator row or of its bounds, m.zclr clears the column groups it names, in every row, and no
other element (R301). -/
def accumulatorsAreReadAndCleared : Prop :=
  ∀ (s : State) (o : OpT), s.guard slotM o.g = true →
    let sel := (s.rdSB slotM o.b).toNat
    let z := o.a.toNat % 16
    let free := s.me.mat.passes = [] ∧ s.me.mat.promos = [] ∧ ∀ g, s.me.mat.group = some g → g.z.toNat ≠ z
    (2 ^ 8 ≤ sel ∨ 11 < sel / 16 → ∀ i ∈ [Instr.mZrd o, .mBrd o], exec i s = .next (s.slotFault slotM 0x0110)) ∧
    (sel / 16 ≤ 11 → free →
      (∃ v, exec (.mZrd o) s = .next (s.resultV slotM o.d v) ∧
        ∀ j, j < 128 → lane v 32 j = (sget 0 s.me.mat.z (24576 * z + 1536 * (sel % 16) + 128 * (sel / 16) + j)).toNat) ∧
      (∃ v, exec (.mBrd o) s = .next (s.resultV slotM o.d v) ∧ (∀ j, 128 ≤ j → j < 256 → lane v 16 j = 0) ∧
        ∀ j, j < 128 → lane v 16 j = (sget 0 s.me.mat.zb (24576 * z + 1536 * (sel % 16) + 128 * (sel / 16) + j)).toNat)) ∧
    (2 ^ 12 ≤ sel → exec (.mZclr o) s = .next (s.slotFault slotM 0x0110)) ∧
    (sel < 2 ^ 12 → free → swf 0 s.me.mat.z = true → swf 0 s.me.mat.zb = true →
      ∃ m, exec (.mZclr o) s = .next (s.setMe { s.me with mat := m }) ∧ m.nb = s.me.mat.nb ∧ m.group = s.me.mat.group ∧
        ∀ a, (sget 0 m.z a, sget 0 m.zb a) = if a / 24576 = z ∧ sel.testBit (a % 1536 / 128) = true then (0, 0)
          else (sget 0 s.me.mat.z a, sget 0 s.me.mat.zb a))

/-- m.fold returns the fold word; m.clip 64 column flags of a macro, which CLR clears; m.cal a trim, or the request of a calibration slot; m.pin
the old MPIN while the new one is stored (R302, R303, R304). -/
def foldClipTrimAndPinReads : Prop :=
  ∀ (s : State) (o : OpT), s.guard slotM o.g = true →
    let w := s.rdSB slotM o.a
    let sel := w.toNat
    (s.me.mat.passes = [] → exec (.mFold o) s = .next (s.resultS slotM o.d s.me.mat.fold)) ∧
    (s.me.mat.passes ≠ [] → exec (.mFold o) s = .next (s.reissue slotM)) ∧
    (2 ^ 10 ≤ sel ∨ 4 < sel / 64 % 8 ∨ 11 < sel / 4 % 16 → exec (.mClip o) s = .next (s.slotFault slotM 0x0110)) ∧
    (s.me.mat.passes = [] → sel < 2 ^ 10 → sel / 64 % 8 ≤ 4 → sel / 4 % 16 ≤ 11 → swf false s.me.mat.clip = true →
      let at_ := 3072 * (sel / 64 % 8) + 256 * (sel / 4 % 16) + 64 * (sel % 4)
      ∃ (v : Word) (t : State), exec (.mClip o) s = .next t ∧ t.me.regs = (s.resultS slotM o.d v).me.regs ∧
        (∀ x, x < 64 → v.getLsbD x = sget false s.me.mat.clip (at_ + x)) ∧
        (∀ a, sget false t.me.mat.clip a = if 512 ≤ sel ∧ at_ ≤ a ∧ a < at_ + 64 then false else sget false s.me.mat.clip a)) ∧
    (sel % 4 = 0 → sel < 2 ^ 20 → sel / 4 % 8 = 0 → sel / 32 % 8 ≤ 4 → sel / 256 % 16 ≤ 11 → exec (.mCal o) s = .next
      (s.resultS slotM o.d ((sget 0 s.me.mat.trim (3072 * (sel / 32 % 8) + 256 * (sel / 256 % 16) + sel / 4096)).signExtend 64))) ∧
    (sel = 1 → detCore s s.now.core = true → exec (.mCal o) s = .next (s.resultS slotM o.d 1)) ∧
    (sel = 1 → detCore s s.now.core = false → exec (.mCal o) s = .next
      ((s.resultS slotM o.d 0).setMe { (s.resultS slotM o.d 0).me with mat := { s.me.mat with calReq := true } })) ∧
    (2 ≤ sel % 4 → exec (.mCal o) s = .next (s.slotFault slotM 0x0110)) ∧
    (sel < 2 ^ 9 → sel / 16 % 16 = 0 → (sel / 8 % 2 = 0 ∨ sel % 8 ≤ 4) →
      ∃ t, exec (.mPin o) s = .next t ∧ t.me.regs = { (s.resultS slotM o.d s.me.regs.mpin).me.regs with mpin := w })

/-- Bit x of the cells of column col at K position t, in the half that the pass reads (R114). -/
def weightBit (s : State) (c : CoreId) (half : Bool) (t col x : Nat) : Int :=
  if (readByte s (macroKey c.val half (196608 * t + 16384 * (col / 256) + col % 256 / 8 + 32 * x))).getLsbD (col % 8) then 1 else 0

/-- The weight at row x of output n in its format, from the bits of its columns (R115): two's complement, or the difference of two columns. -/
def weightOf (s : State) (c : CoreId) (p : Pass) (n t x : Nat) : Int :=
  let b := fun col => weightBit s c p.half t col x
  if p.wfmt = 0x12 then
    b (8 * n) + 2 * b (8 * n + 1) + 4 * b (8 * n + 2) + 8 * b (8 * n + 3) + 16 * b (8 * n + 4) + 32 * b (8 * n + 5) + 64 * b (8 * n + 6)
      - 128 * b (8 * n + 7)
  else if p.wfmt = 0x13 then b (4 * n) + 2 * b (4 * n + 1) + 4 * b (4 * n + 2) - 8 * b (4 * n + 3)
  else b (2 * n) - b (2 * n + 1)

/-- The activation at row x of K position t, of row m of a pass, in two's complement from its planes (R93, R116). -/
def activationOf (p : Pass) (m t x : Nat) : Int :=
  ((List.range p.pa).map fun j => (if j + 1 = p.pa then -(2 ^ j) else 2 ^ j) *
    (if (p.planes.getD (p.pa * m + j) 0).getLsbD (512 * t + x) then (1 : Int) else 0)).foldl (fun a b => a + b) 0

/-- The engine's events. SWAP_EXCHANGE and PROMOTION stand above. A pass whose poison was read faults with 0x3040; otherwise, with nothing observed
and no clip storm, PASS_END removes it, adds its sums, and writes FOLD and s[FDST] (R118, R128, R131). -/
def passesEndWithTheirFoldWord : Prop :=
  (∀ (s : State) (p : Pass) (ps : List Pass), s.me.mat.passes = p :: ps → p.poisoned = true →
    exec .passEnd s = .next (passFault s s.now.core p 0x3040)) ∧
  (∀ (s : State) (p : Pass) (ps : List Pass), s.me.mat.passes = p :: ps → p.poisoned = false → s.now.unit = 0 →
    (∀ x ∈ ps, x.seq ≠ p.seq) → p.promo = false →
    let r := passSums s s.now.core p
    clipStorm p r.clips = none → ∃ t, exec .passEnd s = .next t ∧
      t.me.mat.passes = ps ∧ t.me.mat.nb = r.nb ∧ t.me.mat.fold = foldWord p (!r.clips.isEmpty) r.sat.isSome ∧
      (0 < p.fdst.toNat → ∀ y, t.me.regs.seen y (.s p.fdst) = (foldWord p (!r.clips.isEmpty) r.sat.isSome).setWidth 4096) ∧
      t.mem = s.mem ∧ t.me.mat.z = s.me.mat.z) ∧
  (∀ (s : State) (p : Pass) (ps : List Pass) (g : Group), s.me.mat.passes = p :: ps → p.poisoned = false → s.now.unit = 0 →
    (∀ x ∈ ps, x.seq ≠ p.seq) → p.promo = true → s.me.mat.group = some g →
    let r := passSums s s.now.core p
    clipStorm p r.clips = none → ∃ t q, exec .passEnd s = .next t ∧ t.me.mat.passes = ps ∧ t.me.mat.group = none ∧ t.me.mat.nb = [] ∧
      t.me.mat.promos = s.me.mat.promos ++ [q] ∧ q.nb = r.nb ∧ t.me.mat.fold = foldWord p (!r.clips.isEmpty) r.sat.isSome ∧ t.mem = s.mem)

/-- The events of the tiers: a drift cap that rises one step along 0, 3, 6, 8, 10; a column that is trimmed again, from the core's next pass on, or
counted digitally; the trims of a tier, which one without its initial calibration does not receive; the end of a rebuild and the change of roles (R124, R422, R423). Trims are free values (log 9). -/
def tierEventsKeepTheirBook : Prop :=
  (∀ (s : State), let p := s.now.unit % 5
    let cap := fun t : State => ((t.tower s.now.tower).tiers.cap.toList.getD p 0)
    ∃ t, exec .driftCapRise s = .next t ∧ t.mem = s.mem ∧
      cap t = if 10 ≤ cap s then cap s else if cap s < 3 then 3 else if cap s < 6 then 6 else if cap s < 8 then 8 else 10) ∧
  (∀ (s : State), s.now.value = 0 → s.now.unit < 15360 → exec .columnRetrim s = .next (
    if calReady s (towerOf s.now.core) (s.now.unit / 3072) then
      s.setMe { s.me with mat := { s.me.mat with nextTrim := sset 0 s.me.mat.nextTrim s.now.unit (Config.trim s.freeN) } }
    else s)) ∧
  (∀ (s : State), s.now.value ≠ 0 → s.now.unit < 15360 → swf false s.me.mat.digital = true → ∃ t, exec .columnRetrim s = .next t ∧
    sget false t.me.mat.digital s.now.unit = true) ∧
  (∀ (s : State), calReady s s.now.tower (s.now.unit % 5) = false → exec .backgroundCalibration s = .next s) ∧
  (∀ (s : State) (c : CoreId) (i : Nat), towerOf c = s.now.tower → i < 3072 → swf 0 (s.core c).mat.nextTrim = true →
    calReady s s.now.tower (s.now.unit % 5) = true → ∃ t, exec .backgroundCalibration s = .next t ∧ t.mem = s.mem ∧
      (t.core c).mat.trim = (s.core c).mat.trim ∧
      sget 0 (t.core c).mat.nextTrim (3072 * (s.now.unit % 5) + i) = Config.trim (4096 * (128 * s.freeN + c.val) + i)) ∧
  (∀ (s : State), (reconPosition (s.tower s.now.tower).tiers).isSome = true → (s.tower s.now.tower).tiers.lost = 0 →
    exec .rebuildComplete s = .next (s.mapTiers s.now.tower fun w => { w with rebuilt := true })) ∧
  (∀ (s : State) (i : Nat), reconPosition (s.tower s.now.tower).tiers = some i → (s.tower s.now.tower).tiers.rebuilt = true →
    rolesFree s s.now.tower = true → ∃ t, exec .changeOfRoles s = .next t ∧
      let w := (s.tower s.now.tower).tiers
      let v := (t.tower s.now.tower).tiers
      v.map.toList.getD i 7 = w.parity ∧ v.parity = 7 ∧ v.failed = none ∧ v.rebuilt = false ∧ v.rolesChanged = true)

end Sys2Proof.Claims

/-- R114 to R118: with SEFF = 0 every count is exact and no conversion clips: what K position t adds to a narrow sum is the integer product of the 512
weights of the output with the 512 activations of the row, for every weight format and every number of planes. -/
def Obligations.DigitalPassesComputeTheIntegerProduct : Prop :=
  ∀ (s : State) (c : CoreId) (p : Pass) (m n nbcol t : Nat), p.seff = 0 → t < 4 → p.wfmt ∈ [0x12, 0x13, 0x17] →
    tierSum s c p m n nbcol t =
      (((List.range 512).map fun x => Claims.weightOf s c p n t x * Claims.activationOf p m t x).foldl (fun a b => a + b) 0, [])

/-! ### The E slot (R85, R307, R308, R319 to R329) -/

namespace Sys2Proof.Claims

/-- R307, R308: the gated pushes, with their fields and major opcodes. -/
def pushTable : Instr → Option (OpT × Nat)
  | .eCpush o => some (o, 0x01)
  | .eGidx o => some (o, 0x03)
  | .eBexp o => some (o, 0x09)
  | .eBarv o => some (o, 0x0A)
  | .eCq o => some (o, 0x10)
  | .eCqi o => some (o, 0x11)
  | .eOsend o => some (o, 0x18)
  | .eUsend o => some (o, 0x19)
  | .eCsend o => some (o, 0x1A)
  | .eSpawn o => some (o, 0x20)
  | .eDec o => some (o, 0x21)
  | .eArm o => some (o, 0x23)
  | .ePrime o => some (o, 0x24)
  | _ => none

/-- The instruction word of a gated push (R307). -/
def pushWord (maj : Nat) (o : OpT) : Nat :=
  maj * 2 ^ 25 + o.d.toNat * 2 ^ 19 + o.a.toNat * 2 ^ 13 + o.b.toNat * 2 ^ 7 + o.g.toNat * 2 ^ 3

/-- The push enters the restart gate behind what is there: its word, s[a] and s[b] as read at issue, the vector it carries and the bundle. -/
def gated (s : State) (maj : Nat) (o : OpT) (v : Vec) (key : Nat) : State :=
  s.setMe { s.me with gate := s.me.gate ++ [.push { word := BitVec.ofNat 32 (pushWord maj o), a := s.rdSB slotE o.a, b := s.rdSB slotE o.b, v := v, bundle := s.bundlePc } key] }

/-- A gated push under a false guard makes no gate entry and changes nothing (R307); checked operands enter the gate, and operands that break a limit
raise the fault of R379. -/
def copyAndCommandPushes : Prop :=
  (∀ (s : State) (i : Instr) (o : OpT) (maj : Nat), pushTable i = some (o, maj) → s.guard slotE o.g = false → exec i s = .next s) ∧
  (∀ (s : State) (o : OpT), s.guard slotE o.g = true →
    let sel := (s.rdSB slotE o.b).toNat
    let ok := sel < 2 ^ 21 ∧ sel / 16 % 16 = 0 ∧ (sel / 2 ^ 16 % 4 = 0 ∧ sel % 16 ≠ 15 ∨ sel / 2 ^ 16 % 4 = 1 ∧ sel < 2 ^ 20)
    (ok → sel < 2 ^ 20 → exec (.eCpush o) s = .next (gated s 0x01 o 0 0)) ∧
    (ok → 2 ^ 20 ≤ sel → s.me.regs.gather = none → ∃ t g, exec (.eCpush o) s = .next t ∧ t.me.gate = (gated s 0x01 o 0 (gatherKey g)).me.gate ∧
      t.me.regs.gather = some g ∧ g.chan.toNat = sel % 16 ∧ g.tmpl.toNat = sel / 256 % 256 ∧
      t.me.regs = { s.me.regs with gather := some g } ∧ t.mem = s.mem) ∧
    (¬ ok → exec (.eCpush o) s = .next (s.slotFault slotE 0x0110))) ∧
  (∀ (s : State) (o : OpT), s.guard slotE o.g = true →
    let b := (s.rdSB slotE o.b).toNat
    (s.me.regs.gather = none → exec (.eGidx o) s = .next (s.slotFault slotE 0x0120)) ∧
    (∀ g, s.me.regs.gather = some g → 2 ≤ b → exec (.eGidx o) s = .next (s.slotFault slotE 0x0110)) ∧
    (∀ g, s.me.regs.gather = some g → b < 2 → 64 ≤ indicesOut s.me → exec (.eGidx o) s = .next (s.reissue slotE)) ∧
    (∀ g, s.me.regs.gather = some g → b = 0 → indicesOut s.me < 64 → exec (.eGidx o) s = .next (gated s 0x03 o 0 (gatherKey g))) ∧
    (∀ g, s.me.regs.gather = some g → b = 1 → indicesOut s.me < 64 →
      exec (.eGidx o) s = .next ((gated s 0x03 o 0 (gatherKey g)).mapRegs fun r => { r with gather := none }))) ∧
  (∀ (s : State) (o : OpT), s.guard slotE o.g = true →
    let a := (s.rdSB slotE o.a).toNat
    let b := (s.rdSB slotE o.b).toNat
    (a % 64 = 0 → exec (.eSpawn o) s = .next (gated s 0x20 o 0 0) ∧ exec (.eDec o) s = .next (gated s 0x21 o 0 0)) ∧
    (a % 64 ≠ 0 → ∀ i ∈ [Instr.eSpawn o, .eDec o], exec i s = .next (s.slotFault slotE 0x0113)) ∧
    (b < 4 → exec (.eArm o) s = .next (gated s 0x23 o 0 0) ∧ exec (.ePrime o) s = .next (gated s 0x24 o 0 0)) ∧
    (4 ≤ b → ∀ i ∈ [Instr.eArm o, .ePrime o], exec i s = .next (s.slotFault slotE 0x0110)))

/-- Sends check their header at issue and enter the gate with their payload (R325); a header outside its limits faults with
0x0121, and one with a non-zero reserved bit with 0x0110, which is the model's reading (log 36). -/
def sendsCheckTheirHeader : Prop :=
  (∀ (s : State) (o : OpT), s.guard slotE o.g = true →
    let h := (s.rdSB slotE o.a).toNat
    let len := h / 2 ^ 32 % 256
    let reserved := h / 2 ^ 43 % 32 = 0 ∧ h / 2 ^ 24 % 256 = 0
    let cls := h / 2 ^ 40 % 8
    (reserved ∧ cls = 0 ∧ len ≤ 16 → exec (.eOsend o) s = .next (gated s 0x18 o (s.rdV slotE o.d) 0)) ∧
    (reserved → ¬ (cls = 0 ∧ len ≤ 16) → exec (.eOsend o) s = .next (s.slotFault slotE 0x0121)) ∧
    (¬ reserved → ∀ i ∈ [Instr.eOsend o, .eUsend o], exec i s = .next (s.slotFault slotE 0x0110)) ∧
    (let ok := h % 2 ^ 16 ≠ 0xFFFF ∧ ((cls = 0 ∨ cls = 1) ∧ len ≤ 8 ∨ cls = 3 ∧ len ≤ 128)
     let b := s.rdSB slotE o.b
     (reserved → ¬ ok → exec (.eUsend o) s = .next (s.slotFault slotE 0x0121)) ∧
     (reserved → ok → b.toNat % 32 ≠ 0 → exec (.eUsend o) s = .next (s.slotFault slotE 0x0113)) ∧
     (reserved → ok → b.toNat % 32 = 0 → len = 0 → exec (.eUsend o) s = .next (gated s 0x19 o 0 0)) ∧
     (∀ e s1 e2 s2, reserved → ok → b.toNat % 32 = 0 → 0 < len → reachTile s s.now.core none (b.toNat / 2 ^ 16) none false = (.ok e, s1) →
       poisonOf s1 (tteKey s1 e (b.toNat % 2 ^ 16)) 32 = none →
       (let z := b + BitVec.ofNat 64 (32 * (len - 1))
        reachTile s1 s1.now.core none (z.toNat / 2 ^ 16) none false = (.ok e2, s2) →
        poisonOf s2 (tteKey s2 e2 (z.toNat % 2 ^ 16)) 32 = none → exec (.eUsend o) s = .next (gated s2 0x19 o 0 0))))) ∧
  (∀ (s : State) (o : OpT), s.guard slotE o.g = true →
    let h := (s.rdSB slotE o.a).toNat
    (2 ^ 8 ≤ h → exec (.eCsend o) s = .next (s.slotFault slotE 0x0110)) ∧
    (∀ e, h < 2 ^ 8 → circuitEntry s s.now.core h = .ok e →
      (e / 2 ^ 63 % 2 = 1 ∧ e / 2 ^ 36 % 8 ≠ 0 → exec (.eCsend o) s = .next (gated s 0x1A o (s.rdV slotE o.d) 0)) ∧
      (e / 2 ^ 63 % 2 = 0 ∨ e / 2 ^ 36 % 8 = 0 → exec (.eCsend o) s = .next (s.slotFault slotE 0x0121))))

/-- A query waits for two free elements of the result queue and enters the gate with its index row; e.cqi carries its fractions (R324); e.cqpop delivers the
head of the queue and takes it off, or stalls. -/
def queriesAndTheirResults : Prop :=
  (∀ (s : State) (o : OpT), s.guard slotE o.g = true →
    let room := s.me.results.length + reservedElements s s.now.core ≤ 14
    let b := (s.rdSB slotE o.b).toNat
    (2 ^ 16 ≤ b → ∀ i ∈ [Instr.eCq o, .eCqi o], exec i s = .next (s.slotFault slotE 0x0110)) ∧
    (b < 2 ^ 16 → ¬ room → ∀ i ∈ [Instr.eCq o, .eCqi o], exec i s = .next (s.reissue slotE)) ∧
    (b < 2 ^ 16 → room → exec (.eCq o) s = .next (gated s 0x10 o (s.rdV slotE o.a) 0) ∧
      exec (.eCqi o) s = .next (gated s 0x11 o (s.rdV slotE o.a) (s.rdV slotE o.d).toNat))) ∧
  (∀ (s : State) (o : OpT), (s.guard slotE o.g = false → exec (.eCqpop o) s = .next s) ∧
    (∀ r rs, s.guard slotE o.g = true → s.me.results = r :: rs → ∃ t, exec (.eCqpop o) s = .next t ∧ t.me.results = rs ∧
      t.me.regs = (s.resultV slotE o.d r).me.regs ∧ t.mem = s.mem) ∧
    (s.guard slotE o.g = true → s.me.results = [] → ∃ t w, exec (.eCqpop o) s = .next t ∧ t.me.stall = some w ∧ w.kind = 8 ∧ w.obj = 1 ∧
      t.me.regs = s.me.regs ∧ t.mem = s.mem))

/-- e.cpop returns the record at HEADC and claims it until the bundle commits, or zeros from an empty ring (R320); e.recv returns the address of the head
slot, with a claim unless it peeks, or 0 from an empty queue (R326). HEADC and the memory stay as they are. -/
def popsClaimTheHead : Prop :=
  (∀ (s s1 : State) (o : OpT) (e : BitVec 64) (key : Nat), s.guard slotE o.g = true → detCore s s.now.core = false →
    reachHome s s.now.core (s.rdSB slotE o.a) true = (.ok e, key, s1) → let s2 := touchHome s1 key 32 true
    poisonOf s2 key 32 = none →
    let t0 := towerNo (key / 2 ^ 40)
    let headc := readNat s2 key 4
    let off := 32 + 32 * (headc % 2 ^ (readNat s2 (key + 16) 1 % 16))
    (key ∈ (s2.tower t0).claims → exec (.eCpop o) s = .next (s2.reissue slotE)) ∧
    (key ∉ (s2.tower t0).claims → headc = readNat s2 (key + 4) 4 → exec (.eCpop o) s = .next (s2.resultQuad slotE o.d 0)) ∧
    (key ∉ (s2.tower t0).claims → headc ≠ readNat s2 (key + 4) 4 → ∀ e2 slot s3,
      reachHome s2 s2.now.core (s.rdSB slotE o.a + BitVec.ofNat 64 off) false = (.ok e2, slot, s3) → let s4 := touchHome s3 slot 32 false
      poisonOf s4 slot 32 = none → ∃ t, exec (.eCpop o) s = .next t ∧
      (t.tower t0).claims = key :: (s4.tower t0).claims ∧ t.mem = s4.mem ∧
      t.me.regs = (s4.resultQuad slotE o.d (BitVec.ofNat 256 (readNat s4 slot 32))).me.regs)) ∧
  (∀ (s : State) (o : OpT), s.guard slotE o.g = true →
    let sel := (s.rdSB slotE o.a).toNat
    let q := sel % 256
    let e := recvEntry s q
    let mine := recvValid e = true ∧ recvCtx e = coreCtx s s.now.core ∧ recvGen e = coreGen s s.now.core
    (2 ^ 9 ≤ sel → exec (.eRecv o) s = .next (s.slotFault slotE 0x0110)) ∧
    (sel < 2 ^ 9 → ¬ mine → exec (.eRecv o) s = .next (s.layoutFault slotE 0x1108)) ∧
    (sel < 2 ^ 9 → mine → q ∈ s.hub.claims → exec (.eRecv o) s = .next (s.reissue slotE)) ∧
    (sel < 2 ^ 9 → mine → q ∉ s.hub.claims → recvCount s q = 0 → exec (.eRecv o) s = .next (s.resultS slotE o.d 0)) ∧
    (sel < 2 ^ 9 → mine → q ∉ s.hub.claims → recvCount s q ≠ 0 → ∃ t, exec (.eRecv o) s = .next t ∧ t.mem = s.mem ∧
      t.hub.claims = (if sel < 2 ^ 8 then q :: s.hub.claims else s.hub.claims) ∧
      t.me.regs = (s.resultS slotE o.d (recvRing e + BitVec.ofNat 64 (2 ^ recvSlog e * (recvHead s q % 2 ^ recvNlog e)))).me.regs))

/-- e.done with a hold faults with 0x1107; with no pass in flight, nothing in the gate and every push taken the gather is closed, what the core wrote is
released, and the node ends with the bundle's commit (R25, R72, R328). A false guard makes it a no-operation. -/
def nodesEndWithoutHolds : Prop :=
  ∀ (s : State) (o : OpT), (s.guard slotE o.g = false → exec (.eDone o) s = .next s) ∧
    (s.guard slotE o.g = true → s.me.held ≠ 0 → exec (.eDone o) s = .next (s.layoutFault slotE 0x1107)) ∧
    (s.guard slotE o.g = true → s.me.held = 0 → s.me.mat.passes ≠ [] → exec (.eDone o) s = .next (s.reissue slotE)) ∧
    (∀ cur, s.guard slotE o.g = true → s.me.held = 0 → engineIdle s → s.me.mat.group = none → s.me.gate = [] → s.me.replay = [] → s.hub.cxlUp = true →
      s.me.current = some cur → ∃ t u, exec (.eDone o) s = .next t ∧ t.me.current = some u ∧ u.ending = .done ∧ u.pc = cur.pc ∧
        t.me.regs.gather = none ∧ t.me.quantum = [] ∧ noDirtyLine t s.now.core)

/-! #### Barriers -/

/-- The barrier word x holds PEND, ARRV, ERR, OPEN and PHASE as given (R84). -/
def barrierIs (x : Word) (pend arrv : Nat) (err opened : Bool) (phase : Nat) : Prop :=
  x.toNat % 2 ^ 32 = pend ∧ x.toNat / 2 ^ 32 % 2 ^ 12 = arrv ∧ x.getLsbD 54 = err ∧ x.getLsbD 55 = opened ∧ x.toNat / 2 ^ 56 = phase

/-- x is an open barrier with PEND and ARRV as given or, with nothing left to expect, the completed phase (R85); phase is PHASE before. -/
def barrierSettled (x : Word) (pend arrv : Nat) (err : Bool) (phase : Nat) : Prop :=
  if pend = 0 ∧ arrv = 0 then barrierIs x 0 0 err false ((phase + 1) % 256) else barrierIs x pend arrv err true phase

/-- An operation of the occasion's context on a barrier: the open barrier takes PEND, ARRV and ERR as the operation gives them, a closed one keeps its word;
both an operation that sets ERR and one that finds the barrier closed are reported to the fault queue (R85, R412, R414). -/
def barrierOperation (s : State) (i : Instr) (pend arrv : Word → Nat) (err : Word → Bool) : Prop :=
  let c := s.now.core
  let key := s.now.unit
  let s1 := homeWord s c key
  let w := readWord s1 key
  (w.getLsbD 55 = false → exec i s = .next (faultRecord s1 (key / 2 ^ 40) 0x4021 (coreCtx s c) (coreGen s c) c.val s.now.addr w)) ∧
  (w.getLsbD 55 = true → ∃ x, barrierSettled x (pend w) (arrv w) (w.getLsbD 54 || err w) (w.toNat / 2 ^ 56) ∧
    exec i s = .next (if err w then
      faultRecord (writeWord s1 key x) (key / 2 ^ 40) 0x4020 (coreCtx s c) (coreGen s c) (132 + key / 2 ^ 40) s.now.addr w
      else writeWord s1 key x))

/-- The barrier instructions reach the barrier's home (R323), where the arm opens it or is refused, an expect adds its bytes, an arrival takes one off, and an
operation that leaves nothing to expect completes the phase (R85). -/
def barriersCountAndComplete : Prop :=
  (∀ (s : State) (o : OpT), s.guard slotE o.g = true →
    let a := s.rdSB slotE o.a
    let b := s.rdSB slotE o.b
    (detCore s s.now.core = true → ∀ i ∈ [Instr.eBarm o, .eBexp o, .eBarv o], exec i s = .next (s.slotFault slotE 0x0312)) ∧
    (detCore s s.now.core = false → a.toNat % 8 ≠ 0 → ∀ i ∈ [Instr.eBarm o, .eBexp o, .eBarv o], exec i s = .next (s.slotFault slotE 0x0113)) ∧
    (detCore s s.now.core = false → a.toNat % 8 = 0 →
      (b.toNat / 2 ^ 12 % 2 ^ 20 ≠ 0 → exec (.eBarm o) s = .next (s.slotFault slotE 0x0110)) ∧
      (2 ^ 32 ≤ b.toNat → exec (.eBexp o) s = .next (s.slotFault slotE 0x0110)) ∧
      (∀ e key s0, reachHome s s.now.core a true = (.ok e, key, s0) → let s1 := touchHome s0 key 8 true
        poisonOf s1 key 8 = none →
        (b.toNat / 2 ^ 12 % 2 ^ 20 = 0 → exec (.eBarm o) s = .next (s1.dueFirst .barrierArm
          { onCore s1.now.core with unit := key, addr := s1.rdSB slotE o.a, value := b, extra := o.d.setWidth 64 })) ∧
        (b.toNat < 2 ^ 32 → exec (.eBexp o) s = .next (gated s1 0x09 o 0 key)) ∧
        exec (.eBarv o) s = .next (gated s1 0x0A o 0 key)))) ∧
  (∀ (s : State), let key := s.now.unit
    let s1 := homeWord s s.now.core key
    let w := readWord s1 key
    (w.getLsbD 55 = true → exec .barrierArm s = .next (s1.slotFault slotE 0x0123)) ∧
    (w.getLsbD 55 = false → ∃ x, barrierSettled x (s.now.value.toNat / 2 ^ 32) (s.now.value.toNat % 2 ^ 12) false (w.toNat / 2 ^ 56) ∧
      exec .barrierArm s = .next ((writeWord s1 key x).resultS slotE (BitVec.ofNat 6 s.now.extra.toNat) (BitVec.ofNat 64 (w.toNat / 2 ^ 56))))) ∧
  (∀ (s : State), let e := s.now.value.toNat % 2 ^ 32
    barrierOperation s .barrierExpect (fun w => if w.toNat % 2 ^ 32 + e < 2 ^ 32 then w.toNat % 2 ^ 32 + e else w.toNat % 2 ^ 32)
      (fun w => w.toNat / 2 ^ 32 % 2 ^ 12) (fun w => decide (2 ^ 32 ≤ w.toNat % 2 ^ 32 + e)) ∧
    barrierOperation s .barrierArrival (fun w => w.toNat % 2 ^ 32) (fun w => w.toNat / 2 ^ 32 % 2 ^ 12 - 1)
      (fun w => decide (w.toNat / 2 ^ 32 % 2 ^ 12 = 0)))

end Sys2Proof.Claims
/-! ### Replay windows and Churn (R130, R149 to R151, R183, R184, R310 to R316, R319, R321) -/

namespace Sys2Proof.Claims

/-- A channel of a cluster's Churn or of one of the four hub Churns (R3, R183). -/
def isChannel (d : Dest4) : Prop := d.chan < 16 ∧ (d.kind = 1 ∨ d.kind = 2 ∧ d.unit < 4)

/-- REPLAY_ACK of the one entry of a core whose gate has nothing to empty: the entry leaves the window and its consumer, which expects the next number from
then on, takes it (R149). A Rennet takes a command (R327, R329), a Churn a copy as the next of its channel (R319) or an index of a gather that is not over
(R321), the hub an ordered packet into its injection queue (R325); an entry of a context that was killed does nothing, and so does a duplicate. -/
def acceptedEntriesReachTheirConsumer : Prop :=
  (∀ (s : State) (e : ReplayEntry), s.me.replay = [e] → e.dest = Dest4.ofCode s.now.unit → s.me.freed = 0 → isDuplicate s.me e = true →
    exec .replayAck s = .next (s.setMe { s.me with replay := [] })) ∧
  ∀ (s : State) (e : ReplayEntry), s.me.replay = [e] → e.dest = Dest4.ofCode s.now.unit → s.me.freed = 0 → isDuplicate s.me e = false →
    let maj := pushMajor e.push
    let s1 := s.setMe { s.me with replay := [], expected := (e.dest, e.seq + 1) :: s.me.expected.filter fun x => x.1 ≠ e.dest }
    (ctxCurrent s e.ctx e.gen = false → exec .replayAck s = .next s1) ∧
    (ctxCurrent s e.ctx e.gen = true → e.dest.kind = 0 →
      let t := towerNo e.dest.unit
      let tag := e.ctx.toNat * 2 ^ 16 + e.gen.toNat * 2 ^ 32
      let arm := { Occasion.none with core := s.now.core, tower := t, unit := 1, value := e.push.a, extra := BitVec.ofNat 64 (e.ctx.toNat + e.gen.toNat * 2 ^ 16) }
      (maj = 0x20 → exec .replayAck s = .next { s1 with agenda := s.agenda ++ [(.spawnAtHomeRennet,
        { Occasion.none with core := s.now.core, tower := t, addr := e.push.a, extra := BitVec.ofNat 64 tag })] }) ∧
      (maj = 0x21 → exec .replayAck s = .next { s1 with agenda := s.agenda ++ [(.successorDecrement,
        { Occasion.none with core := s.now.core, tower := t, addr := e.push.a, extra := BitVec.ofNat 64 (pushMark + tag) })] }) ∧
      (maj = 0x23 → exec .replayAck s = .next { s1 with agenda := s.agenda ++ [(.garmStore, arm)] }) ∧
      (maj = 0x24 → exec .replayAck s = .next { s1 with agenda := s.agenda ++ [(.gprimeStore, arm)] })) ∧
    (ctxCurrent s e.ctx e.gen = true → isChannel e.dest → maj = 0x01 →
      ∃ t q, exec .replayAck s = .next t ∧ t.me.replay = [] ∧
        (t.churnChan e.dest).queue = (s.churnChan e.dest).queue ++ [q] ∧ q.param = e.push.a ∧
        q.tmpl.toNat = e.push.b.toNat / 256 % 256 ∧
        q.gath = (if e.push.b.toNat / 2 ^ 20 % 2 = 1 then some e.key else none) ∧ q.ctx = e.ctx ∧ q.gen = e.gen ∧
        q.source = .push s.now.core e.push.bundle ∧ (q.gath = none → q.ordinal = (s.churnChan e.dest).seq + 1)) ∧
    (∀ l, ctxCurrent s e.ctx e.gen = true → e.dest.kind = 1 → maj = 0x03 → (s.me.live.find? fun l => gatherKey l.gather = e.key) = some l →
      ∃ t i, exec .replayAck s = .next t ∧ t.me.replay = [] ∧ t.me.gidx = s.me.gidx ++ [i] ∧ i.gather = l.gather ∧ i.index.toNat = e.push.a.toNat % 2 ^ 32) ∧
    (ctxCurrent s e.ctx e.gen = true → e.dest.kind = 3 → maj = 0x18 →
      ∃ t q, exec .replayAck s = .next t ∧ t.me.replay = [] ∧ t.hub.inject = s.hub.inject ++ [q] ∧ pCls q.hdr = 2 ∧
        q.pay = vecBytes e.push.v (32 * (e.push.a.toNat / 2 ^ 32 % 256)))

/-- REPLAY_NAK counts the refusal of the oldest entry of the window and holds it back for base × 2^min(n − 1, exponent) clk (R149, R150);
RETRY_BACKOFF_EXPIRY ends the hold of every entry of the window and offers the oldest again, or offers a Rennet's record to its ring again (R316). -/
def refusedEntriesAreHeldAndOfferedAgain : Prop :=
  (∀ (s : State) (e : ReplayEntry), (s.me.replay.find? fun x => x.dest = Dest4.ofCode s.now.unit) = some e →
    let base := if s.me.retry.toNat % 2 ^ 16 = 0 then 16 else s.me.retry.toNat % 2 ^ 16
    let e1 := { e with naks := e.naks + 1, held := some (s.clk + base * 2 ^ min e.naks (min 10 (s.me.retry.toNat / 2 ^ 20 % 16))) }
    ∃ t, exec .replayNak s = .next t ∧ t.me.replay = (s.me.replay.map fun x => if x = e then e1 else x) ∧ t.me.regs = s.me.regs ∧
      t.me.statSeq = s.me.statSeq + 1) ∧
  (∀ (s : State), s.now.value = 0 → ∃ t, exec .retryBackoffExpiry s = .next t ∧
    t.me.replay = (s.me.replay.map fun e => if e.dest = Dest4.ofCode s.now.unit then { e with held := none } else e) ∧ t.mem = s.mem) ∧
  (∀ (s s1 s2 u : State) (x : Offer) (xs : List Offer) (key : Nat) (slot : Except Code Nat), let t0 := s.now.tower
    let s0 := s.setTower t0 { (s.tower t0) with offers := xs }
    s.now.value = 1 → (s.tower t0).offers = x :: xs → x.held ≤ s.clk → offerWaits s t0 x = false → offerWaits s0 t0 x = false →
    rennetKey s0 t0 x.ctx x.gen x.ring 32 = (.ok key, s1) →
    rennetKey s1 t0 x.ctx x.gen (x.ring + BitVec.ofNat 64 (ringNext s1 key)) 0 = (slot, s2) → ringPut s2 key slot.toOption x.entry = .taken u →
    ∃ t, exec .retryBackoffExpiry s = .next t ∧ (t.tower t0).offers = xs ∧ t.mem = u.mem)

/-- A completion ring, whose next slot is slot TAILC mod 2^NLOG behind its header, takes a record into that slot while TAILC − HEADC < 2^NLOG and then
advances TAILC; a full ring refuses it and advances FULLC; NLOG 0 drops it (R316). No other byte of memory changes. -/
def ringsTakeRecordsInOrder : Prop :=
  ∀ (s : State) (key : Nat) (entry : BitVec 256), Memory.wf s.mem = true →
    let headc := readNat s key 4
    let tailc := readNat s (key + 4) 4
    let slots := 2 ^ (readNat s (key + 16) 1 % 16)
    ringNext s key = 32 + 32 * (tailc % slots) ∧
    (∀ slot, slots = 1 → ringPut s key slot entry = .noSlots) ∧
    (∀ slot, 1 < slots → (tailc + 2 ^ 32 - headc) % 2 ^ 32 < slots → slot + 32 ≤ key ∨ key + 32 ≤ slot → ∃ t, ringPut s key (some slot) entry = .taken t ∧
      readNat t slot 32 = entry.toNat ∧ readNat t key 4 = headc ∧ readNat t (key + 4) 4 = (tailc + 1) % 2 ^ 32 ∧
      ∀ a, a < key ∨ key + 8 ≤ a → a < slot ∨ slot + 32 ≤ a → readByte t a = readByte s a) ∧
    (1 < slots → (tailc + 2 ^ 32 - headc) % 2 ^ 32 < slots → ringPut s key none entry = .unusable) ∧
    (∀ slot, 1 < slots → slots ≤ (tailc + 2 ^ 32 - headc) % 2 ^ 32 → ∃ t, ringPut s key slot entry = .full t ∧
      readNat t (key + 12) 4 = (readNat s (key + 12) 4 + 1) % 2 ^ 32 ∧
      ∀ a, a < key + 12 ∨ key + 16 ≤ a → readByte t a = readByte s a)

/-- The nest of a copy steps i[0] fastest: element pos is the one whose indices are the digits of pos in the counts (R155, R313). -/
def nestsCountTheirElements : Prop :=
  ∀ (m : BitVec 1024) (pos : Nat), (∀ k, k < 6 → tCount m k ≠ 0) → pos < copyTotal m →
    (∀ k, k < 6 → copyIndex m pos k < tCount m k) ∧
    pos = copyIndex m pos 0 + tCount m 0 * (copyIndex m pos 1 + tCount m 1 * (copyIndex m pos 2 + tCount m 2 * (copyIndex m pos 3 +
      tCount m 3 * (copyIndex m pos 4 + tCount m 4 * copyIndex m pos 5))))

/-- Between tensors of one format a copy moves the bits of an element and nothing else: the destination element reads as the source element did, other bits
of a shared byte stay, and every other byte reads as before, but for the parity macro of a macro half (R30, R313). -/
def copiesOfOneFormatMoveTheBits : Prop :=
  ∀ (s : State) (cp : Copy) (es ed : BitVec 64) (bs td bd w : Nat) (dc : Nat → Nat), Memory.wf s.mem = true →
    (∀ t, (s.tower t).combine = []) → dFmt cp.src = dFmt cp.dst → dEsize cp.src = dEsize cp.dst → w = 2 ^ dEsize cp.src →
    1 ≤ dEsize cp.src → dEsize cp.src ≤ 6 → bs % w = 0 → bd % w = 0 →
    let src := tteKey s es (bs / 8)
    let dst := tteKey s ed (bd / 8)
    let n := (w + 7) / 8
    poisonOf s src n = none → (2 ^ 44 ≤ dst → dst < 2 ^ 45 → dst % 2 ^ 20 + n ≤ 786432) →
    ∃ t c, writeElement s cp es bs ed td bd dc = .wrote t c ∧ c.pos = cp.pos + 1 ∧ c.flags = cp.flags ∧
      readNat t dst n / 2 ^ (bd % 8) % 2 ^ w = readNat s src n / 2 ^ (bs % 8) % 2 ^ w ∧
      (∀ i, i < 8 → w < 8 → i < bd % 8 ∨ bd % 8 + w ≤ i → (readByte t dst).getLsbD i = (readByte s dst).getLsbD i) ∧
      (∀ a, a < dst ∨ dst + n ≤ a → (2 ^ 44 ≤ dst → dst < 2 ^ 45 → ∀ i, i < n → a ≠ parityKey (dst + i)) → readByte t a = readByte s a)

/-- COPY_START begins the request at the head of the channel with the template as read, or goes on with the copy that runs; how many elements one event
writes is free (log 3). A template that is refused ends the copy with its status (R310 to R313). A request of a killed context is dropped. -/
def copiesStartAtTheHeadOfTheirChannel : Prop :=
  ∀ (s : State), let d := Dest4.ofCode s.now.unit
    let ch := s.churnChan d
    (∀ cp, ch.running = some cp → cp.ended = false → cp.hold = false → ∃ n, let r := runCopy d (copyTotal cp.tmpl - cp.pos) (n + 1) s cp
      exec .copyStart s = .next (r.1.setChurnChan d { (r.1.churnChan d) with running := some r.2 })) ∧
    (∀ r rest, ch.running = none → ch.queue = r :: rest →
      (ctxCurrent s r.ctx r.gen = false → exec .copyStart s = .next (s.setChurnChan d { ch with queue := rest })) ∧
      (∀ m src dst s1, ctxCurrent s r.ctx r.gen = true → r.gath = none →
        readTemplate s (copyView s d r) r.tmpl false = (.ready m src dst, s1) →
        let cp := newCopy r m src dst
        ∃ n, let x := runCopy d (copyTotal m) (n + 1) (s1.setChurnChan d { (s1.churnChan d) with queue := rest, running := some cp }) cp
          exec .copyStart s = .next (x.1.setChurnChan d { (x.1.churnChan d) with running := some x.2 })) ∧
      (∀ m dst a b s1, ctxCurrent s r.ctx r.gen = true → r.gath = none →
        readTemplate s (copyView s d r) r.tmpl false = (.bad m dst a b, s1) → isChannel d →
        ∃ t cp, exec .copyStart s = .next t ∧ (t.churnChan d).running = some cp ∧ (t.churnChan d).queue = rest ∧ cp.req = r ∧
          cp.ended = true ∧ cp.status = a ∧ cp.fcode = b ∧ cp.bytes = 0))

/-- COPY_COMPLETE of a copy with a ring that takes its record: the record is in the ring before the barrier counts and the channel is free; the record holds
the fields of R315. A full ring keeps the copy for its back-off (R314, R316), and an object in a handover keeps it waiting (R401). A copy that has not ended, or a channel without one, is left alone. -/
def copiesCompleteThroughTheirRing : Prop :=
  (∀ (s : State) (cp : Copy), let d := Dest4.ofCode s.now.unit
    (s.churnChan d).running = some cp → cp.ended = true → tRing cp.tmpl ≠ 0 →
    (∀ s1, copyTargets s d cp = (none, s1) → exec .copyComplete s = .next s1) ∧
    (∀ x key s1 s2, copyTargets s d cp = (some x, s1) → x.ring = some key → ringPut s1 key x.slot (completionEntry d cp) = .taken s2 →
      exec .copyComplete s = .next (afterRecord ((ringVectors s2 key).foldl raise s2) d cp x.bara)) ∧
    (∀ x key s1 s2, isChannel d → copyTargets s d cp = (some x, s1) → x.ring = some key →
      ringPut s1 key x.slot (completionEntry d cp) = .full s2 → ∃ t, exec .copyComplete s = .next t ∧
        (t.churnChan d).running = some { cp with naks := cp.naks + 1, held := s.clk + backoff (churnRetry s d) (cp.naks + 1) } ∧ t.mem = s2.mem) ∧
    (∀ x s1, copyTargets s d cp = (some x, s1) → x.ring = none → exec .copyComplete s = .next (afterRecord
      (copyRecord s1 d cp 0x4023 (tRing cp.tmpl) (setFld (copyInfo d cp) 16 16 cp.status.toNat)) d cp x.bara))) ∧
  (∀ (s : State) (cp : Copy), let d := Dest4.ofCode s.now.unit
    (s.churnChan d).running = some cp → cp.ended = true → tRing cp.tmpl = 0 → tBara cp.tmpl = 0 → cp.status = 0 → cp.req.source = .host →
    exec .copyComplete s = .next (dropWalked (s.setChurnChan d { (s.churnChan d) with running := none }) (copyTower d) (churnUnit d))) ∧
  (∀ (s : State), let d := Dest4.ofCode s.now.unit
    ((s.churnChan d).running = none ∨ ∃ cp, (s.churnChan d).running = some cp ∧ cp.ended = false) → exec .copyComplete s = .next s) ∧
  (∀ (d : Dest4) (cp : Copy), d.chan < 16 → d.unit < 32 → let e := (completionEntry d cp).toNat
    e / 2 ^ 224 = cp.req.ordinal.toNat ∧ e / 2 ^ 192 % 2 ^ 32 = cp.bytes % 2 ^ 32 ∧ e / 2 ^ 176 % 2 ^ 16 = cp.req.tmpl.toNat ∧
    e / 2 ^ 160 % 2 ^ 16 = cp.status.toNat ∧ e / 2 ^ 144 % 2 ^ 16 = cp.fcode.toNat ∧ e / 2 ^ 136 % 2 ^ 8 = d.chan ∧
    e / 2 ^ 128 % 2 ^ 8 = (if d.kind = 1 then d.unit else 32 + d.unit) ∧ e / 2 ^ 112 % 2 ^ 16 = (dTid cp.dst).toNat ∧
    e / 2 ^ 64 % 2 ^ 48 = cp.lo % 2 ^ 48 ∧ e / 2 ^ 16 % 2 ^ 48 = cp.hi % 2 ^ 48 ∧ e / 2 % 2 ^ 6 = cp.flags.toNat ∧ e / 2 ^ 7 % 2 ^ 9 = 0 ∧ e % 2 = 1)

/-- GRANULE_HOLD_RELEASE lets a held copy go on once no pass reads the shadow half (R130); GATHER_ROW_DELIVER puts the row of the oldest index at the end of
the queue of 16 rows, a row that cannot be read as zeros with one record (R261, R321). -/
def heldGranulesAndGatheredRows : Prop :=
  (∀ (s : State) (cp : Copy), let d := Dest4.ofCode s.now.unit
    (s.churnChan d).running = some cp → cp.hold = true → (∀ u, copyElement s d cp ≠ .held u) → ∃ n,
      let r := runCopy d (copyTotal cp.tmpl - cp.pos) (n + 1) (holdRecord s d cp) { cp with hold := false, held := 0 }
      exec .granuleHoldRelease s = .next (r.1.setChurnChan d { (r.1.churnChan d) with running := some r.2 })) ∧
  (∀ (s s1 : State) (i : GatherIndex) (is : List GatherIndex) (x : Code) (row : Vec) (o : GatherOpen), s.me.gidx = i :: is →
    s.me.rows.length < 16 → gatherRow s s.now.core i = (some (x, row, o), s1) → ∃ t, exec .gatherRowDeliver s = .next t ∧
      t.me.gidx = is ∧ t.me.rows = s1.me.rows ++ [(i.gather.serial, row)] ∧ (x ≠ 0 → row = 0 ∧ t.me.statSeq = s1.me.statSeq + 1) ∧ t.mem = s1.mem)

/-- A host write of PARAM or GO to the aperture of a channel that is bound to a current context and ready is taken: PARAM is kept, GO starts a copy with it.
Any other write is discarded and recorded with 0x6030 (R183, R184). -/
def apertureWritesPushCopies : Prop :=
  (∀ (s : State), apertureChannel s.now.addr.toNat = none → ∀ i ∈ [Instr.churnParamWrite, .churnGoWrite],
    exec i s = .next (hubRecord s 0x6030 s.now.addr)) ∧
  ∀ (s : State) (d : Dest4) (reg : Nat), apertureChannel s.now.addr.toNat = some (d, reg) →
    let b := (s.churnChan d).binding.toNat
    let ctx : BitVec 16 := BitVec.ofNat 16 (b / 2 ^ 8)
    let gen : BitVec 8 := BitVec.ofNat 8 b
    let up := if d.kind = 1 then s.hub.ready.toNat.testBit (32 + (copyTower d).val) else s.hub.ready.toNat.testBit 44
    let good := s.now.extra = 0 ∧ up = true ∧ b / 2 ^ 24 % 2 = 1 ∧ ctxCurrent s ctx gen = true
    (good → reg = 0 → exec .churnParamWrite s = .next (s.setChurnChan d { (s.churnChan d) with param := s.now.value })) ∧
    (good → reg = 8 → ∃ t q, exec .churnGoWrite s = .next t ∧ (t.churnChan d).queue = (s.churnChan d).queue ++ [q] ∧
      q.param = (s.churnChan d).param ∧ q.tmpl.toNat = s.now.value.toNat % 256 ∧ q.gath = none ∧ q.ctx = ctx ∧ q.gen = gen ∧ q.source = .host ∧
      (t.churnChan d).seq = (s.churnChan d).seq + 1) ∧
    (¬ good ∨ reg ≠ 0 → exec .churnParamWrite s = .next (hubRecord s 0x6030 s.now.addr)) ∧
    (¬ good ∨ reg ≠ 8 → exec .churnGoWrite s = .next (hubRecord s 0x6030 s.now.addr))

end Sys2Proof.Claims
/-! ### The curd units (R324, R334 to R347, R415) -/

namespace Sys2Proof.Claims

/-- Register r of a curd unit: a lane register, or a scalar one widened. -/
def unitReg (u : CurdUnit) (lanes : Bool) (r : BitVec 3) : BitVec 8192 := if lanes then u.rw r else (u.ri r).setWidth 8192

/-- Unit v is unit u with one more result: x is seen in register d by instructions that issue at program clock due or later, and not before; every other register
is seen as it was (R343). -/
def seenFrom (u v : CurdUnit) (lanes : Bool) (d : BitVec 3) (due : Nat) (x : BitVec 8192) : Prop :=
  (∀ m, due ≤ m → unitReg (v.land m) lanes d = x) ∧ (∀ m, m < due → unitReg (v.land m) lanes d = unitReg (u.land m) lanes d) ∧
  (∀ m l r, l ≠ lanes ∨ r ≠ d → unitReg (v.land m) l r = unitReg (u.land m) l r)

/-- No result of unit u for register d is in flight. -/
def noFlight (u : CurdUnit) (lanes : Bool) (d : BitVec 3) : Prop := ∀ x ∈ u.fly, x.lane = lanes → x.reg ≠ d

/-- The program goes on at index pc, 4 × (W + 1) clk later (R343). -/
def goesOn (s t : State) (p q : CurdProgram) (w : BitVec 4) (pc : Nat) : Prop :=
  (t.tower s.now.tower).curd = some q ∧ q.pc = pc ∧ q.clock = p.clock + 4 * (w.toNat + 1) ∧ q.units.length = p.units.length ∧
  q.words = p.words ∧ q.args = p.args

/-- The program p of the occasion's tower has an instruction after this one, and its clock stays in range; r is the state and the program with everything
that is due in place. -/
def curdRuns (s : State) (p : CurdProgram) (w : BitVec 4) (r : State × CurdProgram) : Prop :=
  (s.tower s.now.tower).curd = some p ∧ p.pc + 1 < p.words.length ∧ p.clock + 4 * (w.toNat + 1) ≤ 2 ^ 32 ∧ r = curdSettle s p

/-- A lane as a signed number. -/
def signed32 (x : Nat) : Int := sextNat 32 x

/-- R345: what the lane instructions compute in each lane from w[a] and w[b], with their wait count and destination. -/
def curdLaneTable : Instr → Option (BitVec 4 × BitVec 3 × BitVec 3 × BitVec 3 × (Nat → Nat → Nat))
  | .qAdd w d a b => some (w, d, a, b, fun x y => (x + y) % 2 ^ 32)
  | .qAdds w d a b => some (w, d, a, b, fun x y => ((max (-(2 ^ 31)) (min (2 ^ 31 - 1) (signed32 x + signed32 y))) % 2 ^ 32).toNat)
  | .qSub w d a b => some (w, d, a, b, fun x y => ((x - y : Int) % 2 ^ 32).toNat)
  | .qSubs w d a b => some (w, d, a, b, fun x y => ((max (-(2 ^ 31)) (min (2 ^ 31 - 1) (signed32 x - signed32 y))) % 2 ^ 32).toNat)
  | .qExt w d a imm => some (w, d, a, a, fun x _ => x / 2 ^ (imm.toNat % 32) % 2 ^ (imm.toNat / 32 % 32 + 1))
  | .qExts w d a imm => some (w, d, a, a, fun x _ =>
      (sextNat (imm.toNat / 32 % 32 + 1) (x / 2 ^ (imm.toNat % 32)) % 2 ^ 32).toNat)
  | .qIns w d a b imm => some (w, d, a, b, fun x y => (x * 2 ^ (imm.toNat % 32) % 2 ^ 32) ||| y)
  | _ => none

/-- Whether a saturating lane instruction clamps. -/
def curdClamps (i : Instr) (x y : Nat) : Bool :=
  match i with
  | .qAdds .. => decide (signed32 x + signed32 y < -(2 ^ 31)) || decide (2 ^ 31 - 1 < signed32 x + signed32 y)
  | .qSubs .. => decide (signed32 x - signed32 y < -(2 ^ 31)) || decide (2 ^ 31 - 1 < signed32 x - signed32 y)
  | _ => false

/-- R345: the scalar instructions, with the new value of unit j's register. -/
def curdScalarTable : Instr → Option (BitVec 4 × Nat × BitVec 3 × (CurdProgram → Nat → CurdUnit → Word))
  | .qArg w d imm => some (w, 8, d, fun p j _ => p.args.getD (j * p.aw + imm.toNat) 0)
  | .qAddi w d a imm => some (w, 4, d, fun _ _ u => BitVec.ofInt 64 ((u.ri a).toInt + imm.toInt))
  | _ => none

/-- The lane and scalar instructions write their table's value in every unit, with their latency, and go on; q.nop only goes on; q.loop counts i[a] down and
goes to its label while unit 0's new value is not zero (R343, R345). Row operations that are due take place, and nothing else of memory changes. -/
def curdInstructionsCompute : Prop :=
  (∀ (s : State) (p : CurdProgram) (i : Instr) (w : BitVec 4) (d a b : BitVec 3) (f : Nat → Nat → Nat) (r : State × CurdProgram),
    curdLaneTable i = some (w, d, a, b, f) → curdRuns s p w r → ∃ t q, exec i s = .next t ∧ goesOn s t p q w (p.pc + 1) ∧ t.mem = r.1.mem ∧
      (∀ (j : Nat) u, r.2.units[j]? = some u → noFlight u true d → ∃ (v : CurdUnit) (x : BitVec 8192), q.units[j]? = some v ∧
        seenFrom u v true d (p.clock + 4) x ∧ ∀ e, e < 256 → lane32 x e = f (lane32 (u.rw a) e) (lane32 (u.rw b) e)) ∧
      q.cflg = (if ∃ u ∈ r.2.units, ∃ e ∈ List.range 256, curdClamps i (lane32 (u.rw a) e) (lane32 (u.rw b) e) = true then p.cflg ||| fSAT else p.cflg)) ∧
  (∀ (s : State) (p : CurdProgram) (i : Instr) (w : BitVec 4) (lat : Nat) (d : BitVec 3) (f : CurdProgram → Nat → CurdUnit → Word) (r : State × CurdProgram),
    curdScalarTable i = some (w, lat, d, f) → curdRuns s p w r → ∃ t q, exec i s = .next t ∧ goesOn s t p q w (p.pc + 1) ∧ t.mem = r.1.mem ∧
      q.cflg = p.cflg ∧ (∀ (j : Nat) u, r.2.units[j]? = some u → noFlight u false d → ∃ v : CurdUnit, q.units[j]? = some v ∧
        seenFrom u v false d (p.clock + lat) ((f p j u).setWidth 8192))) ∧
  (∀ (s : State) (p : CurdProgram) (w : BitVec 4) (r : State × CurdProgram), curdRuns s p w r →
    ∃ t q, exec (.qNop w) s = .next t ∧ goesOn s t p q w (p.pc + 1) ∧ q.units = r.2.units ∧ q.cflg = p.cflg ∧ t.mem = r.1.mem) ∧
  (∀ (s : State) (p : CurdProgram) (w : BitVec 4) (a : BitVec 3) (imm : BitVec 12) (r : State × CurdProgram) (u0 : CurdUnit) (us : List CurdUnit),
    curdRuns s p w r → r.2.units = u0 :: us →
    let pc := if u0.ri a = 1 then p.pc + 1 else ((p.pc : Int) + imm.toInt).toNat
    pc < p.words.length → ∃ t q, exec (.qLoop w a imm) s = .next t ∧ goesOn s t p q w pc ∧ t.mem = r.1.mem ∧
      ∀ (j : Nat) u, r.2.units[j]? = some u → noFlight u false a → ∃ v : CurdUnit, q.units[j]? = some v ∧
        seenFrom u v false a (p.clock + 4) ((u.ri a - 1).setWidth 8192))

/-- The row port is free at the program's clock (R343). -/
def portFree (p : CurdProgram) : Prop := ∀ r, p.lastRow = some r → r + 40 ≤ p.clock

/-- The entry of a table at an index, as R337 clamps it: beyond the last entry zero or the last entry. -/
def entryAt (s : State) (t : TowerId) (u : Nat) (e : BitVec 256) (x : Nat) : Nat :=
  if x < tableLen e then tableAt s t u e x else if tableOob e = true then 0 else tableAt s t u e (tableLen e - 1)

/-- The row operations: q.rd and q.wr move rows of 256 elements of the window, q.look and q.lerp read tables, q.tld loads a block of one; each holds the row
port for 40 clk (R343, R345, R346). The lanes can be read (R416). -/
def rowOperationsMoveTheirRows : Prop :=
  ∀ (s : State) (p : CurdProgram) (w : BitVec 4) (r : State × CurdProgram), curdRuns s p w r → portFree p →
    (∀ (d a f : BitVec 3) (keys : List Nat), let n := 2 ^ (f.toNat % 4)
      keys.length = p.units.length →
      (∀ (j : Nat) u, r.2.units[j]? = some u → rowKey r.1 p (u.ri a) (256 * n) false = .ok (keys.getD j 0) ∧ poisonOf r.1 (keys.getD j 0) (256 * n) = none) →
      ∃ t q, exec (.qRd w d a f) s = .next t ∧ goesOn s t p q w (p.pc + 1) ∧ q.lastRow = some p.clock ∧ t.mem = r.1.mem ∧
        ∀ (j : Nat) u, r.2.units[j]? = some u → noFlight u true d → ∃ (v : CurdUnit) (x : BitVec 8192), q.units[j]? = some v ∧
          seenFrom u v true d (p.clock + 48) x ∧ ∀ e, e < 256 → n < 8 → lane32 x e =
            let y := readNat r.1 (keys.getD j 0 + n * e) n
            if f.getLsbD 2 = true then (sextNat (8 * n) y % 2 ^ 32).toNat else y % 2 ^ 32) ∧
    (∀ (a b f : BitVec 3) (keys : List Nat), let n := 2 ^ (f.toNat % 4)
      keys.length = p.units.length → (∀ (j : Nat) u, r.2.units[j]? = some u → rowKey r.1 p (u.ri a) (256 * n) true = .ok (keys.getD j 0)) →
      ∃ t q, exec (.qWr w a b f) s = .next t ∧ goesOn s t p q w (p.pc + 1) ∧ q.lastRow = some p.clock ∧ t.mem = r.1.mem ∧ q.units = r.2.units ∧
        ∃ rows : List (Nat × Nat × List Byte), q.writes = r.2.writes ++ rows ∧ rows.length = p.units.length ∧
          ∀ (j : Nat) u, r.2.units[j]? = some u → ∃ bytes : List Byte, rows[j]? = some (p.clock + 40, keys.getD j 0, bytes) ∧ bytes.length = 256 * n ∧
            ∀ k, k < 256 * n → (bytes.getD k 0).toNat = lane32 (u.rw b) (k / n) / 2 ^ (8 * (k % n)) % 256) ∧
    (∀ (d a b : BitVec 3) (es : List (BitVec 256 × Nat)), es.length = p.units.length → r.1.badLanes = [] →
      (∀ (j : Nat) u, r.2.units[j]? = some u → programTable r.1 s.now.tower p j (u.ri b) = .ok (es.getD j (0, 0))) →
      (∃ t q, exec (.qLook w d a b) s = .next t ∧ goesOn s t p q w (p.pc + 1) ∧ q.lastRow = some p.clock ∧ t.mem = r.1.mem ∧
        ∀ (j : Nat) u, r.2.units[j]? = some u → noFlight u true d → ∃ (v : CurdUnit) (x : BitVec 8192), q.units[j]? = some v ∧
          seenFrom u v true d (p.clock + 44) x ∧ ∀ l, l < 256 → let e := es.getD j (0, 0)
            lane32 x l = qWiden (tableFmt e.1) (tableBits e.1) (entryAt r.1 s.now.tower e.2 e.1 (lane32 (u.rw a) l % 2 ^ 16)) % 2 ^ 32) ∧
      ((∀ e ∈ es, tableFmt e.1 ≠ 0) →
        ∃ t q, exec (.qLerp w d a b) s = .next t ∧ goesOn s t p q w (p.pc + 1) ∧ q.lastRow = some p.clock ∧ t.mem = r.1.mem ∧
        ∀ (j : Nat) u, r.2.units[j]? = some u → noFlight u true d → ∃ (v : CurdUnit) (x : BitVec 8192), q.units[j]? = some v ∧
          seenFrom u v true d (p.clock + 56) x ∧ ∀ l, l < 256 → let e := es.getD j (0, 0)
            let i := lane32 (u.rw a) l / 2 ^ 8 % 2 ^ 16
            i < tableLen e.1 → lane32 x l = qWiden (tableFmt e.1) (tableBits e.1)
              (interp (tableFmt e.1) (tableBits e.1) (entryAt r.1 s.now.tower e.2 e.1 i) (tableNext r.1 s.now.tower e.2 e.1 i) (lane32 (u.rw a) l % 2 ^ 8)).1 % 2 ^ 32)) ∧
    (∀ (a b : BitVec 3) (imm : BitVec 12) (es : List (BitVec 256 × Nat)), es.length = p.units.length → imm.toNat < 256 →
      (∀ (j : Nat) u, r.2.units[j]? = some u → programTable r.1 s.now.tower p j (u.ri b) = .ok (es.getD j (0, 0))) →
      ∃ t q, exec (.qTld w a b imm) s = .next t ∧ goesOn s t p q w (p.pc + 1) ∧ q.lastRow = some p.clock ∧ t.mem = r.1.mem ∧ q.units = r.2.units ∧
        ∀ (j : Nat) u, r.2.units[j]? = some u → let e := es.getD j (0, 0)
          ∃ vs : List (BitVec 32), (p.clock + 40, laneKey s.now.tower e.2 (tableRow e.1 + imm.toNat) 0, vs) ∈ q.loads ∧
            vs.length = min 256 (tableLen e.1 - 256 * imm.toNat) ∧ ∀ l, l < vs.length → (vs.getD l 0).toNat = lane32 (u.rw a) l % 2 ^ tableBits e.1)

/-- Two row operations closer than 40 clk fault the node with 0x4112, and running past the end with 0x4116 (R343, R347, R415). -/
def curdProgramsFaultTheirNode : Prop :=
  (∀ (s : State) (p : CurdProgram) (i : Instr) (w : BitVec 4) (r : State × CurdProgram), curdRuns s p w r → ¬ portFree p →
    (∃ d a f, i = .qRd w d a f) ∨ (∃ a b f, i = .qWr w a b f) ∨ (∃ d a b, i = .qLook w d a b) ∨ (∃ d a b, i = .qLerp w d a b) ∨
      (∃ a b imm, i = .qTld w a b imm) → exec i s = .next (curdFault r.1 s.now.tower r.2 0x4112)) ∧
  (∀ (s : State) (p : CurdProgram) (w : BitVec 4), (s.tower s.now.tower).curd = some p → p.pc + 1 = p.words.length →
    let r := curdSettle s p
    exec (.qNop w) s = .next (curdFault r.1 s.now.tower { r.2 with pc := p.pc + 1, clock := p.clock + 4 * (w.toNat + 1) } 0x4116)) ∧
  (∀ (s : State) (p : CurdProgram) (code : Code) (home : TowerId) (a : Armed) (t : TowerId), p.writes = [] → p.loads = [] →
    findArmed (s.setTower t { (s.tower t) with curd := none }) p.instKey = some (home, a) → curdFault s t p code =
      faultNode (s.setTower t { (s.tower t) with curd := none }) home.val p.recKey p.instKey code p.ctx p.gen (rennetSrc t) p.record
        (BitVec.ofNat 64 (p.pc % 2 ^ 12 + p.clock % 2 ^ 32 * 2 ^ 32)))

/-- A program starts with its words and arguments read and checked, its window translated and every register zero (R342, R343); a body field out of range faults
the node with 0x4110. q.end ends it, writes CFLG and completes the node (R347). A refresh window lets 160 clk pass while the program clock stands (R343). -/
def curdProgramsStartAndEnd : Prop :=
  (∀ (s : State) (p : CurdProgram), let t0 := s.now.tower
    let rec_ := readRecord s p.recKey
    let v := ctxView s t0 p.ctx p.gen
    (s.tower t0).curd = some p → p.words = [] →
    (bodyBroken rec_ = true → exec .curdProgramStart s = .next (curdFault s t0 p 0x4110)) ∧
    (∀ ws as pages s1, bodyBroken rec_ = false → flatItems s v 4 (qProg rec_) (qPlen rec_) = .ok ws →
      flatItems s v 8 (qArgs rec_) (qNu rec_ * qAw rec_) = .ok as →
      (∀ j x, ws[j]? = some x → wordOk (qPlen rec_) (qAw rec_) j (BitVec.ofNat 32 x) = true) →
      windowPages v (qWpg rec_) (qWnp rec_) s = (some (.ok pages), s1) → ∃ t q, exec .curdProgramStart s = .next t ∧
        (t.tower t0).curd = some q ∧ q.words = ws.map (BitVec.ofNat 32) ∧ q.args = as.map (BitVec.ofNat 64) ∧ q.pages = pages ∧
        q.fu = qFu rec_ ∧ q.pc = p.pc ∧ q.clock = p.clock ∧ q.units.length = qNu rec_ ∧
        ∀ u ∈ q.units, ∀ l m r, unitReg (u.land m) l r = 0)) ∧
  (∀ (s : State) (p : CurdProgram) (w : BitVec 4) (home : TowerId) (a : Armed), (s.tower s.now.tower).curd = some p → p.writes = [] → p.loads = [] →
    let s2 := s.setTower s.now.tower { (s.tower s.now.tower) with curd := none }
    findArmed s2 p.instKey = some (home, a) → ∃ b : Byte, exec (.qEnd w) s = .next (completeNode (writeByte s2 (p.recKey + 43) b) home a p.recKey false) ∧
      b.toNat % 64 = p.cflg.toNat ∧ b.toNat / 64 = (readByte s2 (p.recKey + 43)).toNat / 64) ∧
  (∀ (s : State) (p : CurdProgram), (s.tower s.now.tower).curd = some p → ∃ t q, exec .curdRefreshWindow s = .next t ∧ t.clk = s.clk + 160 ∧
    t.hub.podTime = s.hub.podTime + 160 ∧ (t.tower s.now.tower).curd = some q ∧ q.clock = p.clock ∧ q.pc = p.pc ∧ q.units = p.units ∧ t.mem = s.mem)

/-- An accepted query of a good table is answered with one entry for each of its 256 indices, in the layout of R324; a miss of the directory cache, which it
fills (R336), a program on its unit or a row port that is not free in time refuses it and holds it for its back-off (R338, R339); answers join their core's
result queue, but for those of a continuation that has ended (R328). -/
def queriesAreAnsweredInOrder : Prop :=
  (∀ (s : State) (q : Query), let t0 := s.now.tower
    let e := tableEntry s t0 q.table
    openQuery s t0 = some q → (s.tower t0).queries = [q] → queryMisses s t0 q = false → queryBlocked s t0 q = false →
    (∀ x, queryRefused s t0 q = some x → ∃ t, exec .curdQueryAccept s = .next t ∧ (t.tower t0).queries = [{ q with result := some [] }] ∧ t.mem = s.mem) ∧
    (queryRefused s t0 q = none → s.badLanes = [] → q.lerps = false → ∃ t rs, exec .curdQueryAccept s = .next t ∧
      (t.tower t0).queries = [{ q with result := some rs }] ∧ t.mem = s.mem ∧
      (tableBits e ≠ 32 → rs.length = 1 ∧ ∀ i, i < 256 → lane (rs.getD 0 0) (tableBits e) i =
        entryAt s t0 (queryUnit q e) e (lane q.push.v 16 i)) ∧
      (tableBits e = 32 → rs.length = 2 ∧ ∀ i, i < 256 → lane (rs.getD (i / 128) 0) 32 (i % 128) =
        entryAt s t0 (queryUnit q e) e (lane q.push.v 16 i)))) ∧
  (∀ (s : State) (q : Query), openQuery s s.now.tower = some q → (s.tower s.now.tower).queries = [q] →
    let misses := queryMisses s s.now.tower q
    misses = true ∨ queryBlocked s s.now.tower q = true → ∃ t x, exec .curdQueryAccept s = .next t ∧
      (t.tower s.now.tower).queries = [x] ∧ x.naks = q.naks + 1 ∧ x.held = s.clk + backoff (s.core q.core).retry (q.naks + 1) ∧
      x.push = q.push ∧ x.result = none ∧ (misses = false → t.mem = s.mem) ∧
      (misses = true → ∃ e, cachedEntry t s.now.tower q.table = some e ∧ e.entry = tableEntry s s.now.tower q.table)) ∧
  (∀ (s : State) (q : Query) (rs : List Vec), (s.tower (towerOf s.now.core)).queries = [q] → q.core = s.now.core → q.result = some rs →
    ∃ t, exec .curdResultDeliver s = .next t ∧ t.me.results = (if q.orphan then s.me.results else s.me.results ++ rs) ∧ (t.tower (towerOf s.now.core)).queries = [] ∧
      t.me.regs = s.me.regs ∧ t.mem = s.mem)

end Sys2Proof.Claims
/-! ### The walkers (R52 to R58, R399, R437, R438, R445) -/

namespace Sys2Proof.Claims

/-- The walker goes on with its next instruction, rd holding v, or unchanged where rd is x0 (R55). -/
def walkerWrites (s t : State) (d : BitVec 5) (v : Word) : Prop :=
  let k := (s.tower s.now.tower).walker
  let u := (t.tower s.now.tower).walker
  u.pc = k.pc + 4 ∧ u.cur = k.cur ∧ (d ≠ 0 → u.get d = v) ∧ ∀ n, n = 0 ∨ n ≠ d → u.get n = k.get n

/-- wk.ldp and wk.ldh read 8 aligned bytes of the tower or the host into rd; a misaligned address traps with mepc, mcause 4 and mtval, to mtvec; a failed
read fails the request (R55, R406, R437). An address beyond the tower's frames does not exist (R41). -/
def walkerLoadsReadTheirWord : Prop :=
  ∀ (s : State) (x a d : BitVec 5), let t0 := s.now.tower
    let k := (s.tower t0).walker
    let n := (k.get a).toNat
    (n % 8 ≠ 0 → ∀ i ∈ [Instr.wkLdp x a d, .wkLdh x a d], ∃ t, exec i s = .next t ∧ t.mem = s.mem ∧
      let u := (t.tower t0).walker
      u.mepc = k.pc ∧ u.mcause = 4 ∧ u.mtval = k.get a ∧ u.pc = k.mtvec &&& ~~~(3 : Word) ∧ u.x = k.x) ∧
    (n % 8 = 0 → n < 1179648 * 65536 → let key := t0.val * 2 ^ 40 + n
      let s1 := touchHome s key 8 false
      (poisonOf s1 key 8 = none → ∃ t, exec (.wkLdp x a d) s = .next t ∧ walkerWrites s t d (readWord s1 key) ∧ t.mem = s1.mem) ∧
      (poisonOf s1 key 8 ≠ none → exec (.wkLdp x a d) s = .next (failRequest s1 t0 0x1001))) ∧
    (n % 8 = 0 → 1179648 * 65536 ≤ n → exec (.wkLdp x a d) s = .fault .noSuchFrame) ∧
    (n % 8 = 0 → s.hub.cxlUp = false → exec (.wkLdh x a d) s = .next (failRequest s t0 0x6001)) ∧
    (n % 8 = 0 → s.hub.cxlUp = true → let key := 2 ^ 64 + n
      (poisonOf s key 8 = none → ∃ t, exec (.wkLdh x a d) s = .next t ∧ walkerWrites s t d (readWord s key) ∧ t.mem = s.mem) ∧
      (poisonOf s key 8 ≠ none → exec (.wkLdh x a d) s = .next (failRequest (hubRecord s 0x6002 0) t0 0x6002)))

/-- wk.done and wk.fail with an unknown tag only go on; wk.done of the current request answers the layout unit and installs its entry in the unit's tile cache, or
ends a range request with status 0; an entry with V = 0 is a failure with 0x1202; wk.fail ends the request with its code, 0 taken as 0x1001 (R49, R55). -/
def walkerRequestsEndOnce : Prop :=
  ∀ (s : State) (tr sr d : BitVec 5), let t0 := s.now.tower
    let k := (s.tower t0).walker
    let e := k.get sr
    let s1 := s.setTower t0 { (s.tower t0) with walker := { k with pc := k.pc + 4 } }
    ((k.cur = none ∨ ∃ r, k.cur = some r ∧ r.tag ≠ (k.get tr).setWidth 16) →
      exec (.wkDone tr sr d) s = .next s1 ∧ exec (.wkFail tr sr d) s = .next s1) ∧
    (∀ r, k.cur = some r → r.tag = (k.get tr).setWidth 16 →
      (e.getLsbD 63 = false → exec (.wkDone tr sr d) s = .next (failRequest s1 t0 0x1202)) ∧
      (e.getLsbD 63 = true → r.kind ≤ 2 → ctxCurrent s r.ctx r.gen = true → ∃ t, exec (.wkDone tr sr d) s = .next t ∧
        (t.tower t0).walker.cur = none ∧ (t.tower t0).walker.running = false ∧ t.mem = s.mem ∧
        (t.tower t0).walked = (s.tower t0).walked ++
          [{ unit := r.unit, ctx := r.ctx, gen := r.gen, tid := r.tid, tile := r.tile, code := 0, tte := hostEntry r.leaf e }] ∧
        (r.unit ≠ pageUnit → (t.tower t0).tiles.head? =
          some { unit := r.unit, ctx := r.ctx, gen := r.gen, tid := r.tid, tile := r.tile, tte := hostEntry r.leaf e })) ∧
      (e.getLsbD 63 = true → r.kind = 3 ∨ r.kind = 4 → exec (.wkDone tr sr d) s = .next (answerRange (endRequest s1 t0) t0 r 0)) ∧
      (let x : Code := if e.toNat % 2 ^ 16 = 0 then 0x1001 else BitVec.ofNat 16 e.toNat
       exec (.wkFail tr sr d) s = .next (failRequest s1 t0 x))) ∧
    (∀ s2 r x, (s2.tower t0).walker.cur = some r → r.kind = 3 ∨ r.kind = 4 → failRequest s2 t0 x = answerRange (endRequest s2 t0) t0 r x) ∧
    (∀ s2 r (x : Code), (s2.tower t0).walker.cur = some r → r.kind ≤ 2 → x ≠ 0 → ctxCurrent s2 r.ctx r.gen = true →
      ∃ y, ((failRequest s2 t0 x).tower t0).walked = (s2.tower t0).walked ++ [y] ∧ y.unit = r.unit ∧ y.code = x ∧ y.tid = r.tid ∧ y.tile = r.tile) ∧
    (∀ s2, let u := ((endRequest s2 t0).tower t0).walker
      u.cur = none ∧ u.running = false ∧ u.pc = (s2.tower t0).walker.pc ∧ u.queue = (s2.tower t0).walker.queue)

/-- The tiles that an invalidation names: TID 0xFFFF every tensor, tile 0xFFFFFF every tile (R54, R55). -/
def named (sel tid tile : Nat) : Prop :=
  (sel / 2 ^ 48 = 0xFFFF ∨ sel / 2 ^ 48 = tid) ∧ (sel % 2 ^ 24 = 0xFFFFFF ∨ sel % 2 ^ 24 = tile % 2 ^ 24)

/-- After wk.inv no tile cache and no L1 holds anything of the tiles that it names, in its context; every other tile-cache entry stands, and rd is 0 (R52, R55).
The host link is up: a dirty line of host memory waits for it (R437). -/
def invalidationsDropEveryCopy : Prop :=
  ∀ (s : State) (tr sr d : BitVec 5), s.hub.cxlUp = true → let t0 := s.now.tower
    let k := (s.tower t0).walker
    let ctx := (k.get sr).toNat / 2 ^ 8 % 2 ^ 16
    let gen := (k.get sr).toNat % 2 ^ 8
    let covered := fun (c : BitVec 16) (g : BitVec 8) (tid : BitVec 16) (tile : Nat) => c.toNat = ctx ∧ g.toNat = gen ∧ named (k.get tr).toNat tid.toNat tile
    ∃ t, exec (.wkInv tr sr d) s = .next t ∧ walkerWrites s t d 0 ∧
      (∀ u, ∀ e ∈ (t.tower u).tiles, ¬ covered e.ctx e.gen e.tid e.tile) ∧
      (∀ u, ∀ e ∈ (s.tower u).tiles, ¬ covered e.ctx e.gen e.tid e.tile → e ∈ (t.tower u).tiles) ∧
      (∀ c, ∀ l ∈ (t.core c).l1, ¬ covered l.ctx l.gen l.tid l.tile)

/-- While the host link is down a dirty line of host memory that wk.inv covers keeps it from retiring: the walker stays where it is (R52, R437). -/
def invalidationsAwaitTheLink : Prop :=
  ∀ (s : State) (tr sr d : BitVec 5), s.hub.cxlUp = false → let k := (s.tower s.now.tower).walker
    (∃ c, ∃ l ∈ (s.core c).l1, l.dirty ≠ 0 ∧ hostKey 0 ≤ l.home ∧ l.ctx.toNat = (k.get sr).toNat / 2 ^ 8 % 2 ^ 16 ∧ l.gen.toNat = (k.get sr).toNat % 2 ^ 8 ∧
      named (k.get tr).toNat l.tid.toNat l.tile) → exec (.wkInv tr sr d) s = .next s

/-- wk.chn copies 64 KiB between the tower and the host, answers status 0 and, with no operand waiting to be combined (R79), changes no other byte; a side that cannot be reached leaves memory alone and gives
its status (R55, R437). -/
def chunksAreCopiedWhole : Prop :=
  ∀ (s : State) (tr sr d : BitVec 5), Memory.wf s.mem = true → (∀ u, (s.tower u).combine = []) → let t0 := s.now.tower
    let k := (s.tower t0).walker
    let src := chunkKey t0 (k.get sr)
    let dst := chunkKey t0 (k.get tr)
    (chunkFault s t0 (k.get sr) = none → chunkFault s t0 (k.get tr) = none →
      (s.poison.find? fun e => decide (src / 8 ≤ e.1) && decide (e.1 < src / 8 + 8192)) = none → ∃ t, exec (.wkChn tr sr d) s = .next t ∧
        walkerWrites s t d 0 ∧ (∀ i, i < 65536 → readByte t (dst + i) = readByte s (src + i)) ∧
        (∀ a, a < dst ∨ dst + 65536 ≤ a → readByte t a = readByte s a)) ∧
    (∀ x, chunkFault s t0 (k.get sr) = some x → ∃ t, exec (.wkChn tr sr d) s = .next t ∧ walkerWrites s t d (x.setWidth 64) ∧ t.mem = s.mem)

/-- WALKER_REQUEST takes the oldest request: its routine starts with the registers of R54; where the store holds none, what the routine that Rensyn supplies does
is done (log 11): the tile of a layout unit is walked and answered, a range request that finds its owner already right ends with status 0, another begins its
handover with OWN ← 2 (R46, R53, R54, R58). A routine goes on with its RV64IMC instruction: ADDI and SD have their effect (R53, R56; log 60); one that
runs for over 4,096 clk is stopped and its request fails with 0x1003 (R53, R399). -/
def walkersServeRequestsInOrder : Prop :=
  (∀ (s : State) (r : WalkReq) (rest : List WalkReq), let t0 := s.now.tower
    let k := (s.tower t0).walker
    let entry := (storeWord s t0 (4 * r.entry)).toNat
    let s1 := s.setTower t0 { (s.tower t0) with walker := { k with queue := rest } }
    (s.tower t0).handover = none → k.running = false → k.queue = r :: rest →
    (entry = 0 → walkerBlocked s t0 = true → exec .walkerRequest s = .next s) ∧
    (entry ≠ 0 → ∃ t, exec .walkerRequest s = .next t ∧ t.mem = s.mem ∧
      let u := (t.tower t0).walker
      u.pc.toNat = entry ∧ u.running = true ∧ u.cur = some r ∧ u.queue = rest ∧ (u.get 10).toNat = r.kind % 2 ^ 64 ∧
      (u.get 11).toNat = r.ctx.toNat * 2 ^ 8 + r.gen.toNat ∧ u.get 12 = r.a2 ∧ u.get 13 = r.a3 ∧ (u.get 14).toNat = r.acc % 2 ^ 64 ∧
      (u.get 15).toNat = r.tag.toNat) ∧
    (∀ e, entry = 0 → walkerBlocked s t0 = false → ctxCurrent s1 r.ctx r.gen = true → r.kind < 3 →
      (if r.kind = 0 then tensorWalk s1 (tileView s1 t0 r) r.a2 r.tile else flatWalk s1 (tileView s1 t0 r) r.a2) = .ok e →
      exec .walkerRequest s = .next (if e.getLsbD 63 then answerTile s1 t0 r 0 e else answerTile s1 t0 r 0x1202 0)) ∧
    (∀ x, entry = 0 → walkerBlocked s t0 = false → ctxCurrent s1 r.ctx r.gen = true → r.kind < 3 →
      (if r.kind = 0 then tensorWalk s1 (tileView s1 t0 r) r.a2 r.tile else flatWalk s1 (tileView s1 t0 r) r.a2) = .fault x →
      exec .walkerRequest s = .next (answerTile s1 t0 r x 0)) ∧
    (entry = 0 → walkerBlocked s t0 = false → ctxCurrent s1 r.ctx r.gen = true → r.kind = 3 → rOwn (rangeEntry s1 (reqView s1 t0 r) (r.a2.toNat % 32)) = 0 →
      exec .walkerRequest s = .next (answerRange s1 t0 r 0)) ∧
    (entry = 0 → walkerBlocked s t0 = false → ctxCurrent s1 r.ctx r.gen = true → r.kind = 3 → rOwn (rangeEntry s1 (reqView s1 t0 r) (r.a2.toNat % 32)) = 1 →
      ∃ t h, exec .walkerRequest s = .next t ∧ (t.tower t0).handover = some h ∧ h.req = r ∧ h.acquire = true ∧ h.since = s.clk ∧
        t.mem = (setOwner s1 (reqView s1 t0 r) (r.a2.toNat % 32) 2).mem) ∧
    (entry = 0 → walkerBlocked s t0 = false → ctxCurrent s1 r.ctx r.gen = true → r.kind = 4 → rOwn (rangeEntry s1 (reqView s1 t0 r) (r.a2.toNat % 32)) = 1 →
      exec .walkerRequest s = .next (answerRange s1 t0 r 0))) ∧
  (∀ (s : State) (rs1 rs2 rd : BitVec 5) (imm : BitVec 12), let t0 := s.now.tower
    let k := (s.tower t0).walker
    let a := k.get rs1 + imm.signExtend 64
    let key := t0.val * 2 ^ 40 + a.toNat
    (s.tower t0).handover = none → k.running = true →
    (storeWord s t0 k.pc.toNat = imm ++ rs1 ++ (0 : BitVec 3) ++ rd ++ (0x13 : BitVec 7) → ∃ t, exec .walkerRequest s = .next t ∧
      walkerWrites s t rd a ∧ t.mem = s.mem) ∧
    (storeWord s t0 k.pc.toNat = imm.extractLsb' 5 7 ++ rs2 ++ rs1 ++ (3 : BitVec 3) ++ imm.extractLsb' 0 5 ++ (0x23 : BitVec 7) →
      a.toNat % 8 = 0 → a.toNat < 1179648 * 65536 → ∃ t, exec .walkerRequest s = .next t ∧ walkerWrites s t 0 0 ∧
      t.mem = (writeNat (touchHome s key 8 true) key 8 (k.get rs2).toNat).mem)) ∧
  (∀ (s : State), let k := (s.tower s.now.tower).walker
    (k.running = true → k.since + 4096 < s.clk → exec .routineTimeout s = .next (failRequest s s.now.tower 0x1003)) ∧
    (k.running = false ∨ s.clk ≤ k.since + 4096 → exec .routineTimeout s = .next s))

/-- A handover ends: the walker is free, OWN of its range entry is as given, and its core has its status (R58, R438). A refusal by the host and a timeout leave an
acquire with OWN 1 and a release with OWN 0; an answer lets it complete, an acquire with OWN 0 and a release with OWN 1. -/
def handoversEndWithAnOwner : Prop :=
  (∀ (s : State) (v : View) (i own : Nat), Memory.wf s.mem = true → own < 4 → let key := rangeEntryKey s v i
    let t := setOwner s v i own
    (readWord t key).toNat / 2 ^ 54 % 4 = own ∧ (∀ b, b < 54 ∨ 56 ≤ b → (readWord t key).getLsbD b = (readWord s key).getLsbD b) ∧
    ∀ a, a < key ∨ key + 8 ≤ a → readByte t a = readByte s a) ∧
  (∀ (s : State) (h : Handover), let t0 := s.now.tower
    (s.tower t0).handover = some h →
    (s.now.value = 1 → exec .hostHandoverAnswer s = .next (endHandover s t0 h (if h.acquire = true then 1 else 0) 0x6011)) ∧
    (let v := reqView s t0 h.req
     let e := rangeEntry s v h.index
     s.now.value ≠ 1 →
     (h.acquire = false → rMigr e = false → exec .hostHandoverAnswer s = .next (endHandover s t0 h 1 0)) ∧
     (∀ m s1, h.acquire = true → acquirePages t0 v e (rLen e) (rBase e) { frames := [], leaves := [] } s = (none, m, s1) → rMigr e = false →
       m.frames = [] → exec .hostHandoverAnswer s = .next (endHandover s1 t0 h 0 0)) ∧
     (∀ x m s1, h.acquire = true → acquirePages t0 v e (rLen e) (rBase e) { frames := [], leaves := [] } s = (some x, m, s1) →
       ∃ s2, exec .hostHandoverAnswer s = .next (endHandover s2 t0 h 1 x))) ∧
    (let limit := 1024 * max 1 (s.hub.htmo.toNat % 2 ^ 32)
     (s.clk < h.since + limit → exec .handoverTimeout s = .next s) ∧
     (h.since + limit ≤ s.clk → exec .handoverTimeout s = .next (endHandover s t0 h (if h.acquire = true then 1 else 0) 0x6010)))) ∧
  (∀ (s : State) (t0 : TowerId) (h : Handover) (own : Nat) (status : Code) (c : CoreId) (w : Wait) (q : Running), h.req.core = some c →
    (s.core c).stall = some w → (s.core c).run = some q → w.kind = 6 → w.obj = h.req.a2 → w.arg = (if h.req.kind = 4 then 1 else 0) → q.record = h.req.record →
    w.arg = 1 → let t := endHandover s t0 h own status
    (t.tower t0).handover = none ∧ (t.core c).stall = none ∧
    (0 < w.dst.toNat → aloneInGroup (s.core c) w.slot (.s w.dst) → ∀ y, (t.core c).regs.seen y (.s w.dst) = status.setWidth 4096))

end Sys2Proof.Claims
/-! ### Rennet (R13 to R29, R134 to R147, R181, R234, R327, R349, R394 to R396) -/

namespace Sys2Proof.Claims

/-- The store to GARM, GPRIME or GCTL is admitted in context c (R140, R369). -/
def storeAdmitted (s : State) (c : BitVec 16 × BitVec 8) : Prop := hostBlocked s = false ∧ storeContext s = some c

/-- GARM_STORE of a header that passes the checks of R140 and R393 arms its instance: STATE 1, REMAIN ← NODES, ARMCNT one more, the instance is among the armed,
and its roots become ready in list order, or the instance faults where the list cannot be read (R21). What a check finds is reported and nothing changes. GPRIME_STORE
brings the instance into the launch cache, tagged by its context and generation (R139, R140). A host store to a Rennet that is not ready is discarded with 0x6030 (R369, R428). -/
def armingStoresArmTheirInstance : Prop :=
  (∀ (s : State), let t0 := s.now.tower
    (hostBlocked s = true → exec .garmStore s = .next (hubRecord s 0x6030 (BitVec.ofNat 64 (0x1000 * t0.val))) ∧
      exec .gprimeStore s = .next (hubRecord s 0x6030 (BitVec.ofNat 64 (0x1000 * t0.val + 8)))) ∧
    (hostBlocked s = false → storeContext s = none → ∃ c, ∀ i ∈ [Instr.garmStore, .gprimeStore], exec i s = .next (rejectStore s 0x0225 c))) ∧
  (∀ (s s1 : State) (c : BitVec 16 × BitVec 8) (key : Nat), storeAdmitted s c → storeHeader s c = (.ok key, s1) → let t0 := s.now.tower
    let low := s.now.value.toNat % 64
    (headerState s1 key ≠ 0 → exec .garmStore s = .next (rejectStore s1 0x0220 c)) ∧
    (headerState s1 key = 0 → low ≠ 0 → exec .garmStore s = .next (rejectStore s1 0x0221 c)) ∧
    (headerState s1 key = 0 → low = 0 → headerBroken s1 key = true → exec .garmStore s = .next (rejectStore s1 0x0223 c)) ∧
    (headerState s1 key = 0 → low = 0 → headerBroken s1 key = false → readLaunch s1 t0 c key = none →
      exec .garmStore s = .next (rejectStore s1 0x0222 c)) ∧
    (∀ d, Memory.wf s1.mem = true → headerState s1 key = 0 → low = 0 → headerBroken s1 key = false → readLaunch s1 t0 c key = some d →
      (launchOf d).det = false → ∃ u a, headerState u key = 1 ∧ headerRemain u key = headerNodes s1 key ∧
        headerArmcnt u key = (headerArmcnt s1 key + 1) % 2 ^ 32 ∧ (u.tower t0).armed = (s1.tower t0).armed ++ [a] ∧ a.hdr = s.now.value ∧ a.hdrKey = key ∧
        a.ctx = c.1 ∧ a.gen = c.2 ∧ a.launch = launchOf d ∧ a.abandoned = false ∧
        ((∃ x, exec .garmStore s = .next (faultInstance u t0.val key x c.1 c.2 (132 + t0.val) s.now.value 0)) ∨
         (∃ roots : List Word, roots.length = headerNroots s1 key ∧ exec .garmStore s = .next (roots.foldl (fun st r => makeReady st t0 t0 a r true) u)))) ∧
    (low = 0 → ∃ t e, exec .gprimeStore s = .next t ∧ (t.tower t0).launchCache.head? = some e ∧ e.hdr = s.now.value ∧ e.ctx = c.1 ∧ e.gen = c.2 ∧
      t.mem = s1.mem) ∧
    (low ≠ 0 → exec .gprimeStore s = .next (rejectStore s1 0x0221 c)))

/-- A record that becomes ready at the Rennet of tower w and passes the checks takes STATE 1 and joins the queue of its own tower with its priority and stamp (R16 to
R21, R135); one that breaks a check faults its node, as the Rennet of its own tower finds it (R16, R393). -/
def readyRecordsJoinTheirQueue : Prop :=
  ∀ (s s1 : State) (t w : TowerId) (a : Armed) (addr : Word) (root : Bool) (key : Nat), rennetKey s w a.ctx a.gen addr 64 = (.ok key, s1) →
    ctxCurrent s1 a.ctx a.gen = true → let r := readRecord s1 key
    let own := (groupTower (nLevel r) (nGroup r)).getD w
    (∀ x, nodeFault s1 a r root = some x → makeReady s t w a addr root = faultNode s1 t.val key a.hdrKey x a.ctx a.gen (132 + own.val) addr 0) ∧
    (∀ home, Memory.wf s1.mem = true → nodeFault s1 a r root = none → groupTower (nLevel r) (nGroup r) = some home → (s1.tower home).ready.length < 4096 + 2 ^ 20 →
      let u := makeReady s t w a addr root
      recordState u key = 1 ∧ (∀ b, b < key + 8 ∨ key + 16 ≤ b → readByte u b = readByte s1 b) ∧
      ∃ e, (u.tower home).ready = (s1.tower home).ready ++ [e] ∧ e.record = addr ∧ e.recKey = key ∧ e.instKey = a.hdrKey ∧ e.prio.toNat = nPrio r ∧
        e.stamp = s1.hub.podTime.setWidth 32 ∧ e.head = false ∧ e.target = readyTarget s1 home r)

/-- SUCCESSOR_DECREMENT, by the Rennet of the occasion's tower, takes one off PREDS of the successor, which becomes ready at zero; a count that is zero faults the instance; after the last successor the
node's record takes back its recorded state and REMAIN counts down (R15, R23, R24). SPAWN_AT_HOME_RENNET adds one to REMAIN, or faults the instance (R327). -/
def decrementsAndSpawnsCount : Prop :=
  (∀ (s s1 : State) (t : TowerId) (a : Armed) (key : Nat), let t0 := s.now.tower
    s.now.extra.toNat / 4 % 2 = 0 → findArmed s s.now.unit = some (t, a) →
    rennetKey s t0 a.ctx a.gen s.now.addr 64 = (.ok key, s1) → let n := nPreds (readRecord s1 key)
    let s2 := writeNat s1 (key + 18) 2 (n - 1)
    let next := if n = 0 then faultInstance s1 t.val a.hdrKey 0x0215 a.ctx a.gen (132 + t0.val) a.hdr s.now.addr
      else if n = 1 then makeReady s2 t t0 a s.now.addr false else s2
    (s.now.extra.toNat % 2 = 0 → exec .successorDecrement s = .next next) ∧
    (s.now.extra.toNat % 2 = 1 → exec .successorDecrement s = .next (finishNode next t a s.now.value.toNat (decide (s.now.extra.toNat / 2 % 2 = 1)))) ∧
    (Memory.wf s1.mem = true → 0 < n → nPreds (readRecord s2 key) = n - 1)) ∧
  (∀ (s s1 : State) (a : Armed) (t0 : TowerId) (key hdr : Nat), let ctx := BitVec.ofNat 16 (s.now.extra.toNat / 2 ^ 16)
    let gen := BitVec.ofNat 8 (s.now.extra.toNat / 2 ^ 32)
    pushedRecord s s.now.tower ctx gen s.now.addr = (.ok (key, hdr, some (t0, a)), s1) → let r := readRecord s1 key
    let n := headerRemain s1 a.hdrKey
    let good := headerState s1 a.hdrKey = 1 ∧ nState r = 0 ∧ nCtx r = a.ctx ∧ nGen r = a.gen ∧ nInst r = a.hdr ∧ n ≠ 65535
    (¬ good → exec .spawnAtHomeRennet s = .next (faultInstance s1 t0.val a.hdrKey 0x0216 a.ctx a.gen (132 + t0.val) s.now.addr 0)) ∧
    (Memory.wf s1.mem = true → good → ∃ u, headerRemain u a.hdrKey = n + 1 ∧ (∀ b, b < a.hdrKey ∨ a.hdrKey + 8 ≤ b → readByte u b = readByte s1 b) ∧
      exec .spawnAtHomeRennet s = .next (if nPreds r = 0 then makeReady u t0 s.now.tower a s.now.addr false else u))) ∧
  (∀ (s : State) (t0 : TowerId) (a : Armed) (rec_ : Nat), Memory.wf s.mem = true → a.hdrKey + 64 ≤ rec_ ∨ rec_ + 64 ≤ a.hdrKey → 1 < headerRemain s a.hdrKey →
    let u := finishNode s t0 a rec_ false
    recordState u rec_ = 0 ∧ nPreds (readRecord u rec_) = nPinit (readRecord s rec_) ∧ recordFault u rec_ = 0 ∧
    headerRemain u a.hdrKey = headerRemain s a.hdrKey - 1)

/-- A GCTL command of operation op is read and admitted in context c for the address at key (R395, R396). -/
def commandAdmitted (s : State) (op : Nat) (c : BitVec 16 × BitVec 8) (key : Nat) (s1 : State) : Prop :=
  storeAdmitted s c ∧ s.now.value.toNat % 4 = op ∧ s.now.value.toNat / 4 % 16 = 0 ∧ rennetKey s s.now.tower c.1 c.2 (s.now.value &&& ~~~(63 : Word)) 64 = (.ok key, s1)

/-- Resume puts the faulted continuation at the head of its queue in STATE 4, restart at the tail in STATE 1; each lets the instance run again once no record of it
stands at STATE 5; abandon takes the instance to STATE 3 and stops everything of it, and ABANDON_COMPLETE writes its record and disarms it (R396). A command that finds
no such instance is refused with 0x0224. -/
def commandsActOnTheirInstance : Prop :=
  (∀ (s s1 : State) (c : BitVec 16 × BitVec 8) (key : Nat), let t0 := s.now.tower
    (commandAdmitted s 0 c key s1 → let r := readRecord s1 key
      (faultedInstance s1 t0 c key = none → exec .gctlResume s = .next (rejectStore s1 0x0224 c)) ∧
      (∀ home a base s2, faultedInstance s1 t0 c key = some (home, a) → nKind r = 0 → nLevel r ≠ 3 →
        saveAreaKey s1 (coreNo (32 * (nodeTower home r 0).val)) c.1 c.2 (nSave r) = (some base, s2) →
        readNat s2 (base + 0x1B00) 16 / 2 ^ 99 % 2 = 1 → ∃ e, e.head = true ∧ e.recKey = key ∧ e.instKey = a.hdrKey ∧
          exec .gctlResume s = .next (settleInstance (pushReady (leaveRecord s2 key 4) (nodeTower home r 0) home e) home a))) ∧
    (commandAdmitted s 1 c key s1 → let r := readRecord s1 key
      (faultedInstance s1 t0 c key = none → exec .gctlRestart s = .next (rejectStore s1 0x0224 c)) ∧
      (∀ home a, faultedInstance s1 t0 c key = some (home, a) → nKind r ≠ 0 → nLevel r ≠ 3 → ∃ e, e.head = false ∧ e.recKey = key ∧ e.instKey = a.hdrKey ∧
        exec .gctlRestart s = .next (settleInstance (pushReady (leaveRecord s1 key 1) (nodeTower home r 0) home e) home a)) ∧
      (∀ home a base s2, faultedInstance s1 t0 c key = some (home, a) → nKind r = 0 → nLevel r ≠ 3 →
        saveAreaKey s1 (coreNo (32 * (nodeTower home r 0).val)) c.1 c.2 (nSave r) = (some base, s2) → ∃ e, e.head = false ∧ e.recKey = key ∧
          exec .gctlRestart s = .next (settleInstance (pushReady (leaveRecord (clearSave s2 base) key 1) (nodeTower home r 0) home e) home a))) ∧
    (commandAdmitted s 2 c key s1 → let good := headerCtx s1 key = c.1 ∧ headerGen s1 key = c.2 ∧ (headerState s1 key = 1 ∨ headerState s1 key = 2)
      (¬ good → exec .gctlAbandon s = .next (rejectStore s1 0x0224 c)) ∧
      (Memory.wf s1.mem = true → good → ∃ u, headerState u key = 3 ∧ (∀ b, b < key ∨ key + 8 ≤ b → readByte u b = readByte s1 b) ∧
        (findArmed s1 key = none → exec .gctlAbandon s = .next u) ∧
        (∀ home a, findArmed s1 key = some (home, a) → exec .gctlAbandon s = .next
          ((stopRecords u fun k _ _ => k = key).due .abandonComplete { onTower home with unit := key }))))) ∧
  (∀ (s : State) (a : Armed), let t0 := s.now.tower
    ((s.tower t0).armed.find? fun a => a.hdrKey = s.now.unit && a.abandoned) = some a →
    ∃ t, exec .abandonComplete s = .next t ∧ ∀ x ∈ (t.tower t0).armed, x.hdrKey ≠ s.now.unit)

/-- f is the first record of its queue, of those that core c may run: the ready store holds each queue in its order (R134, R136). -/
def headsItsQueue (s : State) (c : CoreId) (f : ReadyEntry) : Prop :=
  ∃ pre post, ((s.tower (towerOf c)).ready.filter (coreMayRun s c)) = pre ++ f :: post ∧ ∀ g ∈ pre, g.target ≠ f.target ∨ g.prio ≠ f.prio

/-- A core takes, of the records that head their queues and that it may run, one that no other stands before: by priority, then a head placed by a pre-emption, then
age, then level (R29, R136). -/
def coresTakeTheBestRecord : Prop :=
  ∀ (s : State) (c : CoreId) (e : ReadyEntry), chooseFor s c = some e →
    headsItsQueue s c e ∧ ∀ f, headsItsQueue s c f → f.prio.toNat ≤ e.prio.toNat ∧
      (f.prio = e.prio → (f.head = true → e.head = true) ∧ (f.head = e.head →
        let age := fun x : ReadyEntry => (s.hub.podTime.setWidth 32 - x.stamp).toNat
        age f ≤ age e ∧ (age f = age e → e.level.toNat ≤ f.level.toNat)))

/-- A first pick-up starts at ENTRY with s1 = ARGS, s2 = the record, s3 = INST and every other register zero; the core holds nothing of an earlier run (R26). -/
def firstPickUpStartsAtEntry : Prop :=
  ∀ (s s1 : State) (c : CoreId) (e : ReadyEntry) (home : TowerId) (a : Armed) (base : Nat), findArmed s e.instKey = some (home, a) →
    let r := readRecord s e.recKey
    ctxCurrent s e.ctx e.gen = true → recordBroken r = false → nState r ≠ 4 → saveAreaKey s c e.ctx e.gen (nSave r) = (some base, s1) →
    let u := (pickUp s c e false).core c
    u.pc = nEntry r ∧ u.regs.s.toList = [0, nArgs r, e.record, e.inst] ++ List.replicate 60 0 ∧ (∀ n, u.regs.v.toList.getD n 0 = 0) ∧ u.regs.fly = [] ∧
    u.held = 0 ∧ u.gate = [] ∧ u.loads = [] ∧ u.current = none ∧ u.stall = none ∧ u.stats = [] ∧ u.mat.group = none ∧
    ∃ q, u.run = some q ∧ q.record = e.record ∧ q.ctx = e.ctx ∧ q.gen = e.gen ∧ q.recKey = e.recKey ∧ q.saveKey = base

/-- DISPATCH gives the best record to the core that is next, to an idle channel of a Churn or to the idle curd units, and takes it off its queue; a reserved core that a
priority-3 record needs gets that record, and its own returns to the head of the queue (R142, R143, R147). STAGED_DISPATCH picks the reserved record up, unless its cluster waits for a change of fusion (R138, R146). -/
def dispatchServesTheQueues : Prop :=
  (∀ (s : State), let t0 := s.now.tower
    (∀ c e, s.now.unit = 0 → dispatchCore s t0 = some c → chooseFor s c = some e → exec .dispatch s = .next (dispatchTo (dropReady s t0 e) t0 c e)) ∧
    (∀ e ch, s.now.unit = 1 → let x := clusterNo s.now.value.toNat
      chooseTarget s t0 (fun g => g = .churn x) = some e → freeChannel s 1 x.val = some ch → exec .dispatch s = .next (dispatchCopy s t0 1 x.val ch e)) ∧
    (∀ e ch, s.now.unit = 2 → chooseTarget s t0 (fun g => g = .hubChurn) = some e → freeChannel s 2 t0.val = some ch →
      exec .dispatch s = .next (dispatchCopy s t0 2 t0.val ch e)) ∧
    (∀ e, s.now.unit = 3 → chooseTarget s t0 (fun g => g = .curd) = some e → (s.tower t0).curd = none → exec .dispatch s = .next (dispatchCurd s t0 e)) ∧
    (∀ g e, s.now.unit = 4 → reservedCore s t0 = some (g, e) → exec .dispatch s = .next (dispatchTo (dropReady (unstage s t0 g) t0 e) t0 g.core e))) ∧
  (∀ (s : State) (t0 : TowerId) (e : ReadyEntry) (home : TowerId) (a : Armed) (kind unit chan : Nat), let s0 := dropReady s t0 e
    let r := readRecord s0 e.recKey
    findArmed s0 e.instKey = some (home, a) → ctxCurrent s0 e.ctx e.gen = true → recordBroken r = false → Memory.wf s.mem = true → isChannel { kind := kind, unit := unit, chan := chan } →
    (let u := dispatchCopy s t0 kind unit chan e
     recordState u e.recKey = 2 ∧ ∃ q, (u.churnChan { kind := kind, unit := unit, chan := chan }).queue = (s.churnChan { kind := kind, unit := unit, chan := chan }).queue ++ [q] ∧
       q.tmpl.toNat = r.toNat / 2 ^ 256 % 2 ^ 8 ∧ q.param.toNat = r.toNat % 2 ^ 64 ∧ q.source = .node t0 e) ∧
    (let u := dispatchCurd s t0 e
     recordState u e.recKey = 2 ∧ ∃ p, (u.tower t0).curd = some p ∧ p.recKey = e.recKey ∧ p.words = [] ∧ p.pc = 0 ∧ p.clock = 0)) ∧
  (∀ (s : State) (g : Staging), let c := s.now.core
    let t0 := towerOf c
    ((s.tower t0).staging.find? fun g => g.core = c) = some g →
    let s1 := s.setTower t0 { (s.tower t0) with staging := (s.tower t0).staging.filter fun x => x ≠ g }
    let waits := fusionWaits s (clusterOf c)
    (g.failed = 0 → waits = false → coreMayRun s c g.entry = true → exec .stagedDispatch s = .next (pickUp s1 c g.entry g.mac)) ∧
    (∀ home a, g.failed ≠ 0 → findArmed s1 g.entry.instKey = some (home, a) → exec .stagedDispatch s = .next (refusePickup s1 t0 home g.entry g.failed)) ∧
    (g.failed = 0 → waits = true → exec .stagedDispatch s = .next s) ∧
    (g.failed = 0 → waits = false → coreMayRun s c g.entry = false → exec .stagedDispatch s = .next (unstage s t0 g)))

/-- DISPLACEMENT_REQUEST marks the core, and forces the pre-emption at once where no yield can be taken; YIELD_TIMEOUT forces it, once the passes in flight have ended; PREEMPT_WRITEBACK_DONE puts the displaced
record at the head of its queue in STATE 4; WAKE puts a suspended one at the tail; FUSION_CHANGE joins or parts the idle cores of a cluster (R33, R138, R144, R234, R349, R359). -/
def displacedAndSuspendedRecordsReturn : Prop :=
  (∀ (s : State) (r : Running), s.me.run = some r →
    ∃ t, exec .displacementRequest s = .next t ∧ t.me.displace = some s.clk ∧ t.me.regs = s.me.regs ∧ t.mem = s.mem ∧
      t.agenda = (if r.yseq = 0 ∨ s.me.seqMode ≠ .none then [(Instr.yieldTimeout, onCore s.now.core)] else []) ++ s.agenda) ∧
  (∀ (s : State), let s1 := undoBundle s s.now.core
    (s.me.displace.isSome = true → s1.me.mat.passes = [] → exec .yieldTimeout s = .next (forcedStop s1 s.now.core)) ∧
    (s.me.displace.isSome = true → s1.me.mat.passes ≠ [] → ∃ t w, exec .yieldTimeout s = .next t ∧ t.me.stall = some w ∧ w.kind = waitForced ∧
      t.me.regs = s1.me.regs ∧ t.mem = s1.mem) ∧
    (s.me.displace = none → exec .yieldTimeout s = .next s)) ∧
  (∀ (s : State) (d : Displaced) (ds : List Displaced), let t0 := s.now.tower
    (s.tower t0).displaced = d :: ds → let s1 := fullRelease (s.setTower t0 { (s.tower t0) with displaced := ds }) d.core
    headerState s1 d.run.instKey ≠ 3 → ∃ e, e.head = true ∧ e.record = d.run.record ∧ e.stamp = d.run.stamp ∧ e.only = (if d.aff = true then some d.core else none) ∧
      exec .preemptWritebackDone s = .next (pushReady (leaveRecord s1 d.run.recKey 4) t0 d.run.home e)) ∧
  (∀ (s : State) (x : Suspended) (home : TowerId) (a : Armed), let t0 := s.now.tower
    ((s.tower t0).susp.find? fun x => x.entry.record = s.now.addr && suspReady s t0 x) = some x → (s.tower t0).susp = [x] →
    let s1 := s.setTower t0 { (s.tower t0) with susp := [] }
    findArmed s1 x.entry.instKey = some (home, a) → exec .wake s = .next (pushReady (leaveRecord s1 x.entry.recKey 4) t0 home
      { x.entry with stamp := s.hub.podTime.setWidth 32 })) ∧
  (∀ (s : State) (f : Bool), let x := clusterNo s.now.unit
    (s.cluster x).fuseReq = some f → (∀ c ∈ clusterCores x, (s.core c).run = none) → s.hub.cxlUp = true → ∃ t, exec .fusionChange s = .next t ∧
      (t.cluster x).fused = f ∧ (t.cluster x).fuseReq = none ∧ ∀ c ∈ clusterCores x, (t.core c).l1 = [] ∧ (t.core c).regs = (s.core c).regs)

/-- POD_RECORD_FORWARD places a pod-level record on the next place of its entry, in rotation: on a tower of this device it joins that tower's queue; on another device
it is sent away with a tag that the response quotes. POD_RECORD_RESPONSE completes the record that was sent away, or faults it with the FAULT that comes back (R18, R181). -/
def podRecordsArePlacedInRotation : Prop :=
  (∀ (s s1 : State) (t0 : TowerId) (a : Armed) (k : Nat), s.now.data = [] → findArmed s s.now.value.toNat = some (t0, a) →
    let key := s.now.unit
    let g := nGroup (readRecord s key)
    rennetKey s t0 a.ctx a.gen (ctxWord s a.ctx 384 + BitVec.ofNat 64 (32 * g)) 32 = (.ok k, s1) →
    let e := readNat s1 k 32
    let n := e / 2 ^ 252
    let at_ := sget 0 (s1.tower t0).podPos (256 * a.ctx.toNat + g) % n
    let dev := e / 2 ^ (24 * at_ + 8) % 2 ^ 16
    let home := towerNo (e / 2 ^ (24 * at_) % 4)
    (n = 0 ∨ 8 < n → exec .podRecordForward s = .next (faultNode s1 t0.val key a.hdrKey 0x0219 a.ctx a.gen (132 + t0.val) s.now.addr 0)) ∧
    (1 ≤ n → n ≤ 8 → dev = ownId s1 → s1.hub.ready.getLsbD (40 + home.val) = true → (ctxTowers s1 a.ctx).getLsbD home.val = true →
      Memory.wf s1.mem = true → (s1.tower home).ready.length < 4096 → swf 0 (s1.tower t0).podPos = true → ∃ t q, exec .podRecordForward s = .next t ∧ recordState t key = 1 ∧
        (t.tower home).ready = (s1.tower home).ready ++ [q] ∧ q.recKey = key ∧ q.record = s.now.addr ∧
        sget 0 (t.tower t0).podPos (256 * a.ctx.toNat + g) = (at_ + 1) % n) ∧
    (1 ≤ n → n ≤ 8 → dev ≠ ownId s1 → ∃ u p, exec .podRecordForward s = .next (sendPacket u p) ∧
      (u.tower t0).forwarded = (s1.tower t0).forwarded ++ [((s1.tower t0).nextTag, a.hdrKey, key, s.now.addr)] ∧ p.pay = readBytes u key 64 ∧ pCls p.hdr = 0)) ∧
  (∀ (s : State) (f : BitVec 16 × Nat × Nat × Word) (a : Armed), let t0 := s.now.tower
    s.now.extra ≠ 1 → ((s.tower t0).forwarded.find? fun f => f.1 = BitVec.ofNat 16 s.now.value.toNat) = some f →
    ((s.tower t0).armed.find? fun a => a.hdrKey = f.2.1) = some a →
    let s1 := s.setTower t0 { (s.tower t0) with forwarded := (s.tower t0).forwarded.filter fun x => x ≠ f }
    (s.now.addr = 0 → exec .podRecordResponse s = .next (completeNode s1 t0 a f.2.2.1 false)) ∧
    (s.now.addr ≠ 0 → exec .podRecordResponse s = .next
      (faultNode s1 t0.val f.2.2.1 a.hdrKey (BitVec.ofNat 16 s.now.addr.toNat) a.ctx a.gen (132 + t0.val) f.2.2.2 0)))

end Sys2Proof.Claims
/-! ### Bundles, exceptions and the step (R152, R158, R187 to R190, R205, R206, R211 to R215, R350 to R361, R376 to R399) -/

namespace Sys2Proof.Claims

/-- BUNDLE_ENTRY puts the bundle whose 32 bytes stand at the core's pc, or in its loop buffer (R154), into the slot queues, every entry of it still to issue, with the
registers before it; a pattern of R377 issues nothing and has the codes of R378; a refused fetch ends the continuation with FKIND 1, and one that misses in the
tile cache is held (R49, R152, R187, R378, R383). -/
def bundlesEnterWhole : Prop :=
  (∀ (s : State) (c : CoreId), bufferedBundle (s.core c) (s.core c).pc = none → (nextBundle s c).1 = (fetchBundle s c (s.core c).pc).1) ∧
  (∀ (s : State) (c : CoreId) (w : BitVec 256), bufferedBundle (s.core c) (s.core c).pc = some w → nextBundle s c = (.ok w, s)) ∧
  ∀ (s s1 : State) (r : Running), s.me.run = some r → s.me.current = none → detCore s s.now.core = false →
    (nextBundle s s.now.core = (.miss, s1) → exec .bundleEntry s = .next s1) ∧
    (∀ w b, nextBundle s s.now.core = (.ok w, s1) → decodeBundle w = .ok b → ∃ t cur, exec .bundleEntry s = .next t ∧
      t.me.current = some cur ∧ cur.pc = s1.me.pc ∧ cur.bundle = b ∧ cur.pre = s1.me.regs ∧ cur.faults = [] ∧ cur.taken = false ∧ cur.ending = .goOn ∧
      cur.stampWait = false ∧ cur.next = s1.me.pc + 32 ∧ (∀ x : Fin 8, x ∈ cur.left ↔ (b.slots.getD x.val none).isSome = true) ∧ t.mem = s1.mem ∧
      t.me.gate = s1.me.gate) ∧
    (∀ w codes, nextBundle s s.now.core = (.ok w, s1) → decodeBundle w = .error codes → ∃ t cur, exec .bundleEntry s = .next t ∧
      t.me.current = some cur ∧ cur.left = [] ∧ t.me.regs = s1.me.regs ∧ t.mem = s1.mem ∧
      ∀ (x : Fin 8) y, (x, y, 0) ∈ cur.faults ↔ codes.getD x.val none = some y) ∧
    (∀ x, nextBundle s s.now.core = (.fault x, s1) → ∃ f, exec .bundleEntry s = .next (takeFault s1 s.now.core f) ∧
      f.kind = 1 ∧ f.code = x ∧ f.fbun = s.me.pc)

/-- BUNDLE_COMMIT: the flags of the bundle join NFLAGS, LASTC is the bundle, and the next one is the transfer's target where one was taken, otherwise the one that
follows while no loop is open; a bracketed bundle is followed by a mark (R103, R211, R215, R225). The bundle has written no control register, popped nothing and
does not end the continuation, no wait of it was met; no statistics record and no displacement waits. -/
def bundlesCommitInOrder : Prop :=
  ∀ (s : State) (cur : Current) (r : Running), s.me.current = some cur → s.me.run = some r → cur.crWrites = [] → cur.pops = [] → cur.acquire = false → cur.ending = .goOn →
    s.me.displace = none → s.me.stats = [] → ∃ t, exec .bundleCommit s = .next t ∧ t.me.current = none ∧ t.me.lastc = cur.pc ∧ t.mem = s.mem ∧ t.me.gate = s.me.gate ∧
      t.me.regs.nflags = s.me.regs.nflags ||| cur.flags.setWidth 64 ∧ (cur.taken = true → t.me.pc = cur.next) ∧
      (cur.taken = false → cur.next = cur.pc + 32 → s.me.regs.ldep = 0 → t.me.pc = cur.pc + 32) ∧
      t.agenda = s.agenda ++ (if cur.bracketed = true then [(Instr.restartMarkEstablish, onCore s.now.core)] else [])

/-- RESULT_LAND: a result whose distance has run out is seen by its own slot too (R205, R206). RESTART_MARK_ESTABLISH: the restart point is the boundary, the registers and
the bundle before which the core stands (R213). STAMP_DUE: the bundle may issue at the clk of its stamp, waits before it, and faults once it is past (R158, R389). -/
def landingsMarksAndStamps : Prop :=
  (∀ (s : State) (ref : RegRef) (f : InFlight), s.me.regs.fly = [f] → f.reg = some ref → ref.constant = false → fits ref f.value → f.rem = 0 →
    ∃ t, exec .resultLand s = .next t ∧ (∀ y, t.me.regs.seen y ref = f.value) ∧ t.me.regs.fly = [] ∧
      ∀ y r, r ≠ ref → t.me.regs.seen y r = s.me.regs.seen y r) ∧
  (∀ (s : State), s.me.gate = [] → ∃ t, exec .restartMarkEstablish s = .next t ∧ t.mem = s.mem ∧ t.me.regs = s.me.regs ∧
    t.me.shadow = (match s.me.current with | some cur => { regs := cur.pre, pc := cur.pc } | none => { regs := s.me.regs, pc := s.me.pc })) ∧
  (∀ (s : State) (cur : Current) (st : BitVec 31), s.me.current = some cur → cur.stampWait = true → cur.bundle.stamp = some st →
    let d := (st.toNat + 2 ^ 31 - (schedClock s s.now.core).toNat % 2 ^ 31) % 2 ^ 31
    (d = 0 → ∃ t q, exec .stampDue s = .next t ∧ t.me.current = some q ∧ q = { cur with stampWait := false } ∧ t.me.regs = s.me.regs) ∧
    (0 < d → d < 2 ^ 30 → exec .stampDue s = .next s) ∧
    (2 ^ 30 ≤ d → ∃ t q y, exec .stampDue s = .next t ∧ t.me.current = some q ∧ q.left = [] ∧ q.faults = cur.faults ++ [y] ∧ y.1 = 0 ∧
      (y.2.1 = 0x0301 ∨ y.2.1 = 0x0302) ∧ (s.me.regs.fly = [] → y.2.1 = 0x0301)))

/-! #### Taking an exception and returning from it -/

/-- The fields of a fault frame (R385). -/
def frameHolds (w : Nat) (kind : Nat) (code : Code) (faults : List (Fin 8 × Code × Word)) (info fbun lastc ptime : Word) : Prop :=
  w / 2 ^ 100 % 2 ^ 4 = kind ∧ w / 2 ^ 112 % 2 ^ 16 = code.toNat ∧ w / 2 ^ 448 % 2 ^ 64 = info.toNat ∧ w / 2 ^ 133 % 2 ^ 59 = fbun.toNat / 32 ∧
  w / 2 ^ 197 % 2 ^ 59 = lastc.toNat / 32 ∧ w / 2 ^ 384 % 2 ^ 64 = ptime.toNat ∧ w % 2 ^ 98 = 0 ∧
  ∀ x : Fin 8, (w.testBit (104 + x.val) = true ↔ ∃ y ∈ faults, y.1 = x) ∧
    (∀ y, (faults.find? fun z => z.1 = x) = some y → w / 2 ^ (256 + 16 * x.val) % 2 ^ 16 = y.2.1.toNat) ∧
    ((∀ y ∈ faults, y.1 ≠ x) → w / 2 ^ (256 + 16 * x.val) % 2 ^ 16 = 0)

/-- PRECISE_FAULT takes the fault of the lowest-numbered faulting slot at the boundary before the bundle: the continuation is saved as a forced pre-emption saves it, with SKIND 1 and
RES the bundle, the fault frame is written after the save and before Rennet faults the node, and the core is idle (R383 to R385, R394). The continuation is not of a deterministic partition. -/
def preciseFaultsSaveAndReport : Prop :=
  ∀ (s : State) (r : Running) (cur : Current) (x : Fin 8) (code : Code) (info : Word), Memory.wf s.mem = true → s.me.run = some r → r.launch.det = false →
    s.me.current = some cur → (x, code, info) ∈ cur.faults → (∀ y ∈ cur.faults, y.1 = x → y = (x, code, info)) → (∀ y ∈ cur.faults, x.val ≤ y.1.val) → cur.pc.toNat % 32 = 0 →
    s.me.stats.length ≤ 32 → s.me.regs.fly = [] → cur.pre.fly = [] → s.me.gate = [] → s.me.replay = [] → (s.tower (towerOf s.now.core)).queries = [] → cur.pops = [] → s.me.results = [] →
    s.me.rows = [] → s.me.gidx = [] → engineIdle s → s.me.mat.group = none →
    ∃ u, exec .preciseFault s = .next (goIdleDisplaced (faultNode u r.home.val r.recKey r.instKey code r.ctx r.gen s.now.core.val r.record
        (if code.toNat / 2 ^ 12 = 1 then info else cur.pc)) s.now.core) ∧
      frameHolds (readNat u (r.saveKey + 0x1B00) 256) 0 code cur.faults info cur.pc s.me.lastc s.hub.podTime ∧
      (readHead u r.saveKey).skind = 1 ∧ (readHead u r.saveKey).res = cur.pc

/-- What faulting a node leaves: its record at STATE 5 with FAULT the code and OWNV 0; then its instance takes FAULT where it has none and STATE 2 where it was armed, and a record
goes to the fault queue (R384, R392, R394). A core that goes idle runs nothing and holds nothing of the continuation (R27). -/
def faultedNodesHoldTheirCode : Prop :=
  (∀ (s : State) (home recKey hdrKey : Nat) (code : Code) (ctx : BitVec 16) (gen : BitVec 8) (src : Nat) (rec_ info : Word), Memory.wf s.mem = true →
    hdrKey + 64 ≤ recKey ∨ recKey + 64 ≤ hdrKey → ∃ u, faultNode s home recKey hdrKey code ctx gen src rec_ info = faultRecord u home code ctx gen src rec_ info ∧
      recordState u recKey = 5 ∧ recordFault u recKey = code.toNat ∧ (readWord u (recKey + 8)).getLsbD 39 = false ∧
      headerFault u hdrKey = (if headerFault s hdrKey = 0 then code.toNat else headerFault s hdrKey) ∧
      headerState u hdrKey = (if headerState s hdrKey = 1 then 2 else headerState s hdrKey)) ∧
  (∀ (s : State) (c : CoreId), let u := (goIdleDisplaced s c).core c
    u.run = none ∧ u.current = none ∧ u.gate = [] ∧ u.loads = [] ∧ u.held = 0 ∧ u.stall = none ∧ u.results = [] ∧ u.rows = [] ∧ u.stats = [] ∧ u.regs.fly = [])

/-- ENGINE_FAULT: a read of an edited loop buffer leaves one record and faults nothing; any other source ends the continuation with FKIND 2 after its last committed bundle (R387).
YIELD waits until the gate is empty and no pass is in flight, and starts the save sequence at SAVE with s60 the program's part of the save area, s61 to s63 zero and RES
the next bundle (R351). -/
def engineFaultsAndYields : Prop :=
  (∀ (s : State), s.now.unit = 7 → ∃ t, exec .engineFault s = .next t ∧ t.me.statSeq = s.me.statSeq + 1 ∧ t.me.regs = s.me.regs ∧ t.me.run = s.me.run ∧ t.mem = s.mem) ∧
  (∀ (s : State), s.now.unit < 7 → ∃ f, exec .engineFault s = .next (takeFault (undoBundle s s.now.core) s.now.core f) ∧ f.kind = 2 ∧ f.fbun = s.now.value ∧
    (s.now.unit ≤ 2 → f.code = 0x20E0) ∧ (s.now.unit = 3 → f.code = 0x20E1) ∧ (s.now.unit = 4 → f.code = 0x20E2) ∧ (s.now.unit = 5 → f.code = 0x20E3)) ∧
  (∀ (s : State) (e : YieldEntry) (r : Running), coreYield s s.now.core s.now.addr = some e → s.me.run = some r → s.me.seqMode = .none → s.me.current = none →
    (s.me.gate ≠ [] ∨ s.me.mat.passes ≠ [] → exec .yield s = .next s) ∧ (s.me.gate = [] → s.me.mat.passes = [] → ∃ t, exec .yield s = .next t ∧ t.me.pc = e.save ∧ t.me.seqMode = .save 4 ∧ t.me.res = s.me.pc ∧ t.me.ypt = s.now.addr ∧ t.me.run = some r ∧
      t.me.regs.s.toList.getD 60 0 = r.saveFlat + 0x280000 ∧ (∀ n, 60 < n → n < 64 → t.me.regs.s.toList.getD n 1 = 0) ∧ t.me.shadow.pc = e.save))

/-- A forced save and the resumption from it give back the scalar, vector, mask and handle registers, the control block, the predicates, the holds, the snapshot's place and the bundle
RES, whatever the core held in between (R355 to R357, R361). What was in flight stands in the snapshot buffer. -/
def resumptionGivesBackTheRegisters : Prop :=
  ∀ (s : State) (c : CoreId) (base : Nat) (h : SaveKind) (ps : List (Push × Nat)), Memory.wf s.mem = true → let k := s.core c
    k.stats.length ≤ 32 → k.regs.fly.length ≤ 64 → ps.length ≤ 128 → k.results.length ≤ 16 → k.rows.length ≤ 16 → k.gidx.length ≤ 64 → h.res.toNat % 32 = 0 → h.skind < 16 →
    h.wkind < 2 ^ 8 →
    let t := saveForced s c base h ps
    let u := (restoreForced t c base (readHead t base)).core c
    let r := k.regs.landWithin 1
    (∀ i : Fin 64, i ≠ 0 → u.regs.s.get i = r.s.get i) ∧ u.regs.s.get 0 = 0 ∧ u.regs.v = r.v ∧ u.regs.k = r.k ∧ (∀ i : Fin 32, i ≠ 0 → u.regs.h.get i = r.h.get i) ∧
    u.regs.p = r.p ||| 1 ∧ u.pc = h.res ∧ u.shadow.pc = h.res ∧ u.regs.nflags = r.nflags ∧ u.regs.xmode = r.xmode ∧ u.regs.trapv = r.trapv ∧ u.regs.tret = r.tret ∧
    u.regs.targ = r.targ ∧ u.regs.srseed = r.srseed ∧ u.regs.srstr = r.srstr ∧ u.regs.statw = r.statw ∧ u.regs.ldep = r.ldep ∧ u.regs.lcnt = r.lcnt ∧ u.regs.ladd = r.ladd ∧
    u.regs.n = r.n ∧ u.regs.msetup = r.msetup ∧ u.regs.mpin = r.mpin ∧ u.regs.bc = r.bc ∧ u.regs.rot = r.rotNext.getD r.rot ∧ u.held = k.held ∧ u.hmode = k.hmode ∧
    u.stats = k.stats ∧ u.aff = k.aff ∧ u.results = k.results ∧ u.rows.map Prod.snd = k.rows.map Prod.snd ∧ u.regs.fly.length = r.fly.length ∧
    (k.seqMode = .none → u.res = h.res) ∧ (k.seqMode ≠ .none → u.res = k.res)

end Sys2Proof.Claims
/-! ### Beneath the programs (R40, R367, R368, R370 to R374, R404 to R407, R421) -/

namespace Sys2Proof.Claims

/-- A slice that is retired or restored advances MAPV by 1 modulo 256, sets or clears its bit of RET, keeps the L2 lines whose home does not move, and leaves a record 0x2030 that names it; a slice that is already so
stays, and nothing is reported (R40, R404). -/
def slicesAdvanceTheMapVersion : Prop :=
  ∀ (s : State), let t := s.now.tower
    let x := s.now.unit % 32
    let w := s.tower t
    let changed := fun (u : State) (b : Bool) => ∃ v l, u = faultRecord (s.setTower t { w with retired := v, mapv := w.mapv + 1, l2 := l }) t.val 0x2030 0 0 (132 + t.val) 0
      (BitVec.ofNat 64 x) ∧ (∀ y, y ∈ l ↔ y ∈ w.l2 ∧ homeSlice w.retired (128 * y.line) = homeSlice v (128 * y.line)) ∧ ∀ i, i < 32 → v.getLsbD i = (if i = x then b else w.retired.getLsbD i)
    (w.retired.getLsbD x = false → ∃ u, exec .sliceRetire s = .next u ∧ changed u true) ∧
    (w.retired.getLsbD x = true → exec .sliceRetire s = .next s) ∧
    (w.retired.getLsbD x = true → ∃ u, exec .sliceRestore s = .next u ∧ changed u false) ∧
    (w.retired.getLsbD x = false → exec .sliceRestore s = .next s)

/-! #### Soft errors -/

/-- Poison marks stand on aligned 8-byte words: poisoning marks every word that the bytes touch; a write of bytes takes the mark off the words it writes whole and leaves
it on those it writes in part; an access finds poison if and only if it touches a marked word (R405, R406). -/
def poisonStandsOnWholeWords : Prop :=
  ∀ (s : State) (key n : Nat), swf (0 : Code) s.poison = true → let mark := fun (u : State) (w : Nat) => sget (0 : Code) u.poison w
    (∀ c w, c ≠ 0 → 0 < n → mark (poisonRange s key n c) w = if key < 8 * w + 8 ∧ 8 * w < key + n then c else mark s w) ∧
    (∀ bs w, bs.length = n → mark (writeBytes s key bs) w = if key ≤ 8 * w ∧ 8 * w + 8 ≤ key + n then 0 else mark s w) ∧
    (0 < n → (poisonOf s key n = none ↔ ∀ w, key < 8 * w + 8 ∧ 8 * w < key + n → mark s w = 0))

/-- ECC_ERROR, by the event (R405): a corrected error, a clean line, a tile-cache entry and a rebuilt row leave a statistics record at the core of the occasion; a dirty line of the L1, a dirty
L2 line, a DRAM word and a row that cannot be rebuilt are poisoned, the row with a fault record. Which component SRC names is open (log 23). -/
def softErrorsAreCorrectedOrPoisoned : Prop :=
  ∀ (s : State), let key := s.now.addr.toNat
    let home := key / 128 * 128
    let record := fun (st : State) (c : Code) => statRecord st s.now.core Config.softErrorSource.toNat c 0 0
    let row := if key < 2 ^ 44 then 512 else 32
    let t := rowTower key
    let w := (s.tower t).tiers
    let poisoned : Out := .next (faultRecord (poisonRange s (key / row * row) row 0x2103) t.val 0x2103 0 0 (132 + t.val) 0 0)
    (s.now.unit = 0 → exec .eccError s = .next (record s 0x2001)) ∧
    (s.now.unit = 1 → exec .eccError s = .next (record s 0x2002)) ∧
    (s.now.unit = 2 → exec .eccError s = .next (record (s.setMe { s.me with l1 := s.me.l1.filter fun l => !(decide (l.home = home) && decide (l.dirty = 0)) }) 0x2010)) ∧
    (s.now.unit = 3 → ∃ v : List L1Line, exec .eccError s = .next (s.setMe { s.me with l1 := v }) ∧ v.length = s.me.l1.length ∧
      ∀ (i : Nat) (l : L1Line), s.me.l1[i]? = some l → ∃ m : L1Line, v[i]? = some m ∧ m = { l with bad := m.bad } ∧ (l.home = home ∧ l.dirty ≠ 0 → ∀ k, k < 16 → sget 0 m.bad k = (0x2011 : Code)) ∧
        (¬ (l.home = home ∧ l.dirty ≠ 0) → m = l)) ∧
    (s.now.unit = 4 → exec .eccError s = .next (poisonRange s home 128 0x2011)) ∧
    (s.now.unit = 5 → exec .eccError s = .next (poisonRange s (key / 8 * 8) 8 0x2012)) ∧
    (s.now.unit = 6 → exec .eccError s = .next (record (s.setTower s.now.tower
      { (s.tower s.now.tower) with tiles := (s.tower s.now.tower).tiles.eraseIdx s.now.extra.toNat }) 0x2013)) ∧
    (s.now.unit = 7 → w.parity ≠ 7 → w.failed = none → exec .eccError s = .next (record s 0x2101)) ∧
    (s.now.unit = 7 → w.parity = 7 ∨ w.failed ≠ none → exec .eccError s = poisoned) ∧
    (s.now.unit = 8 → exec .eccError s = poisoned) ∧
    (s.now.unit = 10 → ∃ l, exec .eccError s = .next (record (s.setTower s.now.tower { (s.tower s.now.tower) with l2 := l }) 0x2010) ∧
      ∀ y, y ∈ l ↔ y ∈ (s.tower s.now.tower).l2 ∧ (y.dirty = true ∨ y.line ≠ key % 2 ^ 40 / 128)) ∧
    (8 < s.now.unit → s.now.unit ≠ 10 → swf false s.badLanes = true → ∃ u, exec .eccError s = .next u ∧ u = { s with badLanes := u.badLanes } ∧
      ∀ k, sget false u.badLanes k = (decide (k = key) || sget false s.badLanes k))

/-- Scrubs and refresh work beneath the programs: a scrub that finds a parity row at odds recomputes it with a record 0x2102, everything else leaves the programs' state alone; telemetry
puts a fresh sample into BAR 0 (R372). The sample is free (log 19). -/
def backgroundWorkLeavesProgramsAlone : Prop :=
  ∀ (s : State), (s.now.value = 1 → exec .sramScrub s = .next (statRecord s s.now.core Config.softErrorSource.toNat 0x2102 0 0)) ∧
    (s.now.value ≠ 1 → exec .sramScrub s = .next s) ∧ exec .dramPatrolScrub s = .next s ∧ exec .dramRefresh s = .next s ∧
    ∃ u n, exec .telemetry s = .next u ∧ u = { s with hub := { s.hub with telemetry := n } }

/-- A parity rotation first copies, while the tier map stands; at a clk with no pass in flight and no deterministic partition the former parity tier takes the K position of the
next tier, which becomes the parity tier. A failed or lost tier stops it (R373, R421). -/
def parityRolesRotate : Prop :=
  ∀ (s : State), let t := s.now.tower
    let w := (s.tower t).tiers
    let q := BitVec.ofNat 3 ((w.parity.toNat + 1) % 5)
    let idle := ∀ c, towerOf c = t → (s.core c).mat.passes = [] ∧ detCore s c = false
    (w.parity ≠ 7 → w.failed = none → w.down = 0 → exec .parityRotationCopy s = .next (s.setTower t { (s.tower t) with tiers := { w with rotating := true } })) ∧
    (w.parity = 7 ∨ w.failed ≠ none ∨ w.down ≠ 0 → exec .parityRotationCopy s = .next s ∧ exec .parityRotationSwitch s = .next s) ∧
    (w.rotating = false ∨ ¬ idle → exec .parityRotationSwitch s = .next s) ∧
    (∀ i : Fin 4, w.parity ≠ 7 → w.failed = none → w.down = 0 → w.rotating = true → idle → w.map.get i = q → (∀ j, w.map.get j = q → j = i) → ∃ u,
      exec .parityRotationSwitch s = .next u ∧ u.mem = s.mem ∧ let v := (u.tower t).tiers
        v.parity = q ∧ v.rotating = false ∧ v.map.get i = w.parity ∧ (∀ j, j ≠ i → v.map.get j = w.map.get j) ∧ v.down = w.down ∧ v.failed = none)

/-! #### Heat and power -/

/-- The temperature that a reading gives tier p of tower t, and the number of tiers of the tower at 112 °C or above. -/
def reads (s : State) (t : TowerId) (p : Nat) : Nat := (s.now.data.getD (5 * t.val + p) 0).toNat
def hotTiers (s : State) (t : TowerId) : Nat := ((List.range 5).filter fun p => decide (112 ≤ reads s t p)).length

/-- Tier p stands at a K position of w. -/
def computes (w : Tiers) (p : Nat) : Prop := ∃ i : Fin 4, w.map.get i = BitVec.ofNat 3 p

/-- A reading of tiers that all stand below 125 °C, in a device without a failed tier and without a deterministic partition: a skip stands until its tier falls below 105 °C;
a tower without one skips a compute tier at 112 °C or above if it has any; two tiers at 112 °C pace the tower (R126, R371). A compute tier at 125 °C is shut down: it is marked
failed, its CAL bit falls, and its position goes to the reconstruction; so is the parity tier, of which nothing is computed (R407, R421). -/
def heatMarksSkipsAndPaces : Prop :=
  ∀ (s : State), (∀ c, detCore s c = false) → (∀ t, ∀ a ∈ (s.tower t).armed, a.launch.det = false) → (∀ t, (s.tower t).tiers.failed = none ∧ (s.tower t).tiers.down = 0) →
    ((∀ t p, p < 5 → reads s t p < 125) → ∃ u, exec .thermalReading s = .next u ∧ u.mem = s.mem ∧ ∀ t, let w := (s.tower t).tiers
      let v := (u.tower t).tiers
      (∀ p : Fin 5, v.temp.get p = reads s t p.val) ∧ v.map = w.map ∧ v.parity = w.parity ∧ v.cap = w.cap ∧ v.failed = none ∧ v.down = 0 ∧ v.powered = w.powered ∧
      (v.paced = true ↔ 2 ≤ hotTiers s t) ∧
      (∀ q, w.skip = some q → 105 ≤ reads s t q.toNat → v.skip = some q) ∧
      ((w.skip = none ∨ ∃ q, w.skip = some q ∧ reads s t q.toNat < 105) →
        (v.skip = none ↔ ∀ p, p < 5 → computes w p → reads s t p < 112) ∧
        ∀ q, v.skip = some q → q.toNat < 5 ∧ computes w q.toNat ∧ 112 ≤ reads s t q.toNat)) ∧
    (∀ (t0 : TowerId) (p0 : Nat), p0 < 5 → 125 ≤ reads s t0 p0 → (∀ t p, p < 5 → (t, p) ≠ (t0, p0) → reads s t p < 105) → (∀ t, (s.tower t).tiers.skip = none) →
      (∀ c, towerOf c = t0 → (s.core c).mat.passes = []) → let w := (s.tower t0).tiers
      (computes w p0 ∧ w.parity ≠ 7 ∨ ¬ computes w p0 ∧ w.parity = BitVec.ofNat 3 p0) →
      ∃ u, exec .thermalReading s = .next u ∧ u.hub.ready.getLsbD (5 * t0.val + p0) = false ∧ let v := (u.tower t0).tiers
        v.failed = some (BitVec.ofNat 3 p0) ∧ v.map = w.map ∧ v.parity = w.parity ∧ v.skip = none ∧ v.paced = false ∧ (∀ i, i < 5 → v.down.getLsbD i = decide (i = p0)))

/-- POWER_PACING: above the limit of 3,800 W every tower is paced, below 3,600 W none, and in between each stays as it is; a tower whose pacing comes or goes
leaves its record at its own cores (R370). -/
def powerPacesBetweenItsLimits : Prop :=
  ∀ (s : State), ∃ u, exec .powerPacing s = .next u ∧ u.mem = s.mem ∧ u.hub = s.hub ∧
    (∀ t, (u.tower t).tiers = { (s.tower t).tiers with
      powered := if 3800 < s.now.value.toNat then true else if s.now.value.toNat < 3600 then false else (s.tower t).tiers.powered }) ∧
    ∀ c, let w := (s.tower (towerOf c)).tiers
      let v := (u.tower (towerOf c)).tiers
      (u.core c).regs = (s.core c).regs ∧ (u.core c).statSeq = (s.core c).statSeq + (if (w.paced || w.powered) = (v.paced || v.powered) then 0 else 1)

/-! #### Readiness and reset -/

/-- What bit n of READY requires (R368). -/
def required (s : State) (n : Nat) : Prop :=
  let r := s.hub.ready
  let firmware := r.getLsbD 45 = true
  if n < 20 then r.getLsbD (32 + n / 5) = true
  else if n < 24 ∨ 32 ≤ n ∧ n < 36 ∨ n = 46 then firmware
  else if n < 28 ∨ 36 ≤ n ∧ n < 44 then r.getLsbD (28 + n % 4) = true ∧ r.getLsbD (20 + n % 4) = true
  else if n < 32 then r.getLsbD (32 + n % 4) = true
  else if n = 44 then firmware ∧ ∃ t, t < 4 ∧ r.getLsbD (20 + t) = true
  else if n = 45 then s.hub.fwstat = 0
  else if n = 47 then s.hub.devid.getLsbD 17 = true ∨ ∃ x, x < 16 ∧ r.getLsbD (48 + x) = true
  else firmware ∧ s.hub.devid.toNat % 2 ^ 16 ≠ 0xFFFF

/-- READY_BIT_SET sets a bit once the bits it depends on are set, and no other; before that, and where it stands already, nothing happens (R367, R368). With FW comes the place
of the context table, with L2 the tier map, with WALK the routine store, with CXL the write-back of the dirty host lines (R437), with a port its link (R51, R53, R113). -/
def readinessFollowsItsRequirements : Prop :=
  ∀ (s : State), let n := s.now.unit % 64
    (¬ required s n ∨ s.hub.ready.getLsbD n = true → exec .readyBitSet s = .next s) ∧
    (required s n → s.hub.ready.getLsbD n = false → ∃ u, exec .readyBitSet s = .next u ∧ (n ≠ 46 → u.mem = s.mem) ∧
      (∀ i, i < 64 → u.hub.ready.getLsbD i = (decide (i = n) || s.hub.ready.getLsbD i)) ∧
      (n = 45 → u.hub.ctxtb.toNat = s.now.value.toNat / 2 ^ 24 * 2 ^ 24) ∧
      (n ≠ 45 → u.hub.ctxtb = s.hub.ctxtb) ∧
      (32 ≤ n ∧ n < 36 → s.now.data.length = 5 → (∀ p, p < 5 → BitVec.ofNat 8 p ∈ s.now.data) → let w := (u.tower (towerNo n)).tiers
        (∀ i : Fin 4, (w.map.get i).toNat = (s.now.data.getD i.val 0).toNat) ∧ w.parity.toNat = (s.now.data.getD 4 0).toNat) ∧
      (36 ≤ n ∧ n < 40 → 0 < s.now.data.length → s.now.data.length ≤ 65536 → let w := u.tower (towerNo n)
        w.rslen.toNat = s.now.data.length ∧ ∀ i, i < 65536 → sget 0 w.store i = s.now.data.getD i 0) ∧
      (n = 46 → u.hub.cxlUp = true ∧ ∀ c, ∀ l ∈ (u.core c).l1, 2 ^ 64 ≤ l.home → l.dirty = 0) ∧
      (48 ≤ n → (u.port (n - 48)).up = true) ∧ (20 ≤ n ∧ n < 24 → (u.port (n - 4)).up = true))

/-- RESET: every register and unit takes its reset state and the device's memories are empty, and host memory stands as it was (R26, R367); a firmware check that failed leaves its
cause with code 0x6040 in FWSTAT, and FW cannot be set (R374). -/
def resetClearsTheDevice : Prop :=
  ∀ (s : State), Memory.wf s.mem = true → ∃ u, exec .reset s = .next u ∧
    u = { State.reset with mem := u.mem, poison := u.poison, freeN := s.freeN, hub := { State.reset.hub with fwstat := u.hub.fwstat } } ∧
    (∀ a, readByte u a = if 2 ^ 64 ≤ a then readByte s a else 0) ∧
    (s.now.value = 0 → u.hub.fwstat = 0) ∧
    (s.now.value ≠ 0 → u.hub.fwstat.toNat = 0x6040 + s.now.value.toNat % 2 ^ 8 * 2 ^ 16 ∧ ¬ required u 45)

end Sys2Proof.Claims

/-! ### Gengilon (R164 to R181, R429 to R435) and lockstep (R161 to R163, R439) -/

namespace Sys2Proof.Claims

/-! #### Packets and links -/

/-- The header of a packet holds its fields at the bits of R166, and nothing else. -/
def headersHoldTheirFields : Prop :=
  ∀ (p : Send) (stamp : Word) (seq : BitVec 32) (src : Nat), p.dst < 2 ^ 16 → src < 2 ^ 16 → p.drq < 2 ^ 8 → p.sep < 2 ^ 8 → p.cls < 2 ^ 3 → p.len < 2 ^ 8 →
    (mkHeader p stamp seq src).toNat = stamp.toNat * 2 ^ 192 + seq.toNat * 2 ^ 160 + p.dst * 2 ^ 144 + src * 2 ^ 128 + p.drq * 2 ^ 120 + p.sep * 2 ^ 112 + p.cls * 2 ^ 109 +
      p.unit.toNat * 2 ^ 104 + p.len * 2 ^ 96 + p.tag.toNat * 2 ^ 80 + p.ctx.toNat * 2 ^ 64 + p.gen.toNat * 2 ^ 56

/-- What a link holds in the order of sending: the flits of its retry buffer, then the parts that wait for room in it, each with its virtual channel. -/
def onLink (p : Port) : List (Option Packet × Nat × Nat) := p.retry.map (fun f => (f.packet, f.part, f.chan)) ++ p.waiting.map fun w => (some w.1, w.2)

/-- A packet goes out in parts of 224 bytes behind everything that its link holds, a circuit packet before what waits there of other classes; no other link changes, no more than 256 flits stand in
the retry buffer, and nothing leaves without a buffer of the partner's pool. An earlier packet of its flow keeps it on that link and in that channel; else it takes a dynamic channel that nothing holds, and else the
escape channel of its class on the spanning tree (R164, R168, R169, R178, R429). -/
def packetsKeepTheirOrderOnALink : Prop :=
  ∀ (s : State) (q : Packet), let parts := fun (c : Nat) => (List.range ((32 + q.pay.length + 223) / 224)).map fun i => (some q, i, c)
    let r := (Config.route (BitVec.ofNat 16 (pDst q.hdr))).val
    let tree := (Config.treeRoute (BitVec.ofNat 16 (pDst q.hdr))).val
    let none_ := fun (o : Nat) => ∀ x ∈ heldPackets (s.port o), sameFlow x.1 q = false
    (∀ o c, o < 20 → let u := transmitOn s o c q
      onLink (u.port o) = onLink (s.port o) ++ parts c ∧ ((s.port o).retry.length ≤ 256 → (u.port o).retry.length ≤ 256) ∧
      ((s.port o).waiting = [] → creditsOf (s.port o).credits c = 0 → (u.port o).retry = (s.port o).retry) ∧ ∀ x, x ≠ o → u.port x = s.port x) ∧
    (let o := (wayOut s q).1
     let circuit := fun (w : Packet × Nat × Nat) => pCls w.1.hdr = 5
     ∃ a b, (s.port o).waiting = a ++ b ∧ (∀ w ∈ a, circuit w) ∧ (∀ w, b.head? = some w → ¬ circuit w) ∧
      onLink ((transmitFirst s q).port o) = (s.port o).retry.map (fun f => (f.packet, f.part, f.chan)) ++ a.map (fun w => (some w.1, w.2)) ++ parts (wayOut s q).2 ++ b.map fun w => (some w.1, w.2)) ∧
    (¬ none_ r → ∃ x ∈ heldPackets (s.port r), sameFlow x.1 q = true ∧ wayOut s q = (r, x.2)) ∧
    (none_ r → ¬ none_ tree → ∃ x ∈ heldPackets (s.port tree), sameFlow x.1 q = true ∧ wayOut s q = (tree, x.2)) ∧
    (none_ r → none_ tree → let free := fun (c : Nat) => c < 32 ∧ 0 < creditsOf (s.port r).credits 0 ∧ ∀ x ∈ heldPackets (s.port r), x.2 ≠ c
      (∀ c, free c → ∃ d, free d ∧ wayOut s q = (r, d)) ∧ ((∀ c, ¬ free c) → wayOut s q = (tree, 32 + pCls q.hdr)))

/-- The watermark of an output never falls. While pod time is lost it stands; otherwise, where it rises, it is the least of pod time, IW of the domain ports, which the on-package links that have brought a watermark
belong to, and the stamps of the ordered packets held for the output (R172, R173, R434). -/
def watermarksNeverFall : Prop :=
  ∀ (s : State) (o : Nat), let w := watermark s o
    let floor := fun (m : Word) => m ≤ s.hub.podTime ∧ (∀ x, x < 16 → s.hub.domain.getLsbD x = true → m ≤ (s.port x).iw) ∧
      (∀ x, 16 ≤ x → x < 20 → (s.port x).hasIw = true → m ≤ (s.port x).iw) ∧ ∀ h ∈ heldStamps (s.port o), m ≤ h
    (s.port o).lastW ≤ w ∧ (s.hub.ready.getLsbD 47 = false → w = (s.port o).lastW) ∧
    (w ≠ (s.port o).lastW → floor w) ∧ (s.hub.ready.getLsbD 47 = true → ∀ m, floor m → m ≤ w)

/-- BEACON_SEND: an output that is up, has room and has sent nothing for 500 clk sends a flit without a packet and with its watermark, whose link sequence is the next, which acknowledges the last flit accepted and returns
the buffers that have become free; otherwise nothing leaves (R164, R168, R173, R429). -/
def beaconsCarryTheWatermark : Prop :=
  ∀ (s : State), let x := s.now.unit % 20
    let p := s.port x
    let quiet := p.up = true ∧ p.lastSent + 500 ≤ s.clk ∧ p.retry.length < 256
    (¬ quiet → exec .beaconSend s = .next s) ∧
    (quiet → ∃ u f, exec .beaconSend s = .next u ∧ u.mem = s.mem ∧ (u.port x).retry = p.retry ++ [f] ∧ f.packet = none ∧ f.seq = p.txSeq ∧ f.ack = p.rxSeq - 1 ∧ f.credits = p.freed ∧
      f.wm.toNat = (watermark s x).toNat % 2 ^ 40 ∧ (u.port x).txSeq = p.txSeq + 1 ∧ (u.port x).lastW = watermark s x ∧ (u.port x).lastSent = s.clk ∧ (u.port x).freed = 0 ∧
      (u.port x).credits = p.credits)

/-- FLIT_RECEIVE takes flits in link-sequence order. At a port that is down nothing happens; a flit that is damaged, out of sequence, or refused for want of room is discarded, and a NAK names the expected sequence. The next one
advances the sequence, frees what it acknowledges and everything before it, adds its credits, keeps the bytes of a packet that is not yet whole, and brings the watermark, extended to the 64-bit value nearest pod
time; a watermark below IW is ignored with a record 0x5102. Then its packets are taken (R164, R168, R173, R176, R428, R429). -/
def flitsAreTakenInSequence : Prop :=
  (∀ (s : State), let x := s.now.unit % 20
    let p := s.port x
    let h := leNat (s.now.data.take 16)
    let a := arrival s x
    let refused := s.now.value.getLsbD 0 = true ∨ h % 2 ^ 12 ≠ p.rxSeq.toNat ∨ noFlitRoom s x a = true ∨ noOrderedRoom s a.packets = true
    let w := extendMark s (BitVec.ofNat 40 (h / 2 ^ 24))
    (p.up = false → exec .flitReceive s = .next s) ∧
    (p.up = true → refused → exec .flitReceive s = .next (s.setPort x { p with nak := some p.rxSeq })) ∧
    (p.up = true → ¬ refused → ∃ u, exec .flitReceive s = .next (a.packets.foldl (fun t q => takePacket t x a.chan q) u) ∧ let q := u.port x
      q.rxSeq = p.rxSeq + 1 ∧ q.lastAccepted = s.clk ∧ q.stalled = false ∧ q.nak = none ∧ u.hub.inbound = s.hub.inbound ∧ u.hub.podTime = s.hub.podTime ∧
      (∀ e ∈ q.part, e.1 = a.chan → e.2 = a.rest) ∧ (a.rest ≠ [] → (a.chan, a.rest) ∈ q.part) ∧ (∀ e, e.1 ≠ a.chan → (e ∈ q.part ↔ e ∈ p.part)) ∧
      (p.waiting = [] → q.credits = addCredits p.credits (BitVec.ofNat 64 (h / 2 ^ 64))) ∧
      (p.hasIw = false ∨ p.iw ≤ w → q.iw = w ∧ q.hasIw = true ∧ u.mem = s.mem) ∧
      (p.hasIw = true → w < p.iw → q.iw = p.iw ∧ ∃ s1, s1.mem = s.mem ∧ s1.hub.fq = s.hub.fq ∧ s1.hub.podTime = s.hub.podTime ∧ u = hubRecord s1 0x5102 0) ∧
      ((∀ f ∈ p.retry, f.seq.toNat ≠ h / 2 ^ 12 % 2 ^ 12) → onLink q = onLink p) ∧
      (∀ (b c : List Flit) (f : Flit), p.retry = b ++ f :: c → f.seq.toNat = h / 2 ^ 12 % 2 ^ 12 → (∀ g ∈ b, g.seq ≠ f.seq) →
        onLink q = (onLink p).drop (b.length + 1) ∧ q.replays = 0))) ∧
  (∀ (s : State) (x : Nat), let a := arrival s x
    let old := fun (bs : List Byte) => ((s.port x).part.find? fun e => e.1 = a.chan).map Prod.snd = some bs ∨ bs = [] ∧ ∀ e ∈ (s.port x).part, e.1 ≠ a.chan
    a.chan = s.now.extra.toNat / 2 ^ 8 % 64 ∧ ∀ bs, old bs → (a.packets, a.rest) = parsePackets 8 (bs ++ (s.now.data.drop 16).take 224)) ∧
  (∀ (s : State) (w : BitVec 40), let v := extendMark s w
    v.setWidth 40 = w ∧ -(2 ^ 39 : Int) ≤ (v - s.hub.podTime).toInt ∧ (v - s.hub.podTime).toInt < 2 ^ 39) ∧
  (∀ (p : Packet) (n : Nat), p.pay.length = 32 * pLen p.hdr → let bs := leBytes 32 p.hdr.toNat ++ p.pay
    parsePackets 8 bs = ([p], []) ∧ (n < bs.length → parsePackets 8 (bs.take n) = ([], bs.take n)))

/-- The packet of a flit goes where its header says: an unordered one into the pool of its port, with the flit buffers that it takes; a circuit packet for this device is held for
its delivery time; an ordered one for this device enters the reorder buffer unless its stamp is below D or below the last one delivered, when it is discarded with 0x5103; an ordered one for another device goes on, and a broadcast
on the ports of the spanning tree (R168, R172, R174, R178, R433). -/
def packetsGoWhereTheirHeaderSays : Prop :=
  ∀ (s : State) (x chan : Nat) (p : Packet), let me := s.hub.devid.toNat % 2 ^ 16
    let u := takePacket s x chan p
    let late := pStamp p.hdr < deliveryMark s ∨ pStamp p.hdr < s.hub.dmark
    (pCls p.hdr ≠ 2 → ¬ (pCls p.hdr = 5 ∧ pDst p.hdr = me) → u = { s with hub := { s.hub with inbound := s.hub.inbound ++
      [{ port := x, chan := chan, flits := (32 + p.pay.length + 223) / 224, since := s.clk, told := false, packet := p }] } }) ∧
    (pCls p.hdr = 5 → pDst p.hdr = me → ∃ c, u.hub.arrived = s.hub.arrived ++ [c] ∧ c.packet = p ∧ c.due = s.now.addr ∧ c.slot = s.now.extra.toNat % 256 ∧
      (c.late = true ↔ s.now.addr < s.hub.podTime) ∧ u.mem = s.mem ∧ u.cores = s.cores ∧ u.hub.inbound = s.hub.inbound) ∧
    (pCls p.hdr = 2 → me ≠ 0xFFFF → pDst p.hdr = me → ¬ late → u.hub.reorder = s.hub.reorder ++ [p] ∧ u.mem = s.mem ∧ u.hub.inbound = s.hub.inbound) ∧
    (pCls p.hdr = 2 → me ≠ 0xFFFF → pDst p.hdr = me → late → u.hub.reorder = s.hub.reorder ∧ u.mem = (hubRecord s 0x5103 (pStamp p.hdr)).mem ∧
      u.hub.fq = (hubRecord s 0x5103 (pStamp p.hdr)).hub.fq) ∧
    (pCls p.hdr = 2 → pDst p.hdr ≠ me → pDst p.hdr ≠ 0xFFFF → (some p, 0, (wayOut s p).2) ∈ onLink (u.port (wayOut s p).1) ∧ u.hub.reorder = s.hub.reorder) ∧
    (pCls p.hdr = 2 → pDst p.hdr = 0xFFFF → ∀ y, y < 16 → s.hub.domain.getLsbD y = true → y ≠ x → Config.spread (BitVec.ofNat 16 (pSrc p.hdr)) x y = true →
      ∃ c, (some p, 0, c) ∈ onLink (u.port y))

/-! #### Link failures -/

/-- LINK_NAK_RECEIVE: a NAK that names a flit of the retry buffer counts one replay, saturating, and leaves every flit as it was sent; the eighth consecutive replay of one flit takes the port
down; one that names no such flit changes nothing. One that a full reorder buffer sent is also reported to the core whose packet it refused (R176, R429 to R431). -/
def replaysResendFlitsUnchanged : Prop :=
  ∀ (s : State), let x := s.now.unit % 20
    let p := s.port x
    let n := s.now.value.toNat % 2 ^ 12
    let named := p.up = true ∧ ∃ f ∈ p.retry, f.seq.toNat = n
    (¬ named → exec .linkNakReceive s = .next s) ∧
    (named → ∃ u, exec .linkNakReceive s = .next u ∧ u.mem = s.mem ∧ let q := u.port x
      let k := if p.replays ≠ 0 ∧ p.replayed.toNat = n then p.replays + 1 else 1
      q.retry = p.retry ∧ q.waiting = p.waiting ∧ q.txSeq = p.txSeq ∧ q.replays = k ∧ q.replayed.toNat = n ∧
      q.err.toNat % 2 ^ 32 = min (p.err.toNat % 2 ^ 32 + 1) (2 ^ 32 - 1) ∧ q.err.toNat / 2 ^ 32 = p.err.toNat / 2 ^ 32 ∧
      (∀ c : CoreId, (∀ f ∈ p.retry, ∀ y, f.packet = some y → pSep y.hdr ≠ c.val) → u.core c = s.core c) ∧
      (s.now.value.getLsbD 12 = true → ∀ f y, p.retry.find? (fun f => f.seq.toNat = n) = some f → f.packet = some y → pCls y.hdr = 2 → pSrc y.hdr = s.hub.devid.toNat % 2 ^ 16 → pSep y.hdr < 128 →
        (u.core (coreNo (pSep y.hdr))).statSeq = (s.core (coreNo (pSep y.hdr))).statSeq + 1) ∧
      u.agenda = s.agenda ++ (if 8 ≤ k then [(Instr.portDown, { Occasion.none with unit := x })] else []))

/-- PORT_DOWN: the port leaves READY, DOWNS counts, saturating, 0x5002 is reported, and everything it holds is kept. PORT_TRAINED: it is up again with its latency, and sends what it holds from the
oldest unacknowledged flit; a Gengilon port waits for firmware and for a device identifier. A failed training reports 0x5003, and the first packet that has stood in a pool for 2^20 clk is reported once, with 0x5011 (R175, R186, R368, R428, R430, R431). -/
def portsGoDownAndTrain : Prop :=
  ∀ (s : State), let x := s.now.unit % 20
    let p := s.port x
    let bit_ := if x < 16 then 48 + x else 4 + x
    let info := BitVec.ofNat 64 (if x < 16 then x else 256 + 16 * (x - 16))
    (p.up = false → exec .portDown s = .next s) ∧
    (p.up = true → ∃ s1, exec .portDown s = .next (hubRecord s1 0x5002 info) ∧ s1.mem = s.mem ∧ s1.hub.ready.getLsbD bit_ = false ∧
      (∀ i, i ≠ bit_ → s1.hub.ready.getLsbD i = s.hub.ready.getLsbD i) ∧ let q := s1.port x
      q.up = false ∧ q.retry = p.retry ∧ q.waiting = p.waiting ∧ q.iw = p.iw ∧ q.txSeq = p.txSeq ∧ q.rxSeq = p.rxSeq ∧ q.err.toNat % 2 ^ 32 = p.err.toNat % 2 ^ 32 ∧
      q.err.toNat / 2 ^ 32 % 2 ^ 16 = min (p.err.toNat / 2 ^ 32 % 2 ^ 16 + 1) (2 ^ 16 - 1)) ∧
    (p.up = true ∨ ¬ required s bit_ → exec .portTrained s = .next s) ∧
    (p.up = false → required s bit_ → ∃ u, exec .portTrained s = .next u ∧ u.mem = s.mem ∧ u.hub.ready.getLsbD bit_ = true ∧ let q := u.port x
      q.up = true ∧ q.lhop.toNat = 2 ^ 12 + s.now.value.toNat % 2 ^ 12 ∧ onLink q = onLink p ∧ q.lastSent = s.clk) ∧
    (p.up = true → exec .portTrainingTimeout s = .next s) ∧ (p.up = false → exec .portTrainingTimeout s = .next (hubRecord s 0x5003 info)) ∧
    (let long := fun (y : InPacket) => y.told = false ∧ y.port < 20 ∧ y.since + 2 ^ 20 ≤ s.clk
     ((∀ y ∈ s.hub.inbound, ¬ long y) → exec .packetHeldTimeout s = .next s) ∧
     (∀ a b y, s.hub.inbound = a ++ y :: b → (∀ z ∈ a, ¬ long z) → long y →
      exec .packetHeldTimeout s = .next (hubRecord { s with hub := { s.hub with inbound := s.hub.inbound.map fun z => if z = y then { z with told := true } else z } } 0x5011 0)))

/-- WATERMARK_STALL: a domain port on which no flit has been accepted for 2,000 clk is reported once; its IW stands (R432). -/
def stalledWatermarksAreReportedOnce : Prop :=
  ∀ (s : State), let x := s.now.unit % 16
    let p := s.port x
    let stalls := s.hub.domain.getLsbD x = true ∧ p.stalled = false ∧ p.lastAccepted + 2000 ≤ s.clk
    (¬ stalls → exec .watermarkStall s = .next s) ∧
    (stalls → exec .watermarkStall s = .next (hubRecord (s.setPort x { p with stalled := true }) 0x5101 0) ∧
      ∀ u : State, exec .watermarkStall s = .next u → ∀ o : Occasion, exec .watermarkStall { u with now := { o with unit := x } } = .next { u with now := { o with unit := x } })

/-- Pod time is slewed by one count, at most once in 4,096 clk, and never falls: one too many is mended by a count that the next clk omits (R170). -/
def podTimeIsSlewedByOne : Prop :=
  ∀ (s : State), (s.clk < s.hub.slewClk + 4096 → exec .podTimeSlew s = .next s) ∧
    (s.hub.slewClk + 4096 ≤ s.clk → s.now.value = 1 → exec .podTimeSlew s = .next { s with hub := { s.hub with podTime := s.hub.podTime + 1, slewClk := s.clk } }) ∧
    (s.hub.slewClk + 4096 ≤ s.clk → s.now.value ≠ 1 → exec .podTimeSlew s = .next { s with hub := { s.hub with omitNext := true, slewClk := s.clk } })

/-! #### Receive rings, ordered delivery and circuits -/

/-- A packet's ring is open to it: the queue's entry is valid, of a current generation, and its slots hold the packet (R179). -/
def ringOpen (s : State) (p : Packet) : Prop :=
  let e := (recvEntry s (pDrq p.hdr)).toNat
  e / 2 ^ 128 % 2 = 1 ∧ e / 2 ^ 164 % 2 ^ 4 < 14 ∧ 32 + 32 * pLen p.hdr ≤ 2 ^ (e / 2 ^ 164 % 2 ^ 4) ∧
    ctxCurrent s (BitVec.ofNat 16 (e / 2 ^ 176)) (BitVec.ofNat 8 (e / 2 ^ 168)) = true

/-- A packet whose ring has room stands in slot TAILC mod 2^NLOG before TAILC advances, a full ring refuses it and counts it in NAKC, and one whose entry is invalid, stale or too small is
discarded with 0x5004 (R179, R428). -/
def ringsTakePacketsWhole : Prop :=
  (∀ (s : State) (p : Packet), let q := pDrq p.hdr
    let e := (recvEntry s q).toNat
    let slots := 2 ^ (e / 2 ^ 160 % 2 ^ 4)
    (¬ ringOpen s p → ringWrite s p = .discarded (hubRecord s 0x5004 (BitVec.ofNat 64 (q + pSrc p.hdr * 2 ^ 16)))) ∧
    (ringOpen s p → slots ≤ recvCount s q → ∃ u, ringWrite s p = .full u ∧ u.hub = s.hub ∧
      (Memory.wf s.mem = true → readNat u (recvKey s q + 4) 4 = (readNat s (recvKey s q + 4) 4 + 1) % 2 ^ 32 ∧
        ∀ a, a < recvKey s q + 4 ∨ recvKey s q + 8 ≤ a → readByte u a = readByte s a)) ∧
    (∀ s1, ringOpen s p → recvCount s q < slots → let ctx := BitVec.ofNat 16 (e / 2 ^ 176)
      let slot := BitVec.ofNat 64 (e / 2 ^ 198 * 2 ^ 6 + 2 ^ (e / 2 ^ 164 % 2 ^ 4) * (recvTail s q % slots))
      writeUnits (ctxView s (lowTower s ctx) ctx (BitVec.ofNat 8 (e / 2 ^ 168))) slot (packetUnits p) s = some s1 →
      ringWrite s p = .written (writeNat s1 (recvKey s q + 12) 4 (recvTail s q + 1)))) ∧
  (∀ (s s1 : State) (v : View) (a : Word) (b : List Byte) (bs : List (List Byte)) (key : Nat), flatKeyOf s v a = (.ok key, s1) →
    writeUnits v a (b :: bs) s = writeUnits v (a + 32) bs (writeBytes s1 key b)) ∧
  (∀ (p : Packet), p.pay.length = 32 * pLen p.hdr → (packetUnits p).length = 1 + pLen p.hdr ∧ (packetUnits p).flatten = leBytes 32 p.hdr.toNat ++ p.pay)

/-- RECEIVE_RING_WRITE of the one packet that waits: one for another device goes out on its way; one for this device goes into its ring or is discarded, and leaves the pool. A full ring refuses one of another device, which
leaves and is offered again by its sender, before every later one of its flow; one of this device's own waits for room with a record. A packet for a
Rennet is its pod record's request or response (R149, R166, R168, R169, R179, R181). -/
def waitingPacketsReachTheirRings : Prop :=
  ∀ (s : State) (y : InPacket), s.hub.inbound = [y] → let p := y.packet
    let me := s.hub.devid.toNat % 2 ^ 16
    let behind := ∃ h ∈ s.hub.refused, sameFlow { hdr := h, pay := [] } p = true ∧ pSeq h ≠ pSeq p.hdr
    let left := fun (u t : State) => t.hub.inbound = u.hub.inbound.eraseIdx 0 ∧ t.mem = u.mem ∧
      (y.port < 20 → (t.port y.port).freed = setCredits (u.port y.port).freed y.chan (creditsOf (u.port y.port).freed y.chan + y.flits))
    (pDst p.hdr ≠ me → (s.port (wayOut s p).1).waiting.length < 256 → ∃ u, exec .receiveRingWrite s = .next (sendOut u p) ∧ left s u) ∧
    (pDst p.hdr ≠ me → 256 ≤ (s.port (wayOut s p).1).waiting.length → exec .receiveRingWrite s = .next s) ∧
    (pDst p.hdr = me → pUnit p.hdr = false →
      (∀ u, ¬ behind → ringWrite s p = .written u ∨ ringWrite s p = .discarded u → ∃ t, exec .receiveRingWrite s = .next t ∧ left u t ∧
        ∀ h ∈ t.hub.refused, sameFlow { hdr := h, pay := [] } p = false) ∧
      (∀ u, ¬ behind → pSrc p.hdr ≠ me → ringWrite s p = .full u → ∃ t, exec .receiveRingWrite s = .next t ∧ left u t ∧ p.hdr ∈ t.hub.refused) ∧
      (∀ u, pSrc p.hdr = me → ringWrite s p = .full u → ∃ t, exec .receiveRingWrite s = .next t ∧ t.hub.inbound = u.hub.inbound ∧ t.mem = u.mem ∧
        (pSep p.hdr < 128 → (t.core (coreNo (pSep p.hdr))).statSeq = (u.core (coreNo (pSep p.hdr))).statSeq + 1)) ∧
      (behind → pSrc p.hdr ≠ me → ∃ t, exec .receiveRingWrite s = .next t ∧ left s t ∧ t.hub.refused = s.hub.refused)) ∧
    (pDst p.hdr = me → pUnit p.hdr = true → pDrq p.hdr < 4 → ¬ behind → ∃ t o, exec .receiveRingWrite s = .next t ∧ t.hub.inbound = [] ∧ t.mem = s.mem ∧ o.tower.val = pDrq p.hdr ∧ o.unit = pSrc p.hdr ∧
      t.agenda = s.agenda ++ [(if pCls p.hdr = 0 then .podRecordForward else .podRecordResponse, o)])

/-- D is the least of pod time, IW of the domain ports and the stamps of the device's own ordered packets that wait there; the packet that is delivered next is one with a stamp below D and the least key (STAMP, SRC, SEP, SEQ); a full ring stops the
delivery until it has room (R173, R174, R176). -/
def orderedPacketsAreDeliveredByKey : Prop :=
  (∀ (s : State) (m : Word), let floor := fun (x : Word) => x ≤ s.hub.podTime ∧ (∀ i, 16 ≤ i → i < 20 → (s.port i).hasIw = true → x ≤ (s.port i).iw) ∧
      ∀ i, i < 16 → s.hub.domain.getLsbD i = true → x ≤ (s.port i).iw ∧
      ∀ q ∈ (s.port i).waiting, pCls q.1.hdr = 2 → pSrc q.1.hdr = s.hub.devid.toNat % 2 ^ 16 → x ≤ pStamp q.1.hdr
    floor m → (∀ x, floor x → x ≤ m) → deliveryMark s = m) ∧
  (∀ (s : State) (p : Packet), nextOrdered s = some p → p ∈ s.hub.reorder ∧ pStamp p.hdr < deliveryMark s ∧ ∀ q ∈ s.hub.reorder,
    (pStamp p.hdr).toNat < (pStamp q.hdr).toNat ∨ (pStamp p.hdr = pStamp q.hdr ∧ (pSrc p.hdr < pSrc q.hdr ∨ (pSrc p.hdr = pSrc q.hdr ∧
      (pSep p.hdr < pSep q.hdr ∨ (pSep p.hdr = pSep q.hdr ∧ pSeq p.hdr ≤ pSeq q.hdr)))))) ∧
  (∀ (s : State), nextOrdered s = none ↔ ∀ q ∈ s.hub.reorder, ¬ pStamp q.hdr < deliveryMark s) ∧
  (∀ (s : State), let drop := fun (u : State) (p : Packet) => { u with hub := { u.hub with reorder := eraseFirst (fun x => x = p) u.hub.reorder, ringFull := false, dmark := pStamp p.hdr } }
    (nextOrdered s = none → exec .orderedDeliver s = .next s) ∧
    (∀ p u, nextOrdered s = some p → pUnit p.hdr = false → ringWrite s p = .written u ∨ ringWrite s p = .discarded u → exec .orderedDeliver s = .next (drop u p)) ∧
    (∀ p, nextOrdered s = some p → pUnit p.hdr = true → exec .orderedDeliver s = .next (deliverUnit (drop s p) p)) ∧
    (∀ p u, nextOrdered s = some p → pUnit p.hdr = false → ringWrite s p = .full u → ∃ t, exec .orderedDeliver s = .next t ∧ t.hub.reorder = s.hub.reorder ∧ t.hub.dmark = s.hub.dmark ∧
      t.hub.ringFull = true ∧ (s.hub.ringFull = true → t = s) ∧ (s.hub.ringFull = false → t.mem = u.mem)))

/-- ORDERED_INJECT: the oldest accepted packet takes pod time as its stamp and every other field as it was, and a broadcast goes to this device and to every port of the domain, any other packet
to its destination; without PTIME it waits (R170 to R172). -/
def injectionStampsInOrder : Prop :=
  ∀ (s : State) (q : Packet) (qs : List Packet), s.hub.inject = q :: qs → let p : Packet := { q with hdr := BitVec.ofNat 256 (s.hub.podTime.toNat * 2 ^ 192 + q.hdr.toNat % 2 ^ 192) }
    let me := s.hub.devid.toNat % 2 ^ 16
    (s.hub.ready.getLsbD 47 = false → exec .orderedInject s = .next s) ∧
    (s.hub.ready.getLsbD 47 = true → ∃ u, exec .orderedInject s = .next u ∧ u.hub.inject = qs ∧ u.mem = s.mem ∧
      (pDst q.hdr = 0xFFFF ∨ pDst q.hdr = me → u.hub.reorder = s.hub.reorder ++ [p]) ∧ (pDst q.hdr ≠ 0xFFFF → pDst q.hdr ≠ me → u.hub.reorder = s.hub.reorder) ∧
      (pDst q.hdr = 0xFFFF → ∀ x, x < 16 → s.hub.domain.getLsbD x = true → ∃ c, (some p, 0, c) ∈ onLink (u.port x)) ∧
      (pDst q.hdr ≠ 0xFFFF → pDst q.hdr ≠ me → (some p, 0, (wayOut s p).2) ∈ onLink (u.port (wayOut s p).1)))

/-- CIRCUIT_SLOT_SEND: a circuit packet leaves once its slot has started, before everything that waits on its link; one for this device is held for its time. CIRCUIT_DELIVER: it is written into
its ring at its delivery time, one that came later is also reported with 0x5006 and its slot; nothing happens before (R178). The events are those of the one packet that waits. -/
def circuitsLeaveAndLandInTheirSlots : Prop :=
  ∀ (s : State) (x : Circuit), let me := s.hub.devid.toNat % 2 ^ 16
    (s.hub.circuits = [x] → s.hub.podTime.toNat < x.start → exec .circuitSlotSend s = .next s) ∧
    (s.hub.circuits = [x] → x.start ≤ s.hub.podTime.toNat → let s1 := { s with hub := { s.hub with circuits := [] } }
      (pDst x.packet.hdr = me → exec .circuitSlotSend s = .next { s1 with hub := { s1.hub with arrived := s.hub.arrived ++ [{ x with late := x.due.ult s.hub.podTime }] } }) ∧
      (pDst x.packet.hdr ≠ me → exec .circuitSlotSend s = .next (transmitFirst s1 x.packet))) ∧
    (s.hub.arrived = [x] → s.hub.podTime < x.due → exec .circuitDeliver s = .next s) ∧
    (s.hub.arrived = [x] → x.due ≤ s.hub.podTime → let s1 := { s with hub := { s.hub with arrived := [] } }
      (∀ u, ringWrite s1 x.packet = .written u → exec .circuitDeliver s = .next (if x.late then hubRecord u 0x5006 (BitVec.ofNat 64 (x.slot % 256)) else u)) ∧
      (∀ u, ringWrite s1 x.packet = .discarded u → exec .circuitDeliver s = .next u) ∧
      (∀ u, ringWrite s1 x.packet = .full u → ∃ t, exec .circuitDeliver s = .next t ∧ t.hub.arrived = [] ∧ t.mem = u.mem ∧
        (pSrc x.packet.hdr ≠ me → t.hub.circuits = s.hub.circuits) ∧
        (pSrc x.packet.hdr = me → ∃ y, t.hub.circuits = s.hub.circuits ++ [y] ∧ y.packet = x.packet ∧ y.slot = x.slot ∧ y.start % 1024 = 4 * x.slot % 1024 ∧ s.hub.podTime.toNat < y.start ∧ y.start ≤ s.hub.podTime.toNat + 1024 + 4 * x.slot)))

/-! #### Lockstep -/

/-- LOCKSTEP_SIGNATURE_SEND: at the end of a frame its signature, over its records in their order, is kept for comparison and goes to the partner with the frame's number and T0; a frame without records has
signature 0; before the end nothing happens. The events are those of the one lockstep instance (R162, R163). -/
def signaturesAreSentPerFrame : Prop :=
  signature [] = 0 ∧
  (∀ (s : State), s.hub.lockstep = [] → exec .lockstepSignatureSend s = .next s ∧ exec .lockstepSignatureReceive s = .next s ∧ exec .lockstepSignatureTimeout s = .next s) ∧
  (∀ (s : State) (l : Lockstep), s.hub.lockstep = [l] → l.last = none → let n := 2 ^ l.launch.flen.toNat
    let ended := l.launch.t0 ≤ s.hub.podTime ∧ (l.frame + 1) * n ≤ s.hub.podTime.toNat - l.launch.t0.toNat
    let sig := signature (frameBytes l l.launch.flen.toNat l.frame)
    (¬ ended → exec .lockstepSignatureSend s = .next s) ∧
    (ended → (l.partner.find? fun e => e.1 = l.frame) = none → ∃ u m, exec .lockstepSignatureSend s = .next u ∧ u.mem = s.mem ∧ u.hub.lockstep = [m] ∧
      m.frame = l.frame + 1 ∧ m.own = l.own ++ [(l.frame, sig)] ∧ m.partner = l.partner ∧ m.key = l.key ∧ m.launch = l.launch ∧
      (∀ r, r ∈ m.records ↔ r ∈ l.records ∧ r.1 / n ≠ l.frame) ∧
      (l.launch.lpeer.toNat ≠ s.hub.devid.toNat % 2 ^ 16 → ∃ p, (some p, 0, (wayOut s p).2) ∈ onLink (u.port (wayOut s p).1) ∧ pDst p.hdr = l.launch.lpeer.toNat ∧ pCls p.hdr = 4 ∧
        pSep p.hdr = 137 ∧ p.pay = leBytes 8 (l.frame % 2 ^ 64) ++ leBytes 8 sig.toNat ++ leBytes 8 l.launch.t0.toNat ++ leBytes 8 0)))

/-- Signatures are compared frame by frame, and only those of the instance's partner: equal ones leave no trace; different ones, and one that is missing 2^FLEN + 8,192 clk after its frame's end, are a lockstep event, which the hub reports with
the frame, and after which no core runs the instance (R161, R163, R439). The frame that arrives stands in unit, its signature in value, T0 in addr, and its sender in extra. -/
def signaturesThatDifferStopTheInstance : Prop :=
  (∀ (s : State) (l : Lockstep), s.hub.lockstep = [l] → let matches_ := l.launch.lpeer.toNat = s.now.extra.toNat ∧ l.launch.t0 = s.now.addr
    let left := fun (l1 : List Lockstep) => { s with hub := { s.hub with lockstep := l1 } }
    (¬ matches_ → exec .lockstepSignatureReceive s = .next s) ∧
    (matches_ → l.last = none → (l.own.find? fun e => e.1 = s.now.unit) = none →
      exec .lockstepSignatureReceive s = .next (left [{ l with partner := l.partner ++ [(s.now.unit, s.now.value)] }])) ∧
    (∀ y, matches_ → l.own = [(s.now.unit, y)] → l.partner = [] → let rest := left (match l.last with | some n => if n < l.frame then [] else [{ l with own := [] }] | none => [{ l with own := [] }])
      (y = s.now.value → exec .lockstepSignatureReceive s = .next rest) ∧ (y ≠ s.now.value → exec .lockstepSignatureReceive s = .next (lockstepEvent rest l 0x8001 s.now.unit))) ∧
    (∀ f y, l.last = none → l.own = [(f, y)] → let n := 2 ^ l.launch.flen.toNat
      let late := l.launch.t0 ≤ s.hub.podTime ∧ (f + 1) * n + n + 8192 ≤ s.hub.podTime.toNat - l.launch.t0.toNat
      (¬ late → exec .lockstepSignatureTimeout s = .next s) ∧ (late → exec .lockstepSignatureTimeout s = .next (lockstepEvent (left [{ l with own := [] }]) l 0x8002 f)))) ∧
  (∀ (s : State) (l : Lockstep) (code : Code) (f : Nat), let u := lockstepEvent s l code f
    (∀ c r, (u.core c).run = some r → r.instKey ≠ l.key) ∧
    ((∀ c r, (s.core c).run = some r → r.instKey ≠ l.key) → u = faultRecord s 4 code l.ctx l.gen 137 0 (BitVec.ofNat 64 f)))

end Sys2Proof.Claims

/-- R434: when pod time drifts, the hub clears PTIME, reports 0x5104 and holds new ordered and circuit sends; it stamps no packet and sends no watermark above its last one until PTIME is set again; packets that are stamped keep their stamps. -/
def Obligations.DriftHoldsOrderedTraffic : Prop :=
  (∀ (s : State), s.hub.ready.getLsbD 47 = false → exec .podTimeDrift s = .next s) ∧
  (∀ (s : State), s.hub.ready.getLsbD 47 = true → ∃ s1, exec .podTimeDrift s = .next (hubRecord s1 0x5104 0) ∧ s1 = { s with hub := { s.hub with ready := s1.hub.ready } } ∧
    ∀ i, s1.hub.ready.getLsbD i = (decide (i ≠ 47) && s.hub.ready.getLsbD i)) ∧
  (∀ (s : State), s.hub.ready.getLsbD 47 = false →
    (∀ c d e, ((s.core c).replay.find? fun x => x.dest = d) = some e → pushMajor e.push = 0x18 ∨ pushMajor e.push = 0x1A → offerWindow s c d = s) ∧
    exec .orderedInject s = .next s ∧ ∀ o, watermark s o = (s.port o).lastW) ∧
  (∀ (s : State) (code : Code) (info : Word), let u := hubRecord s code info
    u.hub.reorder = s.hub.reorder ∧ u.hub.inject = s.hub.inject ∧ u.hub.ports = s.hub.ports ∧ u.cores = s.cores)

/-! ### The host port and the management space (R51, R52, R59, R182, R184, R186, R241, R375, R397, R398, R406, R417, R428, R430, R437) -/

namespace Sys2Proof.Claims

/-! #### CXL -/

/-- CXL_LINK_DOWN clears CXL of READY and is reported with 0x6001 (R437). CXL_COMPLETION_TIMEOUT is reported with 0x6001, an error or poisoned completion with 0x6002, and what waited for the host fails: a load with that code, precise while its bundle is
uncommitted and as an engine fault after it; a copy with STATUS 0x4011 and FCODE that code; a walker's request with it (R406, R428, R437). -/
def hostLinkFailuresReachTheirReaders : Prop :=
  (∀ (s : State), ∃ s1, exec .cxlLinkDown s = .next (hubRecord s1 0x6001 0) ∧ s1.mem = s.mem ∧ s1.hub.cxlUp = false ∧
    ∀ i, s1.hub.ready.getLsbD i = (decide (i ≠ 46) && s.hub.ready.getLsbD i)) ∧
  (∀ (s : State), s.now.extra = 0 → let code : Code := if s.now.value = 1 then 0x6002 else 0x6001
    let s1 := hubRecord s code 0
    (s.me.loads.find? hostLoad = none → exec .cxlCompletionTimeout s = .next s1) ∧
    (∀ l, s.me.loads.find? hostLoad = some l → let s2 := s1.setMe { s1.me with loads := eraseFirst (fun x => x = l) s1.me.loads }
      (∀ cur, s.me.current = some cur → cur.pc = l.bundle → exec .cxlCompletionTimeout s = .next (s2.slotFault l.slot code)) ∧
      ((∀ cur, s.me.current = some cur → cur.pc ≠ l.bundle) → ∃ f, exec .cxlCompletionTimeout s = .next (takeEngine s2 s.now.core f) ∧ f.kind = 2 ∧ f.code = code ∧ f.fbun = l.bundle))) ∧
  (∀ (s : State), s.now.extra = 1 → let code : Code := if s.now.value = 1 then 0x6002 else 0x6001
    let d := Dest4.ofCode s.now.unit
    (∀ cp, isChannel d → (s.churnChan d).running = some cp → cp.ended = false → ∃ u, exec .cxlCompletionTimeout s = .next u ∧
      (u.churnChan d).running = some { cp with ended := true, hold := false, status := 0x4011, fcode := code } ∧ u.mem = (hubRecord s code 0).mem) ∧
    ((s.churnChan d).running = none → exec .cxlCompletionTimeout s = .next (hubRecord s code 0))) ∧
  (∀ (s : State), 2 ≤ s.now.extra.toNat → let code : Code := if s.now.value = 1 then 0x6002 else 0x6001
    exec .cxlCompletionTimeout s = .next (if (s.tower s.now.tower).walker.running = true
    then failRequest (hubRecord s code 0) s.now.tower code else hubRecord s code 0))

/-- HOST_CXL_MEM_ACCESS: a read of a tower's frames changes nothing and a write puts its bytes there; an access to a frame of a range with OWN = 0 is reported with 0x6020, and a write to it touches no
other byte (R59, R182, R428). Operands that wait to be combined in the words it reaches are applied first (R79). What such a write leaves in its bytes is free (log 26). -/
def hostAccessesReachDeviceMemory : Prop :=
  ∀ (s : State), Memory.wf s.mem = true → let key := s.now.tower.val * 2 ^ 40 + s.now.addr.toNat
    let n := if s.now.value = 1 then s.now.data.length else s.now.extra.toNat
    let s0 := flushRange s s.now.tower key n
    let given := ∃ e ∈ s0.migrated, key / 65536 ≤ e.1 ∧ e.1 ≤ (key + n - 1) / 65536
    0 < n → s.now.addr.toNat + n ≤ 1179648 * 65536 →
    ((∀ c ∈ (s.tower s.now.tower).combine, c.key + 8 ≤ key ∨ key + n ≤ c.key) → s0 = s) ∧
    (s.now.value ≠ 1 → ¬ given → exec .hostCxlMemAccess s = .next s0) ∧
    (s.now.value ≠ 1 → given → exec .hostCxlMemAccess s = .next (hubRecord s0 0x6020 0)) ∧
    (s.now.value = 1 → ¬ given → ∃ u, exec .hostCxlMemAccess s = .next u ∧ (∀ i, i < n → readByte u (key + i) = s.now.data.getD i 0) ∧
      ∀ a, a < key ∨ key + n ≤ a → readByte u a = readByte s0 a) ∧
    (s.now.value = 1 → given → ∃ s1, exec .hostCxlMemAccess s = .next (hubRecord s1 0x6020 0) ∧ s1.hub = s0.hub ∧ ∀ a, a < key ∨ key + n ≤ a → readByte s1 a = readByte s0 a)

/-! #### Registers -/

/-- The rows of the management space that a host write reaches. -/
def managementRows : List Instr :=
  [.mgmtRegisterWrite, .ctxwinWrite, .invselWrite, .ckillWrite, .domainWrite, .keyWrite, .dbgcGo, .rslenWrite, .routineStoreWrite, .attgoWrite, .porterrClear]

/-- R186: the read-write registers of BAR 0 that a write merely changes, by their first offset, how many there are and the bits that a write keeps. -/
def writableTable : List (Nat × Nat × Word) :=
  [(0x8, 1, 0x2FFFF), (0x18, 1, 0xFFFFFFFFFFFFE000), (0x100, 5, 0xFFFFFFFFFFFFFFFF), (0x140, 5, 0xFFF), (0x500, 1, 0xFFFFFFFF), (0x600, 1, 0xFFFF),
   (0x610, 1, 0xFFFFFF), (0x700, 4, 0xFFFFFFFFFFFE0000), (0xC00, 64, 0x1FFFFFF), (0xE00, 4, 0x1FFFFFF), (0x5100, 4, 0xFFFFFFFFFFFFE000)]

def writableBits (x : Nat) : Option Word :=
  if 0x1000 ≤ x ∧ x < 0x2000 then (if x / 8 % 16 = 15 then none else some 0x1FFFFFF)
  else if 0x4000 ≤ x ∧ x < 0x5000 then (if x % 16 = 0 then some 0xFFFFFFFFFFFFFFE1 else some 0x307FF)
  else (writableTable.find? fun e => decide (e.1 ≤ x) && decide (x < e.1 + 8 * e.2.1)).map fun e => e.2.2

/-- A host access of BAR 0 that is not an aligned one of 8 bytes is discarded and logged with its offset. A write to a read-write register reads back with its reserved bits zero (an HTMO of 0 as 1, R438), and every other register below
the context window reads as before; CURDLS takes 0 to 4 before the curd units of its tower are in service; ATTN takes its bytes; an offset without a register, or a read-only one, ignores the write (R8, R184, R186, R332). -/
def managementWritesReadBack : Prop :=
  (∀ (s : State) (i : Instr), i ∈ managementRows → s.now.extra ≠ 0 ∨ s.now.addr.toNat % 8 ≠ 0 → exec i s = .next (hubRecord s 0x6030 s.now.addr)) ∧
  (∀ (s : State), s.now.extra = 0 → s.now.addr.toNat % 8 = 0 → swf (0 : BitVec 128) s.hub.ringv = true → let x := s.now.addr.toNat
    (∀ m, writableBits x = some m → ∃ u, exec .mgmtRegisterWrite s = .next u ∧ u.mem = s.mem ∧ mgmtRead u x = (if x = 0x500 ∧ s.now.value &&& m = 0 then 1 else s.now.value &&& m) ∧
      ∀ y, y % 8 = 0 → y < 0x10000 → y ≠ x → mgmtRead u y = mgmtRead s y) ∧
    (∀ d, d < 48 → x = 0x800 + 8 * d → ∃ u, exec .mgmtRegisterWrite s = .next u ∧ u.mem = s.mem ∧
      mgmtRead u x = (if s.hub.ready.getLsbD (24 + d / 12) = true then mgmtRead s x else BitVec.ofNat 64 (min 4 (s.now.value.toNat % 8)))) ∧
    (∀ i, i < 4 → x = 0x6000 + 8 * i → ∃ u, exec .mgmtRegisterWrite s = .next u ∧ u.mem = s.mem ∧
      ∀ j, j < 4 → u.hub.attn.toNat / 2 ^ (64 * j) % 2 ^ 64 = if j = i then s.now.value.toNat else s.hub.attn.toNat / 2 ^ (64 * j) % 2 ^ 64) ∧
    (writableBits x = none → (∀ d, d < 48 → x ≠ 0x800 + 8 * d) → (∀ i, i < 4 → x ≠ 0x6000 + 8 * i) → exec .mgmtRegisterWrite s = .next s) ∧
    (x = 0x10 → exec .domainWrite s = .next { s with hub := { s.hub with domain := s.now.value &&& 0xFFFF } }) ∧ (x ≠ 0x10 → exec .domainWrite s = .next s))

/-- The bits of a context entry that a window write changes, by word: PTW, DBG and V of word 0, the address fields and the registers of words 2 to 10 (R51). -/
def windowBits (i : Nat) : Word := if i = 0 then 0xF0300 else if 2 ≤ i ∧ i ≤ 10 then 0xFFFFFFFFFFFFFFFF else 0

/-- CTXWIN_WRITE changes the writable bits of one word of the selected tag's entry and no other byte of memory: GEN and reserved bits stay (R51). -/
def contextWindowWritesItsWord : Prop :=
  ∀ (s : State), s.now.extra = 0 → s.now.addr.toNat % 8 = 0 → Memory.wf s.mem = true → let x := s.now.addr.toNat
    (x < 0x10000 ∨ 0x10100 ≤ x → exec .ctxwinWrite s = .next s) ∧
    (∀ i, i < 32 → x = 0x10000 + 8 * i → ∃ u, exec .ctxwinWrite s = .next u ∧ let key := s.hub.ctxtb.toNat / 2 ^ 24 % 2 ^ 40 * 2 ^ 24 + 256 * (s.hub.ctxsel.toNat % 2 ^ 16) + 8 * i
      readWord u key = (readWord s key &&& ~~~(windowBits i)) ||| (s.now.value &&& windowBits i) ∧ (∀ a, a < key ∨ key + 8 ≤ a → readByte u a = readByte s a) ∧ u.hub = s.hub)

/-- INVSEL_WRITE sends a request of kind 5 to the walker of every tower that PTW marks, behind what its queue holds, and reads BUSY until they have all reported; while BUSY, or under a stale generation, it is
discarded with 0x6030 (R52, R54, R186). -/
def hostInvalidationsAskEveryWalker : Prop :=
  ∀ (s : State), s.now.extra = 0 → s.now.addr.toNat % 8 = 0 → let ctx := BitVec.ofNat 16 (s.hub.invctx.toNat / 2 ^ 8)
    let gen := BitVec.ofNat 8 s.hub.invctx.toNat
    let busy := s.hub.invsel.getLsbD 47 = true
    let sel := s.now.value &&& 0xFFFF000000FFFFFF
    (s.now.addr ≠ 0x618 → exec .invselWrite s = .next s) ∧
    (s.now.addr = 0x618 → busy ∨ ctxCurrent s ctx gen = false → exec .invselWrite s = .next (hubRecord s 0x6030 0x618)) ∧
    (s.now.addr = 0x618 → ¬ busy → ctxCurrent s ctx gen = true → ∃ u, exec .invselWrite s = .next u ∧ u.mem = s.mem ∧ u.hub.invLeft = ctxTowers s ctx ∧
      (u.hub.invsel.getLsbD 47 = true ↔ ctxTowers s ctx ≠ 0) ∧ (∀ i, i ≠ 47 → u.hub.invsel.getLsbD i = sel.getLsbD i) ∧
      ∀ t : TowerId, ((ctxTowers s ctx).getLsbD t.val = false → u.tower t = s.tower t) ∧
        ((ctxTowers s ctx).getLsbD t.val = true → ∃ r, (u.tower t).walker.queue = (s.tower t).walker.queue ++ [r] ∧ r.kind = 5 ∧ r.ctx = ctx ∧ r.gen = gen ∧ r.a2 = sel ∧ r.core = none))

/-! #### Killing a context -/

/-- CKILL_WRITE with a stale GEN or a reserved bit set is discarded with 0x6031 (R397). Otherwise the tag's generation advances (R398, step 1), and afterwards no core runs a record of the tag and generation, no
tower holds a ready, suspended or staged record, a query, a wait, an instance or a walker's request of it, and no channel a copy. The generation is stated where nothing of the device
acts on memory at the kill. -/
def killsLeaveNothingOfTheContext : Prop :=
  ∀ (s : State), s.now.extra = 0 → s.now.addr.toNat % 8 = 0 → let v := s.now.value.toNat
    let ctx := BitVec.ofNat 16 (v / 2 ^ 8)
    let gen := BitVec.ofNat 8 v
    let refused := v / 2 ^ 24 % 2 ^ 39 ≠ 0 ∨ s.hub.ckill.getLsbD 63 = true ∨ ctxGen s ctx ≠ gen
    (s.now.addr ≠ 0x200 → exec .ckillWrite s = .next s) ∧
    (s.now.addr = 0x200 → refused → exec .ckillWrite s = .next (hubRecord s 0x6031 0)) ∧
    (s.now.addr = 0x200 → ¬ refused → ∃ u, exec .ckillWrite s = .next u ∧
      (∀ c r, (u.core c).run = some r → ¬ (r.ctx = ctx ∧ r.gen = gen)) ∧
      (∀ t, (∀ e ∈ (u.tower t).ready, ¬ (e.ctx = ctx ∧ e.gen = gen)) ∧ (∀ e ∈ (u.tower t).susp, ¬ (e.entry.ctx = ctx ∧ e.entry.gen = gen)) ∧
        (∀ e ∈ (u.tower t).staging, ¬ (e.entry.ctx = ctx ∧ e.entry.gen = gen)) ∧ (∀ e ∈ (u.tower t).queries, ¬ (e.ctx = ctx ∧ e.gen = gen)) ∧
        (∀ e ∈ (u.tower t).syncs, ¬ (e.ctx = ctx ∧ e.gen = gen)) ∧ (∀ e ∈ (u.tower t).armed, ¬ (e.ctx = ctx ∧ e.gen = gen)) ∧
        (∀ e ∈ (u.tower t).walker.queue, e.ctx = ctx ∧ e.gen = gen → e.kind = 5)) ∧
      (∀ d, isChannel d → (∀ r ∈ (u.churnChan d).queue, ¬ (r.ctx = ctx ∧ r.gen = gen)) ∧
        ∀ cp, (u.churnChan d).running = some cp → ¬ (cp.req.ctx = ctx ∧ cp.req.gen = gen)) ∧
      (Memory.wf s.mem = true → gen ≠ 255 → (∀ c r, (s.core c).run = some r → r.ctx ≠ ctx) → copyNodes s = [] →
        (∀ t, let w := s.tower t
          w.ready = [] ∧ w.susp = [] ∧ w.staging = [] ∧ w.displaced = [] ∧ w.syncs = [] ∧ w.curd = none ∧ ∀ a ∈ w.armed, a.ctx ≠ ctx) →
        readByte u (ctxEntryKey s ctx) = gen + 1 ∧ ∀ a, a ≠ ctxEntryKey s ctx → readByte u a = readByte s a))

/-! #### Keys, debug, the routine store, attestation and link errors -/

/-- KEY_WRITE puts one word of a slot's key in place: word 0 clears LOADED of the slot, word 7 sets it; a key that changes takes the plaintext of the frames written under it and of no other frame (R186, R417). What those
frames then read as is free (log 12). -/
def keysLoadWithTheirLastWord : Prop :=
  ∀ (s : State), s.now.extra = 0 → s.now.addr.toNat % 8 = 0 → Memory.wf s.mem = true → swf 0 s.sealed = true → let x := s.now.addr.toNat
    (x < 0x2400 ∨ 0x2C00 ≤ x → exec .keyWrite s = .next s) ∧
    (∀ (k : Fin 32) (i : Nat), i < 8 → x = 0x2400 + 64 * k.val + 8 * i → ∃ u, exec .keyWrite s = .next u ∧
      (∀ j, j < 8 → (u.hub.keys.get k).toNat / 2 ^ (64 * j) % 2 ^ 64 = if j = i then s.now.value.toNat else (s.hub.keys.get k).toNat / 2 ^ (64 * j) % 2 ^ 64) ∧
      (∀ j, j ≠ k → u.hub.keys.get j = s.hub.keys.get j) ∧
      (∀ j, j < 32 → u.hub.keyst.getLsbD j = if j = k.val ∧ i = 0 then false else if j = k.val ∧ i = 7 then true else s.hub.keyst.getLsbD j) ∧
      (u.hub.keys = s.hub.keys → u.mem = s.mem) ∧ ∀ a, sget 0 s.sealed (a / 65536) ≠ k.val + 1 → readByte u a = readByte s a)

/-- DBGC_GO lets a stopped core go on, and changes nothing else (R186, R241). RSLEN only rises (R53, R186). The routine store takes a write at or above LEN, and an entry word that is 0 once; any other write is
discarded with 0x6030 (R186). -/
def debugAndRoutineStoreWrites : Prop :=
  ∀ (s : State), s.now.extra = 0 → s.now.addr.toNat % 8 = 0 → let x := s.now.addr.toNat
    let v := s.now.value.toNat
    (∀ c : CoreId, x = 0x3000 + 8 * c.val → s.now.value.getLsbD 1 = true → exec .dbgcGo s = .next (s.setCore c { (s.core c) with stopped := false })) ∧
    (x < 0x3000 ∨ 0x3400 ≤ x ∨ s.now.value.getLsbD 1 = false → exec .dbgcGo s = .next s) ∧
    (x < 0x5000 ∨ 0x5020 ≤ x → exec .rslenWrite s = .next s) ∧
    (∀ t : TowerId, x = 0x5000 + 8 * t.val → ∃ u, exec .rslenWrite s = .next u ∧ u.mem = s.mem ∧ (u.tower t).rslen.toNat = max (s.tower t).rslen.toNat (v % 2 ^ 17) ∧
      (u.tower t).store = (s.tower t).store) ∧
    (x < 0x100000 ∨ 0x140000 ≤ x → exec .routineStoreWrite s = .next s) ∧
    (∀ (t : TowerId) (off : Nat), off < 65536 → x = 0x100000 + 65536 * t.val + off → swf 0 (s.tower t).store = true →
      let free := fun (a n : Nat) => (s.tower t).rslen.toNat ≤ a ∨ a < 1024 ∧ ((storeWord s t a).toNat = 0 ∨ (storeWord s t a).toNat = n)
      (¬ (free off (v % 2 ^ 32) ∧ free (off + 4) (v / 2 ^ 32)) → exec .routineStoreWrite s = .next (hubRecord s 0x6030 s.now.addr)) ∧
      (free off (v % 2 ^ 32) ∧ free (off + 4) (v / 2 ^ 32) → ∃ u, exec .routineStoreWrite s = .next u ∧ u.mem = s.mem ∧ (u.tower t).rslen = (s.tower t).rslen ∧
        (∀ i, i < 8 → (sget 0 (u.tower t).store (off + i)).toNat = v / 2 ^ (8 * i) % 2 ^ 8) ∧
        ∀ a, a < off ∨ off + 8 ≤ a → sget 0 (u.tower t).store a = sget 0 (s.tower t).store a))

/-- ATTGO_WRITE makes a report over ATTN: nonce, digest, version, digest of the routine store, READY and the signature over the 140 bytes before it (R375). The signature is free (log 12). PORTERR_CLEAR clears
each field of which a 1 is written in any bit, and nothing else (R430). -/
def reportsAndErrorCounters : Prop :=
  (∀ (s : State), s.now.extra = 0 → (s.now.addr = 0x6020 → s.now.value.getLsbD 0 = true → ∃ u, ∃ b g : List Byte, exec .attgoWrite s = .next u ∧ u = { s with hub := { s.hub with attDone := true, attRep := b ++ g } } ∧
      b.length = 140 ∧ g.length = 96 ∧ b.take 32 = leBytes 32 s.hub.attn.toNat ∧ (b.drop 32).take 48 = leBytes 48 s.hub.digest.toNat ∧ (b.drop 80).take 4 = leBytes 4 s.hub.fwver.toNat ∧
      (b.drop 84).take 48 = sha384 ((List.range 65536).map fun i => sget 0 (s.tower 0).store i) ∧
      (b.drop 132).take 4 = leBytes 4 (s.hub.ready.toNat / 2 ^ 32) ∧ b.drop 136 = leBytes 4 (s.hub.ready.toNat % 2 ^ 32)) ∧
    (s.now.addr.toNat % 8 = 0 → s.now.addr ≠ 0x6020 ∨ s.now.value.getLsbD 0 = false → exec .attgoWrite s = .next s)) ∧
  (∀ (s : State), s.now.extra = 0 → s.now.addr.toNat % 8 = 0 → let x := s.now.addr.toNat
    let v := s.now.value.toNat
    (x < 0x400 ∨ 0x4A0 ≤ x → exec .porterrClear s = .next s) ∧
    (∀ p, p < 20 → x = 0x400 + 8 * p → ∃ u e, exec .porterrClear s = .next u ∧ u = s.setPort p { (s.port p) with err := e } ∧
      e.toNat % 2 ^ 32 = (if v % 2 ^ 32 = 0 then (s.port p).err.toNat % 2 ^ 32 else 0) ∧
      e.toNat / 2 ^ 32 % 2 ^ 16 = (if v / 2 ^ 32 % 2 ^ 16 = 0 then (s.port p).err.toNat / 2 ^ 32 % 2 ^ 16 else 0) ∧ e.toNat / 2 ^ 48 = (s.port p).err.toNat / 2 ^ 48))

end Sys2Proof.Claims

/-! ### The step, decoding, reset and what instructions leave alone -/

namespace Sys2Proof.Claims

/-! #### The step (log 3, log 5, log 15) -/

/-- Time passes with every step that no core takes in the middle of what is undivided, for the arithmetic clock and for pod time alike, but for the count that a slew omits; it does not pass a stamp that a bundle
waits for (R153, R158, R170; how long a step takes is free, log 5). -/
def timePassesForAll : Prop :=
  ∀ (s : State), (∀ c, firstCore exec s = some c → advance exec s = { s with freeN := s.freeN + 1 }) ∧
    (firstCore exec s = none → ∃ n, (∀ d, nextStamp s = some d → n ≤ d) ∧ let omitted := if s.hub.omitNext = true ∧ 0 < n then 1 else 0
      advance exec s = { s with clk := s.clk + n, freeN := s.freeN + 1, hub := { s.hub with
        podTime := s.hub.podTime + BitVec.ofNat 64 (n - omitted), omitNext := s.hub.omitNext && decide (n = 0) } })

/-- What is due is performed first, in order; then the core that is in the middle of what is undivided; then, where the engines' turn has come, an engine's event that has become possible; and where no
agent can go on, time alone passes (log 15). -/
def dueEventsGoFirst : Prop :=
  ∀ (s : State), let s0 := advance exec s
    (∀ i o rest, s.agenda = (i, o) :: rest → step s = exec i { s0 with agenda := rest, now := o }) ∧
    (∀ c i u, s.agenda = [] → firstCore exec s0 = some c → coreNext exec s0 c = some (i, u) → step s = exec i u) ∧
    (∀ i o, s.agenda = [] → firstCore exec s0 = none → s.engines = true → dueEvent s0 = some (i, o) → step s = exec i { s0 with now := o }) ∧
    (s.agenda = [] → firstCore exec s0 = none → (s.engines = true → dueEvent s0 = none) → (∀ a, actorNext exec { s0 with engines := false } a = none) →
      ∃ n m b, step s = .next { s0 with clk := n, hub := { s0.hub with podTime := m, omitNext := b }, engines := true })

/-- In a core's turn the first entry of its bundle that no check and no wait holds back is executed: the step is exec of the instruction that the bundle's word of the slot decodes to (R152, R153, R187). The core is
not stopped, not stalled and has nothing in its gate, and no entry of a bundle that issues as one has still to wait. -/
def slotsExecuteTheirDecodedWord : Prop :=
  ∀ (s : State) (c : CoreId) (cur : Current) (x : Fin 8) (before after : List (Fin 8)) (i : Instr), s.agenda = [] → let k := s.core c
    let s0 := advance exec s
    k.run.isSome = true → k.stopped = false → k.stall = none → k.gate = [] → k.current = some cur → cur.stampWait = false → cur.left = before ++ x :: after →
    (∀ y ∈ before, isHeld k (slotInstr cur y) = true ∨ isWait (slotInstr cur y) = true) → isHeld k i = false → isWait i = false →
    (together cur.bundle = true → unissued cur = true → ∀ y ∈ cur.left, wouldWait exec s0 c cur y = false) →
    (∃ w, decodeBundle w = .ok cur.bundle ∧ decodeSlot x (slotPayload w x.val) = .ok (some i)) →
    let u := { s0.setCore c { k with current := some { cur with left := cur.left.filter fun y => y ≠ x, cIdle := cur.cIdle || (x = 0 && cNoOp s0 c i) } } with now := onCore c }
    (firstCore exec s0 = some c → step s = exec i u) ∧
    (firstCore exec s0 = none → s.engines = false → s.actor = .core c → step s = exec i { u with actor := actorNo (c.val + 1), engines := true })

/-- In the turn of a curd unit whose program runs, the step is exec of the instruction that the word at its pc decodes to, outside refresh windows; in the turn of a walker whose routine runs, of the instruction that
the routine store holds at its pc (R54, R342, R343). -/
def unitsExecuteTheirDecodedWord : Prop :=
  (∀ (s : State) (t : TowerId) (p : CurdProgram) (i : Instr), let s0 := advance exec s
    s.agenda = [] → firstCore exec s0 = none → s.engines = false → s.actor = .curd t → (s.tower t).curd = some p → p.words ≠ [] → p.clock < p.refresh + 4096 →
    decodeCurd (p.words.getD p.pc 0) = .ok i → step s = exec i { s0 with now := onTower t, actor := actorNo (129 + t.val), engines := true }) ∧
  (∀ (s : State) (t : TowerId) (i : Instr), let s0 := advance exec s
    s.agenda = [] → firstCore exec s0 = none → s.engines = false → s.actor = .walker t → let k := (s.tower t).walker
    k.running = true → decodeWalker (storeWord s t k.pc.toNat) = some i → step s = exec i { s0 with now := onTower t, actor := actorNo (133 + t.val), engines := true })

/-- A word that is placed for the next step is what the next step executes: a curd word, or a walker word where no curd word has its bits; the cores and the memory are as they were (log 15, log 16). No core is in the
middle of what is undivided. -/
def placedWordsAreExecutedNext : Prop :=
  ∀ (s : State) (n w : Nat) (i : Instr), (∀ c, undivided s c = false) → let x := BitVec.ofNat 32 w
    (decodeCurd x = .ok i → ∃ s1, step (s.withFetchWord n w) = exec i s1 ∧ s1.mem = s.mem ∧ s1.cores = s.cores ∧ ∃ p, (s1.tower 0).curd = some p ∧ p.words.getD p.pc 0 = x) ∧
    (∀ e, swf (0 : Byte) (s.tower 0).store = true → decodeCurd x = .error e → decodeWalker x = some i →
      ∃ s1, step (s.withFetchWord n w) = exec i s1 ∧ s1.mem = s.mem ∧ s1.cores = s.cores ∧ storeWord s1 0 (s1.tower 0).walker.pc.toNat = x)

/-! #### Decoding -/

/-- The fields of a T word, for the words below. -/
def fieldsT (d a b : BitVec 6) : OpT := { d := d, a := a, b := b, g := 0 }

end Sys2Proof.Claims

/-- When the bytes at the program counter decode, the step is exec of the decoded instruction with what the step adds around it. -/
def Obligations.StepsExecuteWhatTheyDecode : Prop :=
  Claims.timePassesForAll ∧ Claims.dueEventsGoFirst ∧ Claims.slotsExecuteTheirDecodedWord ∧ Claims.unitsExecuteTheirDecodedWord ∧ Claims.placedWordsAreExecutedNext

/-- Words of the spec decode to the instructions they stand for: the worked bundles of R190 and of the instruction chapters, one word per slot, and of the curd program of R344; the walker word is laid out from R55. -/
def Obligations.WordsOfTheSpecDecode : Prop :=
  decodeSlot 0 0x0C092020 = .ok (some (.cLoop { d := 1, a := 9, imm := 2, g := 0 })) ∧
  decodeSlot 1 0x10208010 = .ok (some (.aAddi { d := 4, a := 4, imm := 1, g := 0 })) ∧
  decodeSlot 1 0x28480003 = .ok (some (.aMovi { d := 9, imm := 3 })) ∧
  decodeSlot 2 0x0708C520 = .ok (some (.lLdv { d := 33, h := 3, cb := 5, zm := 2, g := 0 })) ∧
  decodeSlot 3 0x02A10E00 = .ok (some (.wSte { d := 20, h := 4, cb := 14, zm := 0, g := 0 })) ∧
  decodeSlot 4 0x08446080 = .ok (some (.vFma (Claims.fieldsT 8 35 1) 0)) ∧
  decodeSlot 5 0x1430A000 = .ok (some (.xVtos (Claims.fieldsT 6 5 0))) ∧
  decodeSlot 6 0x02702260 = .ok (some (.mRun8 { z := 3, sp := 8, pp := 1, mm := 1, h := 6, g := 0 })) ∧
  decodeSlot 6 0x11410000 = .ok (some (.mWin (Claims.fieldsT 40 8 0))) ∧
  decodeSlot 7 0x05414000 = .ok (some (.eCpop (Claims.fieldsT 40 10 0))) ∧
  decodeCurd 0x02800011 = .ok (.qAddi 0 4 0 17) ∧ decodeCurd 0x99240060 = .ok (.qExt 9 1 1 0x060) ∧ decodeCurd 0xA58E0000 = .ok (.qLook 10 4 3 4) ∧
  decodeWalker 0x0005850B = some (.wkLdp 0 11 10)

/-- R187, R190, R344, R55: every well-formed instruction decodes from its own word, with every operand at every value: a slot instruction in its slot, a curd or walker instruction as its word; an event has no word. -/
def Obligations.EveryEncodingDecodesToItsInstruction : Prop :=
  ∀ (i : Instr), i.wellFormed = true →
    (∀ w, encodeSlot i = some w → ∃ n, slotOf i = some n ∧ decodeSlot n w = .ok (some i)) ∧ (∀ w, encodeWord i = some w → decodeCurd w = .ok i ∨ decodeWalker w = some i) ∧
    ((slotOf i).isSome = (encodeSlot i).isSome) ∧ ¬ ((encodeSlot i).isSome = true ∧ (encodeWord i).isSome = true)

/-- R187, R190, R344, R377: a word has one meaning: what it decodes to is well formed and encodes to that word, in that slot. So no bit of a word is dropped, and two words never decode to one instruction. -/
def Obligations.EveryDecodedWordIsTheEncoding : Prop :=
  (∀ (n : Fin 8) (w : BitVec 31) (i : Instr), decodeSlot n w = .ok (some i) → slotOf i = some n ∧ encodeSlot i = some w ∧ i.wellFormed = true) ∧
  (∀ (w : BitVec 32) (i : Instr), decodeCurd w = .ok i → encodeWord i = some w ∧ i.wellFormed = true) ∧
  (∀ (w : BitVec 32) (i : Instr), decodeWalker w = some i → encodeWord i = some w)

/-- What reset leaves, as the spec gives it (R26, R34, R50, R51, R113, R125, R150, R186, R367, R404, R417, R430, R438): READY is 0, no context is valid and every generation is 0, no core runs, no key is loaded, the tier map is A3 A2 A1 A0 with parity A4,
and the registers have the reset values of their tables. -/
def Obligations.ResetLeavesTheGivenValues : Prop :=
  let h := State.reset.hub
  h.ready = 0 ∧ h.devid = 0xFFFF ∧ h.domain = 0 ∧ h.rqtb = 0 ∧ h.fwstat = 0 ∧ h.ckill = 0 ∧ h.htmo = 0x10000 ∧ h.ctxsel = 0 ∧ h.invctx = 0 ∧ h.invsel = 0 ∧ h.keyst = 0 ∧ h.attDone = false ∧
  h.podTime = 0 ∧ h.retry = 0x600020 ∧ (∀ i, h.fqvec.get i = 0) ∧ (∀ i, sget 0 h.ringv i = 0) ∧ (∀ x : Fin 20, (h.ports.get x).err = 0 ∧ (h.ports.get x).lhop = 0) ∧
  (∀ t, let w := State.reset.tower t
    w.retired = 0 ∧ w.mapv = 0 ∧ w.curdDir = 0 ∧ w.armb = 0 ∧ w.mpool = 0 ∧ w.retry = 0x600020 ∧ w.tiers.map = #v[3, 2, 1, 0] ∧ w.tiers.parity = 4) ∧
  (∀ c, let k := State.reset.core c
    k.run = none ∧ k.current = none ∧ k.stats = [] ∧ k.stopped = false ∧ k.brkNum = 0 ∧ k.retry = 0x600020) ∧
  (∀ x, (State.reset.cluster x).retry = 0x600020) ∧ (∀ x (b : Fin 32), ((State.reset.cluster x).bankfmt.get b) = 0x4000) ∧
  (∀ (d : Dest4), (State.reset.churnChan d).binding = 0 ∧ (State.reset.churnChan d).seq = 0) ∧
  (∀ tag, ctxValid State.reset tag = false ∧ ctxGen State.reset tag = 0) ∧ Memory.wf State.reset.mem = true

/-- The memory keeps its canonical form through every step, from every state, and so equal memories are equal data. -/
def Obligations.EveryStepKeepsTheMemoryCanonical : Prop :=
  ∀ (s s' : State), Memory.wf s.mem = true → step s = .next s' → Memory.wf s'.mem = true

namespace Sys2Proof.Claims

/-! #### Frames -/

/-- The register that an instruction of the A, V or X slot may write: s[d], the physical p[d], the physical v[d], or k[d] (R192, R209, R244 to R247, R267 to R280, R281 to R287). x.bpt stores and is not among them. -/
def destination (s : State) (i : Instr) : Option RegRef :=
  match i with
    | .aAdd o | .aSub o | .aAnd o | .aOr o | .aXor o | .aAndn o | .aOrn o | .aXnor o | .aShl o | .aShr o | .aSra o | .aRor o | .aMin o | .aMax o
    | .aMinu o | .aMaxu o | .aAdds o _ | .aMul o | .aMulh o | .aMulhu o | .aDiv o | .aDivu o | .aRem o | .aRemu o | .aSel o | .aClz o | .aCtz o
    | .aPopc o => some (.s o.d)
    | .aAddi o | .aAndi o | .aOri o | .aXori o | .aShli o | .aShri o | .aSrai o => some (.s o.d)
    | .aMovi o | .aCat o => some (.s o.d)
    | .aCeq o | .aCne o | .aClt o | .aCge o | .aCltu o | .aCgeu o | .aCtst o | .aCntst o | .aPand o | .aPor o | .aPxor o | .aPandn o => some (predRef s o.d)
    | .aCeqi o | .aClti o | .aCltui o => some (predRef s o.d)
    | .vFceq o _ | .vFclt o _ | .vFcle o _ | .vCeq o _ | .vClt o _ | .vKand o | .vKor o | .vKxor o | .vKandn o => some (.k (o.d.setWidth 3))
    | .xVtos o => some (.s o.d)
    | .vFadd o _ | .vFsub o _ | .vFmul o _ | .vFma o _ | .vFnma o _ | .vFmax o _ | .vFmin o _ | .vFabs o _ | .vFneg o _ | .vXscl o _ | .vAdd o _
    | .vSub o _ | .vMul o _ | .vAdds o _ | .vSubs o _ | .vMin o _ | .vMax o _ | .vAnd o _ | .vOr o _ | .vXor o _ | .vShl o _ | .vSra o _ | .vShr o _
    | .vRsum o _ | .vRmax o _ | .vRmin o _ | .vRisum o _ | .vPerm o _ | .vBcst o _ | .vSlide o _ | .vExp2r o _ | .vExp2f o _ | .vLog2r o _
    | .vLog2f o _ | .vRcpr o _ | .vRcpf o _ | .vRsqr o _ | .vRsqf o _ | .vTanhr o _ | .vTanhf o _ | .vSinr o _ | .vSinf o _ | .vCosr o _ | .vCosf o _
    | .xTrr o | .xTrc o | .xMxq o | .xMxd o | .xSaq o | .xPack o | .xUnpk o | .xStov o => some (vecRef s o.d)
    | .xCvt o => some (vecRef s o.d)
    | _ => none

/-- Only the register ref of the core may have changed: every other register is seen as before by every slot, memory, the other cores, the towers, the hub and every special register stand; of the bundle in progress only flags raised and faults taken may have been added. -/
def onlyRegister (s t : State) (ref : RegRef) : Prop :=
  t = s.setMe t.me ∧ (∀ y r, r ≠ ref → t.me.regs.seen y r = s.me.regs.seen y r) ∧
  (∀ cur, s.me.current = some cur → ∃ q, t.me.current = some q ∧ q = { cur with flags := q.flags, faults := q.faults } ∧ ∀ n, cur.flags.getLsbD n = true → q.flags.getLsbD n = true) ∧
  (s.me.current = none → t.me.current = none) ∧
  t.me = { s.me with group := t.me.group, current := t.me.current, regs := { s.me.regs with s := t.me.regs.s, v := t.me.regs.v, p := t.me.regs.p, k := t.me.regs.k, fly := t.me.regs.fly } }

end Sys2Proof.Claims

/-- The frame of the A, V and X slots: where exec answers a next state, an instruction has changed no register but its destination, no byte of memory, no special register, accumulator or exception register, and no other core. -/
def Obligations.RegisterInstructionsLeaveAllElseAlone : Prop :=
  ∀ (s t : State) (i : Instr) (ref : RegRef), Claims.destination s i = some ref → exec i s = .next t → Claims.onlyRegister s t ref ∧ ∀ a, readByte t a = readByte s a

/-! ### The statements that are put together from claims -/

/-- A written register is seen by every slot when its latency says, and no other register changes (R205, R206, R208). -/
def Obligations.WrittenRegistersAreSeenAsTheirLatencySays : Prop :=
  Claims.writesWithoutLatencyAreSeenByEveryReader ∧
  Claims.writesWithLatencyKeepTheirWindow

/-- Every A-slot instruction completes with the value of its table (R192, R204, R244, R245, R246, R247). -/
def Obligations.ScalarInstructionsCompute : Prop :=
  Claims.scalarRegisterFormsCompute ∧
  Claims.scalarComparesAndCounts ∧
  Claims.scalarImmediateFormsCompute

/-- Branches, calls and register jumps transfer control where the spec says (R222, R225, R226, R227). -/
def Obligations.BranchesCallsAndJumpsTransferControl : Prop :=
  Claims.branchesGoWhereTheOffsetSays ∧
  Claims.callsAndRegisterJumpsTransferControl

/-- Loops and nests push their entry, and a loop-back counts, rotates and returns (R154, R210, R228, R229, R230, R231, R232). -/
def Obligations.LoopsAndNestsRunTheirBodies : Prop :=
  Claims.countedLoopsPushTheirEntry ∧
  Claims.nestsPushTheirEntry ∧
  Claims.loopBackDecrementsRotatesAndReturns

/-- A wait completes when its condition holds and stalls in place until then (R233, R234, R235). -/
def Obligations.WaitsCompleteOrStall : Prop :=
  Claims.waitsCompleteWhenTheirConditionHolds ∧
  Claims.waitsStallInPlaceUntilSatisfied

/-- Control registers are read at issue and written at the commit; traps, breaks and statistics pops (R236, R237, R238, R239, R240, R241). -/
def Obligations.ControlRegistersTrapsAndBreaks : Prop :=
  Claims.controlRegisterInstructionsReadAndDefer ∧
  Claims.controlRegisterWritesFollowFieldAccess ∧
  Claims.trapsBreaksAndStatisticsPops

/-- Loads evaluate their operand, become outstanding, and land in their register (R220, R249, R250, R252, R255, R256). -/
def Obligations.LoadsReachTheirElements : Prop :=
  Claims.operandsAreEvaluatedFromHandleAndCoordinates ∧
  Claims.loadsBecomeOutstanding ∧
  Claims.rowsAccessTheirLanesInsideDim0 ∧
  Claims.loadDataLandInTheirRegister

/-- Prefetches move lines only; handle loads, cursor moves and gather pops (R257, R258, R259, R260, R261). -/
def Obligations.PrefetchesHandlesCursorsAndGatherPops : Prop :=
  Claims.prefetchesOnlyMoveLines ∧
  Claims.handleLoadsCursorMovesAndGatherPops

/-- A performed store changes exactly its element, and a load after it returns the stored bits (R60, R61, R64, R255). -/
def Obligations.StoredBitsAreReadBack : Prop :=
  Claims.storedElementChangesExactlyItsBits ∧
  Claims.loadAfterStoreReturnsTheStoredBits

/-- Atomics go where their use says and replace the word at its home (R77, R78, R80, R262, R263). -/
def Obligations.AtomicsReplaceTheWordAtItsHome : Prop :=
  Claims.atomicsGoWhereTheirUseSays ∧
  Claims.atomicsReplaceTheWordAtItsHome

/-- Combining buffers apply each operand once; fences release and acquire (R73, R74, R79, R80, R264). -/
def Obligations.BuffersCombineAndFencesOrder : Prop :=
  Claims.combiningBuffersApplyEachOperandOnce ∧
  Claims.fencesReleaseAndAcquire

/-- Acquires are granted at their home and releases end their hold; bindings and range requests (R67, R68, R70, R71, R72, R265, R266). -/
def Obligations.AcquiresReleasesAndBindings : Prop :=
  Claims.acquiresAreGrantedAtTheirHome ∧
  Claims.releasesEndTheirHold ∧
  Claims.bindingsAndRangeRequests

/-- Each rounding mode chooses its neighbour, and a fused product and sum is exact before rounding (R95, R96, R104). -/
def Obligations.ResultsRoundOnceInTheirMode : Prop :=
  Claims.roundingModesChooseTheirNeighbour ∧
  Claims.fusedMultiplyAddIsExactBeforeRounding

/-- Vector integer operations and compares complete element by element (R107, R267, R273, R275). -/
def Obligations.VectorIntegersAndCompares : Prop :=
  Claims.vectorIntegerOperations ∧
  Claims.vectorComparesWriteMasks

/-- Vector float operations round once; raised flags join the bundle or fault it (R103, R267, R268, R272, R380). -/
def Obligations.VectorFloatsRoundOnceAndFlagsTrap : Prop :=
  Claims.vectorFloatOperationsRoundOnce ∧
  Claims.raisedFlagsJoinTheBundleOrTrap

/-- Reductions, permutes and scale extraction complete with their values (R109, R277, R278, R280). -/
def Obligations.VectorReductionsPermutesAndScales : Prop :=
  Claims.vectorReductionsCombineTheElements ∧
  Claims.vectorPermutesAndScales

/-- Conversions, quantisation, shuffles, moves and plane stores of the X slot (R281, R282, R283, R284, R285, R286, R287, R288, R289). -/
def Obligations.TransposerInstructionsComplete : Prop :=
  Claims.conversionsKeepTheirPart ∧
  Claims.quantisationScalesItsBlocks ∧
  Claims.shufflesAndMovesTakeTheirPlaces ∧
  Claims.planeStoresTransposeTheirCodes

/-- Set-up words and runs of the matrix engine; reads of fold words, clip flags, trims and pins (R290, R293, R294, R295, R296, R303, R304). -/
def Obligations.MatrixRunsIssueTheirPasses : Prop :=
  Claims.setupWritesItsFields ∧
  Claims.runsIssueTheirPass ∧
  Claims.foldClipTrimAndPinReads

/-- A promotion reaches exactly its elements; narrow sums and accumulators are read and cleared (R119, R120, R121, R292, R299, R300, R301). -/
def Obligations.PromotionsAndAccumulators : Prop :=
  Claims.promotionsReachExactlyTheirElements ∧
  Claims.drainsReadTheNarrowSums ∧
  Claims.accumulatorsAreReadAndCleared

/-- Passes end with their fold word, swaps exchange the halves, tier events keep their book (R124, R128, R129, R132, R298, R422, R423). -/
def Obligations.PassesSwapsAndTierEvents : Prop :=
  Claims.swapsExchangeTheHalves ∧
  Claims.passesEndWithTheirFoldWord ∧
  Claims.tierEventsKeepTheirBook

/-- E-slot pushes check their operands and enter the restart gate; query results are popped in order (R307, R308, R319, R321, R324, R325, R327, R329). -/
def Obligations.EnginePushesEnterTheGate : Prop :=
  Claims.copyAndCommandPushes ∧
  Claims.sendsCheckTheirHeader ∧
  Claims.queriesAndTheirResults

/-- Pops claim the head, nodes end without holds, barriers count and complete (R72, R84, R85, R320, R323, R326, R328). -/
def Obligations.PopsNodesAndBarriers : Prop :=
  Claims.popsClaimTheHead ∧
  Claims.nodesEndWithoutHolds ∧
  Claims.barriersCountAndComplete

/-- An accepted entry reaches its consumer; a refused one is held and offered again (R148, R149, R150, R151, R316). -/
def Obligations.ReplayWindowsDeliverOrOfferAgain : Prop :=
  Claims.acceptedEntriesReachTheirConsumer ∧
  Claims.refusedEntriesAreHeldAndOfferedAgain

/-- Rings take records in order, nests count their elements, copies move exactly the bits of an element (R155, R313, R316). -/
def Obligations.RingsNestsAndCopiedElements : Prop :=
  Claims.ringsTakeRecordsInOrder ∧
  Claims.nestsCountTheirElements ∧
  Claims.copiesOfOneFormatMoveTheBits

/-- Copies start at the head of their channel and complete through their ring (R130, R183, R184, R310, R311, R312, R314, R315, R316, R321). -/
def Obligations.CopiesRunThroughTheirChannel : Prop :=
  Claims.copiesStartAtTheHeadOfTheirChannel ∧
  Claims.copiesCompleteThroughTheirRing ∧
  Claims.heldGranulesAndGatheredRows ∧
  Claims.apertureWritesPushCopies

/-- Curd instructions compute their results and move their rows (R343, R344, R345, R346). -/
def Obligations.CurdInstructionsCompute : Prop :=
  Claims.curdInstructionsCompute ∧
  Claims.rowOperationsMoveTheirRows

/-- Curd programs start, end and fault their node; queries are answered in order (R324, R338, R339, R341, R342, R347, R415). -/
def Obligations.CurdProgramsAndQueries : Prop :=
  Claims.curdProgramsFaultTheirNode ∧
  Claims.curdProgramsStartAndEnd ∧
  Claims.queriesAreAnsweredInOrder

/-- Walker instructions, requests, invalidations, chunk copies and handovers (R52, R53, R54, R55, R58, R56, R399, R406, R437, R438). -/
def Obligations.WalkersServeTheirRequests : Prop :=
  Claims.walkerLoadsReadTheirWord ∧
  Claims.walkerRequestsEndOnce ∧
  Claims.invalidationsDropEveryCopy ∧
  Claims.invalidationsAwaitTheLink ∧
  Claims.chunksAreCopiedWhole ∧
  Claims.walkersServeRequestsInOrder ∧
  Claims.handoversEndWithAnOwner

/-- Arming stores, ready records, decrements, spawns and commands (R19, R20, R21, R135, R139, R140, R327, R393, R395, R396). -/
def Obligations.InstancesArmCountAndSpawn : Prop :=
  Claims.armingStoresArmTheirInstance ∧
  Claims.readyRecordsJoinTheirQueue ∧
  Claims.decrementsAndSpawnsCount ∧
  Claims.commandsActOnTheirInstance

/-- An idle core takes the best record of its queues, and a first pick-up starts at ENTRY (R26, R29, R136, R142). -/
def Obligations.CoresTakeTheBestRecord : Prop :=
  Claims.coresTakeTheBestRecord ∧
  Claims.firstPickUpStartsAtEntry

/-- Rennet dispatches from its queues, displaced records return, pod records are placed in rotation (R18, R27, R142, R143, R144, R146, R147, R181, R359). -/
def Obligations.DispatchDisplacementAndPods : Prop :=
  Claims.dispatchServesTheQueues ∧
  Claims.displacedAndSuspendedRecordsReturn ∧
  Claims.podRecordsArePlacedInRotation

/-- Bundles enter whole and commit in order; results land, marks and stamps (R103, R152, R158, R187, R205, R211, R213, R215, R225, R378, R389). -/
def Obligations.BundlesEnterAndCommitInOrder : Prop :=
  Claims.bundlesEnterWhole ∧
  Claims.bundlesCommitInOrder ∧
  Claims.landingsMarksAndStamps

/-- A fault saves the continuation, writes its frame, faults the node and leaves the core idle (R351, R383, R384, R385, R387, R392, R394). -/
def Obligations.FaultsSaveAndReport : Prop :=
  Claims.preciseFaultsSaveAndReport ∧
  Claims.faultedNodesHoldTheirCode ∧
  Claims.engineFaultsAndYields

/-- A forced save and the resumption from it give back the registers and the control block (R355, R356, R357, R361). -/
def Obligations.ResumptionGivesBackTheRegisters : Prop :=
  Claims.resumptionGivesBackTheRegisters

/-- Slice changes, soft errors and background work (R40, R372, R404, R405, R406). -/
def Obligations.SlicesSoftErrorsAndScrubs : Prop :=
  Claims.slicesAdvanceTheMapVersion ∧
  Claims.poisonStandsOnWholeWords ∧
  Claims.softErrorsAreCorrectedOrPoisoned ∧
  Claims.backgroundWorkLeavesProgramsAlone

/-- Parity rotates, heat marks skips and paces, power paces between its limits (R126, R370, R371, R373, R407, R421). -/
def Obligations.RotationHeatAndPower : Prop :=
  Claims.parityRolesRotate ∧
  Claims.heatMarksSkipsAndPaces ∧
  Claims.powerPacesBetweenItsLimits

/-- READY bits follow their requirements; reset clears the device (R51, R53, R113, R367, R368, R374). -/
def Obligations.ReadinessAndReset : Prop :=
  Claims.readinessFollowsItsRequirements ∧
  Claims.resetClearsTheDevice

/-- Packets keep their order on a link, and its watermark never falls (R164, R166, R168, R169, R172, R173, R178, R429, R434). -/
def Obligations.LinksKeepTheirOrder : Prop :=
  Claims.headersHoldTheirFields ∧
  Claims.packetsKeepTheirOrderOnALink ∧
  Claims.watermarksNeverFall ∧
  Claims.beaconsCarryTheWatermark

/-- Flits are taken in sequence, their packets go where their header says, replays are counted (R164, R168, R172, R173, R174, R176, R178, R428, R429, R430, R431, R433). -/
def Obligations.FlitsReplaysAndPorts : Prop :=
  Claims.flitsAreTakenInSequence ∧
  Claims.packetsGoWhereTheirHeaderSays ∧
  Claims.replaysResendFlitsUnchanged

/-- Receive rings take packets whole; ordered packets are delivered by key; circuits keep their slots (R149, R166, R169, R170, R171, R172, R173, R174, R176, R178, R179, R181). -/
def Obligations.ReceiveRingsOrderAndCircuits : Prop :=
  Claims.ringsTakePacketsWhole ∧
  Claims.waitingPacketsReachTheirRings ∧
  Claims.orderedPacketsAreDeliveredByKey ∧
  Claims.injectionStampsInOrder ∧
  Claims.circuitsLeaveAndLandInTheirSlots

/-- Ports go down, train and stall; pod time is slewed by one; lockstep signatures are compared frame by frame (R161, R162, R163, R170, R175, R368, R428, R430, R431, R432, R439). -/
def Obligations.LockstepAndPodTime : Prop :=
  Claims.portsGoDownAndTrain ∧
  Claims.stalledWatermarksAreReportedOnce ∧
  Claims.podTimeIsSlewedByOne ∧
  Claims.signaturesAreSentPerFrame ∧
  Claims.signaturesThatDifferStopTheInstance

/-- Failures of the host link reach what waits for the host; host accesses reach device memory (R59, R79, R182, R406, R428, R437). -/
def Obligations.HostLinkAndHostAccesses : Prop :=
  Claims.hostLinkFailuresReachTheirReaders ∧
  Claims.hostAccessesReachDeviceMemory

/-- What a host write to each register of the management space does (R51, R52, R53, R186, R241, R375, R417, R430). -/
def Obligations.ManagementSpace : Prop :=
  Claims.managementWritesReadBack ∧
  Claims.contextWindowWritesItsWord ∧
  Claims.hostInvalidationsAskEveryWalker ∧
  Claims.keysLoadWithTheirLastWord ∧
  Claims.debugAndRoutineStoreWrites ∧
  Claims.reportsAndErrorCounters

/-- A kill advances the generation and leaves nothing of the context (R50, R397, R398). -/
def Obligations.KillsLeaveNothingOfTheContext : Prop :=
  Claims.killsLeaveNothingOfTheContext
end

