-- ==== Sys2Proof/Laws/State.lean ====
section
/-! SUPPORT. One lemma per field and update of the state, each true by unfolding, so that no later proof unfolds a record
update; and what is read back of a core, tower or cluster after one of them is replaced. -/

namespace Sys2Proof.Machine

/-! ### State.setCore -/

@[simp] theorem State.setCore_now (s : State) (c : CoreId) (k : Core) : (s.setCore c k).now = s.now := rfl
@[simp] theorem State.setCore_agenda (s : State) (c : CoreId) (k : Core) : (s.setCore c k).agenda = s.agenda := rfl
@[simp] theorem State.setCore_actor (s : State) (c : CoreId) (k : Core) : (s.setCore c k).actor = s.actor := rfl
@[simp] theorem State.setCore_engines (s : State) (c : CoreId) (k : Core) : (s.setCore c k).engines = s.engines := rfl
@[simp] theorem State.setCore_clk (s : State) (c : CoreId) (k : Core) : (s.setCore c k).clk = s.clk := rfl
@[simp] theorem State.setCore_freeN (s : State) (c : CoreId) (k : Core) : (s.setCore c k).freeN = s.freeN := rfl
@[simp] theorem State.setCore_mem (s : State) (c : CoreId) (k : Core) : (s.setCore c k).mem = s.mem := rfl
@[simp] theorem State.setCore_poison (s : State) (c : CoreId) (k : Core) : (s.setCore c k).poison = s.poison := rfl
@[simp] theorem State.setCore_lanes (s : State) (c : CoreId) (k : Core) : (s.setCore c k).lanes = s.lanes := rfl
@[simp] theorem State.setCore_badLanes (s : State) (c : CoreId) (k : Core) : (s.setCore c k).badLanes = s.badLanes := rfl
@[simp] theorem State.setCore_sealed (s : State) (c : CoreId) (k : Core) : (s.setCore c k).sealed = s.sealed := rfl
@[simp] theorem State.setCore_migrated (s : State) (c : CoreId) (k : Core) : (s.setCore c k).migrated = s.migrated := rfl
@[simp] theorem State.setCore_clusters (s : State) (c : CoreId) (k : Core) : (s.setCore c k).clusters = s.clusters := rfl
@[simp] theorem State.setCore_groups (s : State) (c : CoreId) (k : Core) : (s.setCore c k).groups = s.groups := rfl
@[simp] theorem State.setCore_asides (s : State) (c : CoreId) (k : Core) : (s.setCore c k).asides = s.asides := rfl
@[simp] theorem State.setCore_towers (s : State) (c : CoreId) (k : Core) : (s.setCore c k).towers = s.towers := rfl
@[simp] theorem State.setCore_hub (s : State) (c : CoreId) (k : Core) : (s.setCore c k).hub = s.hub := rfl

/-! ### State.setMe -/

@[simp] theorem State.setMe_now (s : State) (k : Core) : (s.setMe k).now = s.now := rfl
@[simp] theorem State.setMe_agenda (s : State) (k : Core) : (s.setMe k).agenda = s.agenda := rfl
@[simp] theorem State.setMe_actor (s : State) (k : Core) : (s.setMe k).actor = s.actor := rfl
@[simp] theorem State.setMe_engines (s : State) (k : Core) : (s.setMe k).engines = s.engines := rfl
@[simp] theorem State.setMe_clk (s : State) (k : Core) : (s.setMe k).clk = s.clk := rfl
@[simp] theorem State.setMe_freeN (s : State) (k : Core) : (s.setMe k).freeN = s.freeN := rfl
@[simp] theorem State.setMe_mem (s : State) (k : Core) : (s.setMe k).mem = s.mem := rfl
@[simp] theorem State.setMe_poison (s : State) (k : Core) : (s.setMe k).poison = s.poison := rfl
@[simp] theorem State.setMe_lanes (s : State) (k : Core) : (s.setMe k).lanes = s.lanes := rfl
@[simp] theorem State.setMe_badLanes (s : State) (k : Core) : (s.setMe k).badLanes = s.badLanes := rfl
@[simp] theorem State.setMe_sealed (s : State) (k : Core) : (s.setMe k).sealed = s.sealed := rfl
@[simp] theorem State.setMe_migrated (s : State) (k : Core) : (s.setMe k).migrated = s.migrated := rfl
@[simp] theorem State.setMe_clusters (s : State) (k : Core) : (s.setMe k).clusters = s.clusters := rfl
@[simp] theorem State.setMe_groups (s : State) (k : Core) : (s.setMe k).groups = s.groups := rfl
@[simp] theorem State.setMe_asides (s : State) (k : Core) : (s.setMe k).asides = s.asides := rfl
@[simp] theorem State.setMe_towers (s : State) (k : Core) : (s.setMe k).towers = s.towers := rfl
@[simp] theorem State.setMe_hub (s : State) (k : Core) : (s.setMe k).hub = s.hub := rfl

/-! ### State.mapRegs -/

@[simp] theorem State.mapRegs_now (s : State) (f : Regs → Regs) : (s.mapRegs f).now = s.now := rfl
@[simp] theorem State.mapRegs_agenda (s : State) (f : Regs → Regs) : (s.mapRegs f).agenda = s.agenda := rfl
@[simp] theorem State.mapRegs_actor (s : State) (f : Regs → Regs) : (s.mapRegs f).actor = s.actor := rfl
@[simp] theorem State.mapRegs_engines (s : State) (f : Regs → Regs) : (s.mapRegs f).engines = s.engines := rfl
@[simp] theorem State.mapRegs_clk (s : State) (f : Regs → Regs) : (s.mapRegs f).clk = s.clk := rfl
@[simp] theorem State.mapRegs_freeN (s : State) (f : Regs → Regs) : (s.mapRegs f).freeN = s.freeN := rfl
@[simp] theorem State.mapRegs_mem (s : State) (f : Regs → Regs) : (s.mapRegs f).mem = s.mem := rfl
@[simp] theorem State.mapRegs_poison (s : State) (f : Regs → Regs) : (s.mapRegs f).poison = s.poison := rfl
@[simp] theorem State.mapRegs_lanes (s : State) (f : Regs → Regs) : (s.mapRegs f).lanes = s.lanes := rfl
@[simp] theorem State.mapRegs_badLanes (s : State) (f : Regs → Regs) : (s.mapRegs f).badLanes = s.badLanes := rfl
@[simp] theorem State.mapRegs_sealed (s : State) (f : Regs → Regs) : (s.mapRegs f).sealed = s.sealed := rfl
@[simp] theorem State.mapRegs_migrated (s : State) (f : Regs → Regs) : (s.mapRegs f).migrated = s.migrated := rfl
@[simp] theorem State.mapRegs_clusters (s : State) (f : Regs → Regs) : (s.mapRegs f).clusters = s.clusters := rfl
@[simp] theorem State.mapRegs_groups (s : State) (f : Regs → Regs) : (s.mapRegs f).groups = s.groups := rfl
@[simp] theorem State.mapRegs_asides (s : State) (f : Regs → Regs) : (s.mapRegs f).asides = s.asides := rfl
@[simp] theorem State.mapRegs_towers (s : State) (f : Regs → Regs) : (s.mapRegs f).towers = s.towers := rfl
@[simp] theorem State.mapRegs_hub (s : State) (f : Regs → Regs) : (s.mapRegs f).hub = s.hub := rfl

/-! ### State.setTower -/

@[simp] theorem State.setTower_now (s : State) (t : TowerId) (w : Tower) : (s.setTower t w).now = s.now := rfl
@[simp] theorem State.setTower_agenda (s : State) (t : TowerId) (w : Tower) : (s.setTower t w).agenda = s.agenda := rfl
@[simp] theorem State.setTower_actor (s : State) (t : TowerId) (w : Tower) : (s.setTower t w).actor = s.actor := rfl
@[simp] theorem State.setTower_engines (s : State) (t : TowerId) (w : Tower) : (s.setTower t w).engines = s.engines := rfl
@[simp] theorem State.setTower_clk (s : State) (t : TowerId) (w : Tower) : (s.setTower t w).clk = s.clk := rfl
@[simp] theorem State.setTower_freeN (s : State) (t : TowerId) (w : Tower) : (s.setTower t w).freeN = s.freeN := rfl
@[simp] theorem State.setTower_mem (s : State) (t : TowerId) (w : Tower) : (s.setTower t w).mem = s.mem := rfl
@[simp] theorem State.setTower_poison (s : State) (t : TowerId) (w : Tower) : (s.setTower t w).poison = s.poison := rfl
@[simp] theorem State.setTower_lanes (s : State) (t : TowerId) (w : Tower) : (s.setTower t w).lanes = s.lanes := rfl
@[simp] theorem State.setTower_badLanes (s : State) (t : TowerId) (w : Tower) : (s.setTower t w).badLanes = s.badLanes := rfl
@[simp] theorem State.setTower_sealed (s : State) (t : TowerId) (w : Tower) : (s.setTower t w).sealed = s.sealed := rfl
@[simp] theorem State.setTower_migrated (s : State) (t : TowerId) (w : Tower) : (s.setTower t w).migrated = s.migrated := rfl
@[simp] theorem State.setTower_cores (s : State) (t : TowerId) (w : Tower) : (s.setTower t w).cores = s.cores := rfl
@[simp] theorem State.setTower_clusters (s : State) (t : TowerId) (w : Tower) : (s.setTower t w).clusters = s.clusters := rfl
@[simp] theorem State.setTower_groups (s : State) (t : TowerId) (w : Tower) : (s.setTower t w).groups = s.groups := rfl
@[simp] theorem State.setTower_asides (s : State) (t : TowerId) (w : Tower) : (s.setTower t w).asides = s.asides := rfl
@[simp] theorem State.setTower_hub (s : State) (t : TowerId) (w : Tower) : (s.setTower t w).hub = s.hub := rfl

/-! ### State.setWalker -/

@[simp] theorem State.setWalker_now (s : State) (t : TowerId) (k : Walker) : (s.setWalker t k).now = s.now := rfl
@[simp] theorem State.setWalker_agenda (s : State) (t : TowerId) (k : Walker) : (s.setWalker t k).agenda = s.agenda := rfl
@[simp] theorem State.setWalker_actor (s : State) (t : TowerId) (k : Walker) : (s.setWalker t k).actor = s.actor := rfl
@[simp] theorem State.setWalker_engines (s : State) (t : TowerId) (k : Walker) : (s.setWalker t k).engines = s.engines := rfl
@[simp] theorem State.setWalker_clk (s : State) (t : TowerId) (k : Walker) : (s.setWalker t k).clk = s.clk := rfl
@[simp] theorem State.setWalker_freeN (s : State) (t : TowerId) (k : Walker) : (s.setWalker t k).freeN = s.freeN := rfl
@[simp] theorem State.setWalker_mem (s : State) (t : TowerId) (k : Walker) : (s.setWalker t k).mem = s.mem := rfl
@[simp] theorem State.setWalker_poison (s : State) (t : TowerId) (k : Walker) : (s.setWalker t k).poison = s.poison := rfl
@[simp] theorem State.setWalker_lanes (s : State) (t : TowerId) (k : Walker) : (s.setWalker t k).lanes = s.lanes := rfl
@[simp] theorem State.setWalker_badLanes (s : State) (t : TowerId) (k : Walker) : (s.setWalker t k).badLanes = s.badLanes := rfl
@[simp] theorem State.setWalker_sealed (s : State) (t : TowerId) (k : Walker) : (s.setWalker t k).sealed = s.sealed := rfl
@[simp] theorem State.setWalker_migrated (s : State) (t : TowerId) (k : Walker) : (s.setWalker t k).migrated = s.migrated := rfl
@[simp] theorem State.setWalker_cores (s : State) (t : TowerId) (k : Walker) : (s.setWalker t k).cores = s.cores := rfl
@[simp] theorem State.setWalker_clusters (s : State) (t : TowerId) (k : Walker) : (s.setWalker t k).clusters = s.clusters := rfl
@[simp] theorem State.setWalker_groups (s : State) (t : TowerId) (k : Walker) : (s.setWalker t k).groups = s.groups := rfl
@[simp] theorem State.setWalker_asides (s : State) (t : TowerId) (k : Walker) : (s.setWalker t k).asides = s.asides := rfl
@[simp] theorem State.setWalker_hub (s : State) (t : TowerId) (k : Walker) : (s.setWalker t k).hub = s.hub := rfl

/-! ### State.mapTiers -/

@[simp] theorem State.mapTiers_now (s : State) (t : TowerId) (f : Tiers → Tiers) : (s.mapTiers t f).now = s.now := rfl
@[simp] theorem State.mapTiers_agenda (s : State) (t : TowerId) (f : Tiers → Tiers) : (s.mapTiers t f).agenda = s.agenda := rfl
@[simp] theorem State.mapTiers_actor (s : State) (t : TowerId) (f : Tiers → Tiers) : (s.mapTiers t f).actor = s.actor := rfl
@[simp] theorem State.mapTiers_engines (s : State) (t : TowerId) (f : Tiers → Tiers) : (s.mapTiers t f).engines = s.engines := rfl
@[simp] theorem State.mapTiers_clk (s : State) (t : TowerId) (f : Tiers → Tiers) : (s.mapTiers t f).clk = s.clk := rfl
@[simp] theorem State.mapTiers_freeN (s : State) (t : TowerId) (f : Tiers → Tiers) : (s.mapTiers t f).freeN = s.freeN := rfl
@[simp] theorem State.mapTiers_mem (s : State) (t : TowerId) (f : Tiers → Tiers) : (s.mapTiers t f).mem = s.mem := rfl
@[simp] theorem State.mapTiers_poison (s : State) (t : TowerId) (f : Tiers → Tiers) : (s.mapTiers t f).poison = s.poison := rfl
@[simp] theorem State.mapTiers_lanes (s : State) (t : TowerId) (f : Tiers → Tiers) : (s.mapTiers t f).lanes = s.lanes := rfl
@[simp] theorem State.mapTiers_badLanes (s : State) (t : TowerId) (f : Tiers → Tiers) : (s.mapTiers t f).badLanes = s.badLanes := rfl
@[simp] theorem State.mapTiers_sealed (s : State) (t : TowerId) (f : Tiers → Tiers) : (s.mapTiers t f).sealed = s.sealed := rfl
@[simp] theorem State.mapTiers_migrated (s : State) (t : TowerId) (f : Tiers → Tiers) : (s.mapTiers t f).migrated = s.migrated := rfl
@[simp] theorem State.mapTiers_cores (s : State) (t : TowerId) (f : Tiers → Tiers) : (s.mapTiers t f).cores = s.cores := rfl
@[simp] theorem State.mapTiers_clusters (s : State) (t : TowerId) (f : Tiers → Tiers) : (s.mapTiers t f).clusters = s.clusters := rfl
@[simp] theorem State.mapTiers_groups (s : State) (t : TowerId) (f : Tiers → Tiers) : (s.mapTiers t f).groups = s.groups := rfl
@[simp] theorem State.mapTiers_asides (s : State) (t : TowerId) (f : Tiers → Tiers) : (s.mapTiers t f).asides = s.asides := rfl
@[simp] theorem State.mapTiers_hub (s : State) (t : TowerId) (f : Tiers → Tiers) : (s.mapTiers t f).hub = s.hub := rfl

/-! ### State.setCluster -/

@[simp] theorem State.setCluster_now (s : State) (x : ClusterId) (k : Cluster) : (s.setCluster x k).now = s.now := rfl
@[simp] theorem State.setCluster_agenda (s : State) (x : ClusterId) (k : Cluster) : (s.setCluster x k).agenda = s.agenda := rfl
@[simp] theorem State.setCluster_actor (s : State) (x : ClusterId) (k : Cluster) : (s.setCluster x k).actor = s.actor := rfl
@[simp] theorem State.setCluster_engines (s : State) (x : ClusterId) (k : Cluster) : (s.setCluster x k).engines = s.engines := rfl
@[simp] theorem State.setCluster_clk (s : State) (x : ClusterId) (k : Cluster) : (s.setCluster x k).clk = s.clk := rfl
@[simp] theorem State.setCluster_freeN (s : State) (x : ClusterId) (k : Cluster) : (s.setCluster x k).freeN = s.freeN := rfl
@[simp] theorem State.setCluster_mem (s : State) (x : ClusterId) (k : Cluster) : (s.setCluster x k).mem = s.mem := rfl
@[simp] theorem State.setCluster_poison (s : State) (x : ClusterId) (k : Cluster) : (s.setCluster x k).poison = s.poison := rfl
@[simp] theorem State.setCluster_lanes (s : State) (x : ClusterId) (k : Cluster) : (s.setCluster x k).lanes = s.lanes := rfl
@[simp] theorem State.setCluster_badLanes (s : State) (x : ClusterId) (k : Cluster) : (s.setCluster x k).badLanes = s.badLanes := rfl
@[simp] theorem State.setCluster_sealed (s : State) (x : ClusterId) (k : Cluster) : (s.setCluster x k).sealed = s.sealed := rfl
@[simp] theorem State.setCluster_migrated (s : State) (x : ClusterId) (k : Cluster) : (s.setCluster x k).migrated = s.migrated := rfl
@[simp] theorem State.setCluster_cores (s : State) (x : ClusterId) (k : Cluster) : (s.setCluster x k).cores = s.cores := rfl
@[simp] theorem State.setCluster_groups (s : State) (x : ClusterId) (k : Cluster) : (s.setCluster x k).groups = s.groups := rfl
@[simp] theorem State.setCluster_asides (s : State) (x : ClusterId) (k : Cluster) : (s.setCluster x k).asides = s.asides := rfl
@[simp] theorem State.setCluster_towers (s : State) (x : ClusterId) (k : Cluster) : (s.setCluster x k).towers = s.towers := rfl
@[simp] theorem State.setCluster_hub (s : State) (x : ClusterId) (k : Cluster) : (s.setCluster x k).hub = s.hub := rfl

/-! ### State.mapHub -/

@[simp] theorem State.mapHub_now (s : State) (f : Hub → Hub) : (s.mapHub f).now = s.now := rfl
@[simp] theorem State.mapHub_agenda (s : State) (f : Hub → Hub) : (s.mapHub f).agenda = s.agenda := rfl
@[simp] theorem State.mapHub_actor (s : State) (f : Hub → Hub) : (s.mapHub f).actor = s.actor := rfl
@[simp] theorem State.mapHub_engines (s : State) (f : Hub → Hub) : (s.mapHub f).engines = s.engines := rfl
@[simp] theorem State.mapHub_clk (s : State) (f : Hub → Hub) : (s.mapHub f).clk = s.clk := rfl
@[simp] theorem State.mapHub_freeN (s : State) (f : Hub → Hub) : (s.mapHub f).freeN = s.freeN := rfl
@[simp] theorem State.mapHub_mem (s : State) (f : Hub → Hub) : (s.mapHub f).mem = s.mem := rfl
@[simp] theorem State.mapHub_poison (s : State) (f : Hub → Hub) : (s.mapHub f).poison = s.poison := rfl
@[simp] theorem State.mapHub_lanes (s : State) (f : Hub → Hub) : (s.mapHub f).lanes = s.lanes := rfl
@[simp] theorem State.mapHub_badLanes (s : State) (f : Hub → Hub) : (s.mapHub f).badLanes = s.badLanes := rfl
@[simp] theorem State.mapHub_sealed (s : State) (f : Hub → Hub) : (s.mapHub f).sealed = s.sealed := rfl
@[simp] theorem State.mapHub_migrated (s : State) (f : Hub → Hub) : (s.mapHub f).migrated = s.migrated := rfl
@[simp] theorem State.mapHub_cores (s : State) (f : Hub → Hub) : (s.mapHub f).cores = s.cores := rfl
@[simp] theorem State.mapHub_clusters (s : State) (f : Hub → Hub) : (s.mapHub f).clusters = s.clusters := rfl
@[simp] theorem State.mapHub_groups (s : State) (f : Hub → Hub) : (s.mapHub f).groups = s.groups := rfl
@[simp] theorem State.mapHub_asides (s : State) (f : Hub → Hub) : (s.mapHub f).asides = s.asides := rfl
@[simp] theorem State.mapHub_towers (s : State) (f : Hub → Hub) : (s.mapHub f).towers = s.towers := rfl

/-! ### State.setPort -/

@[simp] theorem State.setPort_now (s : State) (x : Nat) (p : Port) : (s.setPort x p).now = s.now := rfl
@[simp] theorem State.setPort_agenda (s : State) (x : Nat) (p : Port) : (s.setPort x p).agenda = s.agenda := rfl
@[simp] theorem State.setPort_actor (s : State) (x : Nat) (p : Port) : (s.setPort x p).actor = s.actor := rfl
@[simp] theorem State.setPort_engines (s : State) (x : Nat) (p : Port) : (s.setPort x p).engines = s.engines := rfl
@[simp] theorem State.setPort_clk (s : State) (x : Nat) (p : Port) : (s.setPort x p).clk = s.clk := rfl
@[simp] theorem State.setPort_freeN (s : State) (x : Nat) (p : Port) : (s.setPort x p).freeN = s.freeN := rfl
@[simp] theorem State.setPort_mem (s : State) (x : Nat) (p : Port) : (s.setPort x p).mem = s.mem := rfl
@[simp] theorem State.setPort_poison (s : State) (x : Nat) (p : Port) : (s.setPort x p).poison = s.poison := rfl
@[simp] theorem State.setPort_lanes (s : State) (x : Nat) (p : Port) : (s.setPort x p).lanes = s.lanes := rfl
@[simp] theorem State.setPort_badLanes (s : State) (x : Nat) (p : Port) : (s.setPort x p).badLanes = s.badLanes := rfl
@[simp] theorem State.setPort_sealed (s : State) (x : Nat) (p : Port) : (s.setPort x p).sealed = s.sealed := rfl
@[simp] theorem State.setPort_migrated (s : State) (x : Nat) (p : Port) : (s.setPort x p).migrated = s.migrated := rfl
@[simp] theorem State.setPort_cores (s : State) (x : Nat) (p : Port) : (s.setPort x p).cores = s.cores := rfl
@[simp] theorem State.setPort_clusters (s : State) (x : Nat) (p : Port) : (s.setPort x p).clusters = s.clusters := rfl
@[simp] theorem State.setPort_groups (s : State) (x : Nat) (p : Port) : (s.setPort x p).groups = s.groups := rfl
@[simp] theorem State.setPort_asides (s : State) (x : Nat) (p : Port) : (s.setPort x p).asides = s.asides := rfl
@[simp] theorem State.setPort_towers (s : State) (x : Nat) (p : Port) : (s.setPort x p).towers = s.towers := rfl

/-! ### State.setReady -/

@[simp] theorem State.setReady_now (s : State) (n : Nat) (b : Bool) : (s.setReady n b).now = s.now := rfl
@[simp] theorem State.setReady_agenda (s : State) (n : Nat) (b : Bool) : (s.setReady n b).agenda = s.agenda := rfl
@[simp] theorem State.setReady_actor (s : State) (n : Nat) (b : Bool) : (s.setReady n b).actor = s.actor := rfl
@[simp] theorem State.setReady_engines (s : State) (n : Nat) (b : Bool) : (s.setReady n b).engines = s.engines := rfl
@[simp] theorem State.setReady_clk (s : State) (n : Nat) (b : Bool) : (s.setReady n b).clk = s.clk := rfl
@[simp] theorem State.setReady_freeN (s : State) (n : Nat) (b : Bool) : (s.setReady n b).freeN = s.freeN := rfl
@[simp] theorem State.setReady_mem (s : State) (n : Nat) (b : Bool) : (s.setReady n b).mem = s.mem := rfl
@[simp] theorem State.setReady_poison (s : State) (n : Nat) (b : Bool) : (s.setReady n b).poison = s.poison := rfl
@[simp] theorem State.setReady_lanes (s : State) (n : Nat) (b : Bool) : (s.setReady n b).lanes = s.lanes := rfl
@[simp] theorem State.setReady_badLanes (s : State) (n : Nat) (b : Bool) : (s.setReady n b).badLanes = s.badLanes := rfl
@[simp] theorem State.setReady_sealed (s : State) (n : Nat) (b : Bool) : (s.setReady n b).sealed = s.sealed := rfl
@[simp] theorem State.setReady_migrated (s : State) (n : Nat) (b : Bool) : (s.setReady n b).migrated = s.migrated := rfl
@[simp] theorem State.setReady_cores (s : State) (n : Nat) (b : Bool) : (s.setReady n b).cores = s.cores := rfl
@[simp] theorem State.setReady_clusters (s : State) (n : Nat) (b : Bool) : (s.setReady n b).clusters = s.clusters := rfl
@[simp] theorem State.setReady_groups (s : State) (n : Nat) (b : Bool) : (s.setReady n b).groups = s.groups := rfl
@[simp] theorem State.setReady_asides (s : State) (n : Nat) (b : Bool) : (s.setReady n b).asides = s.asides := rfl
@[simp] theorem State.setReady_towers (s : State) (n : Nat) (b : Bool) : (s.setReady n b).towers = s.towers := rfl

/-! ### State.due -/

@[simp] theorem State.due_now (s : State) (i : Instr) (o : Occasion) : (s.due i o).now = s.now := rfl
@[simp] theorem State.due_actor (s : State) (i : Instr) (o : Occasion) : (s.due i o).actor = s.actor := rfl
@[simp] theorem State.due_engines (s : State) (i : Instr) (o : Occasion) : (s.due i o).engines = s.engines := rfl
@[simp] theorem State.due_clk (s : State) (i : Instr) (o : Occasion) : (s.due i o).clk = s.clk := rfl
@[simp] theorem State.due_freeN (s : State) (i : Instr) (o : Occasion) : (s.due i o).freeN = s.freeN := rfl
@[simp] theorem State.due_mem (s : State) (i : Instr) (o : Occasion) : (s.due i o).mem = s.mem := rfl
@[simp] theorem State.due_poison (s : State) (i : Instr) (o : Occasion) : (s.due i o).poison = s.poison := rfl
@[simp] theorem State.due_lanes (s : State) (i : Instr) (o : Occasion) : (s.due i o).lanes = s.lanes := rfl
@[simp] theorem State.due_badLanes (s : State) (i : Instr) (o : Occasion) : (s.due i o).badLanes = s.badLanes := rfl
@[simp] theorem State.due_sealed (s : State) (i : Instr) (o : Occasion) : (s.due i o).sealed = s.sealed := rfl
@[simp] theorem State.due_migrated (s : State) (i : Instr) (o : Occasion) : (s.due i o).migrated = s.migrated := rfl
@[simp] theorem State.due_cores (s : State) (i : Instr) (o : Occasion) : (s.due i o).cores = s.cores := rfl
@[simp] theorem State.due_clusters (s : State) (i : Instr) (o : Occasion) : (s.due i o).clusters = s.clusters := rfl
@[simp] theorem State.due_groups (s : State) (i : Instr) (o : Occasion) : (s.due i o).groups = s.groups := rfl
@[simp] theorem State.due_asides (s : State) (i : Instr) (o : Occasion) : (s.due i o).asides = s.asides := rfl
@[simp] theorem State.due_towers (s : State) (i : Instr) (o : Occasion) : (s.due i o).towers = s.towers := rfl
@[simp] theorem State.due_hub (s : State) (i : Instr) (o : Occasion) : (s.due i o).hub = s.hub := rfl

/-! ### State.dueFirst -/

@[simp] theorem State.dueFirst_now (s : State) (i : Instr) (o : Occasion) : (s.dueFirst i o).now = s.now := rfl
@[simp] theorem State.dueFirst_actor (s : State) (i : Instr) (o : Occasion) : (s.dueFirst i o).actor = s.actor := rfl
@[simp] theorem State.dueFirst_engines (s : State) (i : Instr) (o : Occasion) : (s.dueFirst i o).engines = s.engines := rfl
@[simp] theorem State.dueFirst_clk (s : State) (i : Instr) (o : Occasion) : (s.dueFirst i o).clk = s.clk := rfl
@[simp] theorem State.dueFirst_freeN (s : State) (i : Instr) (o : Occasion) : (s.dueFirst i o).freeN = s.freeN := rfl
@[simp] theorem State.dueFirst_mem (s : State) (i : Instr) (o : Occasion) : (s.dueFirst i o).mem = s.mem := rfl
@[simp] theorem State.dueFirst_poison (s : State) (i : Instr) (o : Occasion) : (s.dueFirst i o).poison = s.poison := rfl
@[simp] theorem State.dueFirst_lanes (s : State) (i : Instr) (o : Occasion) : (s.dueFirst i o).lanes = s.lanes := rfl
@[simp] theorem State.dueFirst_badLanes (s : State) (i : Instr) (o : Occasion) : (s.dueFirst i o).badLanes = s.badLanes := rfl
@[simp] theorem State.dueFirst_sealed (s : State) (i : Instr) (o : Occasion) : (s.dueFirst i o).sealed = s.sealed := rfl
@[simp] theorem State.dueFirst_migrated (s : State) (i : Instr) (o : Occasion) : (s.dueFirst i o).migrated = s.migrated := rfl
@[simp] theorem State.dueFirst_cores (s : State) (i : Instr) (o : Occasion) : (s.dueFirst i o).cores = s.cores := rfl
@[simp] theorem State.dueFirst_clusters (s : State) (i : Instr) (o : Occasion) : (s.dueFirst i o).clusters = s.clusters := rfl
@[simp] theorem State.dueFirst_groups (s : State) (i : Instr) (o : Occasion) : (s.dueFirst i o).groups = s.groups := rfl
@[simp] theorem State.dueFirst_asides (s : State) (i : Instr) (o : Occasion) : (s.dueFirst i o).asides = s.asides := rfl
@[simp] theorem State.dueFirst_towers (s : State) (i : Instr) (o : Occasion) : (s.dueFirst i o).towers = s.towers := rfl
@[simp] theorem State.dueFirst_hub (s : State) (i : Instr) (o : Occasion) : (s.dueFirst i o).hub = s.hub := rfl

/-! ### State.pass -/

@[simp] theorem State.pass_now (s : State) (n : Nat) : (s.pass n).now = s.now := rfl
@[simp] theorem State.pass_agenda (s : State) (n : Nat) : (s.pass n).agenda = s.agenda := rfl
@[simp] theorem State.pass_actor (s : State) (n : Nat) : (s.pass n).actor = s.actor := rfl
@[simp] theorem State.pass_engines (s : State) (n : Nat) : (s.pass n).engines = s.engines := rfl
@[simp] theorem State.pass_freeN (s : State) (n : Nat) : (s.pass n).freeN = s.freeN := rfl
@[simp] theorem State.pass_mem (s : State) (n : Nat) : (s.pass n).mem = s.mem := rfl
@[simp] theorem State.pass_poison (s : State) (n : Nat) : (s.pass n).poison = s.poison := rfl
@[simp] theorem State.pass_lanes (s : State) (n : Nat) : (s.pass n).lanes = s.lanes := rfl
@[simp] theorem State.pass_badLanes (s : State) (n : Nat) : (s.pass n).badLanes = s.badLanes := rfl
@[simp] theorem State.pass_sealed (s : State) (n : Nat) : (s.pass n).sealed = s.sealed := rfl
@[simp] theorem State.pass_migrated (s : State) (n : Nat) : (s.pass n).migrated = s.migrated := rfl
@[simp] theorem State.pass_cores (s : State) (n : Nat) : (s.pass n).cores = s.cores := rfl
@[simp] theorem State.pass_clusters (s : State) (n : Nat) : (s.pass n).clusters = s.clusters := rfl
@[simp] theorem State.pass_groups (s : State) (n : Nat) : (s.pass n).groups = s.groups := rfl
@[simp] theorem State.pass_asides (s : State) (n : Nat) : (s.pass n).asides = s.asides := rfl
@[simp] theorem State.pass_towers (s : State) (n : Nat) : (s.pass n).towers = s.towers := rfl

/-! ### Writing a byte of memory -/

@[simp] theorem writeByte_now (s : State) (key : Nat) (b : Byte) : (writeByte s key b).now = s.now := rfl
@[simp] theorem writeByte_agenda (s : State) (key : Nat) (b : Byte) : (writeByte s key b).agenda = s.agenda := rfl
@[simp] theorem writeByte_actor (s : State) (key : Nat) (b : Byte) : (writeByte s key b).actor = s.actor := rfl
@[simp] theorem writeByte_engines (s : State) (key : Nat) (b : Byte) : (writeByte s key b).engines = s.engines := rfl
@[simp] theorem writeByte_clk (s : State) (key : Nat) (b : Byte) : (writeByte s key b).clk = s.clk := rfl
@[simp] theorem writeByte_freeN (s : State) (key : Nat) (b : Byte) : (writeByte s key b).freeN = s.freeN := rfl
@[simp] theorem writeByte_poison (s : State) (key : Nat) (b : Byte) : (writeByte s key b).poison = s.poison := rfl
@[simp] theorem writeByte_lanes (s : State) (key : Nat) (b : Byte) : (writeByte s key b).lanes = s.lanes := rfl
@[simp] theorem writeByte_badLanes (s : State) (key : Nat) (b : Byte) : (writeByte s key b).badLanes = s.badLanes := rfl
@[simp] theorem writeByte_sealed (s : State) (key : Nat) (b : Byte) : (writeByte s key b).sealed = s.sealed := rfl
@[simp] theorem writeByte_migrated (s : State) (key : Nat) (b : Byte) : (writeByte s key b).migrated = s.migrated := rfl
@[simp] theorem writeByte_cores (s : State) (key : Nat) (b : Byte) : (writeByte s key b).cores = s.cores := rfl
@[simp] theorem writeByte_clusters (s : State) (key : Nat) (b : Byte) : (writeByte s key b).clusters = s.clusters := rfl
@[simp] theorem writeByte_groups (s : State) (key : Nat) (b : Byte) : (writeByte s key b).groups = s.groups := rfl
@[simp] theorem writeByte_asides (s : State) (key : Nat) (b : Byte) : (writeByte s key b).asides = s.asides := rfl
@[simp] theorem writeByte_towers (s : State) (key : Nat) (b : Byte) : (writeByte s key b).towers = s.towers := rfl
@[simp] theorem writeByte_hub (s : State) (key : Nat) (b : Byte) : (writeByte s key b).hub = s.hub := rfl

/-! ### What the updates put in their field -/

theorem State.setMe_eq (s : State) (k : Core) : s.setMe k = s.setCore s.now.core k := rfl
@[simp] theorem State.mapHub_hub (s : State) (f : Hub → Hub) : (s.mapHub f).hub = f s.hub := rfl
@[simp] theorem State.due_agenda (s : State) (i : Instr) (o : Occasion) : (s.due i o).agenda = s.agenda ++ [(i, o)] := rfl
@[simp] theorem State.dueFirst_agenda (s : State) (i : Instr) (o : Occasion) :
    (s.dueFirst i o).agenda = (i, o) :: s.agenda := rfl
@[simp] theorem State.pass_clk (s : State) (n : Nat) : (s.pass n).clk = s.clk + n := rfl
@[simp] theorem State.pass_podTime (s : State) (n : Nat) :
    (s.pass n).hub.podTime = s.hub.podTime + BitVec.ofNat 64 (n - (s.hub.omitNext && 0 < n).toNat) := rfl

/-! ### Reading back -/

@[simp] theorem State.core_setCore (s : State) (c : CoreId) (k : Core) : (s.setCore c k).core c = k :=
  Vector.getElem_set_self c.isLt

theorem State.core_setCore_ne (s : State) (c d : CoreId) (k : Core) (h : c ≠ d) : (s.setCore c k).core d = s.core d :=
  Vector.getElem_set_ne c.isLt d.isLt fun e => h (Fin.ext e)

@[simp] theorem State.me_setCore (s : State) (k : Core) : (s.setCore s.now.core k).me = k := s.core_setCore s.now.core k
@[simp] theorem State.me_setMe (s : State) (k : Core) : (s.setMe k).me = k := s.core_setCore s.now.core k

@[simp] theorem State.tower_setTower (s : State) (t : TowerId) (w : Tower) : (s.setTower t w).tower t = w :=
  Vector.getElem_set_self t.isLt

theorem State.tower_setTower_ne (s : State) (t u : TowerId) (w : Tower) (h : t ≠ u) :
    (s.setTower t w).tower u = s.tower u :=
  Vector.getElem_set_ne t.isLt u.isLt fun e => h (Fin.ext e)

@[simp] theorem State.cluster_setCluster (s : State) (x : ClusterId) (k : Cluster) :
    (s.setCluster x k).cluster x = k :=
  Vector.getElem_set_self x.isLt

@[simp] theorem State.core_setTower (s : State) (t : TowerId) (w : Tower) (c : CoreId) :
    (s.setTower t w).core c = s.core c := rfl
@[simp] theorem State.core_setCluster (s : State) (x : ClusterId) (k : Cluster) (c : CoreId) :
    (s.setCluster x k).core c = s.core c := rfl
@[simp] theorem State.tower_setCore (s : State) (c : CoreId) (k : Core) (t : TowerId) :
    (s.setCore c k).tower t = s.tower t := rfl
@[simp] theorem State.core_due (s : State) (i : Instr) (o : Occasion) (c : CoreId) : (s.due i o).core c = s.core c := rfl
@[simp] theorem State.tower_due (s : State) (i : Instr) (o : Occasion) (t : TowerId) :
    (s.due i o).tower t = s.tower t := rfl
@[simp] theorem State.core_writeByte (s : State) (key : Nat) (b : Byte) (c : CoreId) :
    (writeByte s key b).core c = s.core c := rfl
@[simp] theorem State.tower_writeByte (s : State) (key : Nat) (b : Byte) (t : TowerId) :
    (writeByte s key b).tower t = s.tower t := rfl

end Sys2Proof.Machine
end

