-- ==== Sys2Proof/Laws/Memory.lean ====
section
/-! SUPPORT. The sparse maps and the memory: reading after a write, the canonical form, and that every operation on memory
keeps it. -/

namespace Sys2Proof.Machine

/-! ### Sparse maps -/

theorem wfAbove_cons {α : Type} [DecidableEq α] (dflt : α) (b k : Nat) (v : α) (m : SMap α) :
    wfAbove dflt b ((k, v) :: m) = true ↔ b ≤ k ∧ v ≠ dflt ∧ wfAbove dflt (k + 1) m = true := by
  simp [wfAbove, and_assoc]

/-- A lower bound may be taken. -/
theorem wfAbove_mono {α : Type} [DecidableEq α] (dflt : α) {b c : Nat} (h : b ≤ c) {m : SMap α}
    (w : wfAbove dflt c m = true) : wfAbove dflt b m = true := by
  cases m with
  | nil => rfl
  | cons e m =>
    obtain ⟨k, v⟩ := e
    rw [wfAbove_cons] at w ⊢
    exact ⟨Nat.le_trans h w.1, w.2⟩

/-- A write keeps the canonical form. -/
theorem wfAbove_sset {α : Type} [DecidableEq α] (dflt : α) (k : Nat) (v : α) :
    ∀ (b : Nat) (m : SMap α), wfAbove dflt b m = true → b ≤ k → wfAbove dflt b (sset dflt m k v) = true := by
  intro b m
  induction m generalizing b with
  | nil =>
    intro _ hb
    by_cases hv : v = dflt <;> simp [sset, hv, wfAbove, hb]
  | cons e m ih =>
    obtain ⟨k', v'⟩ := e
    intro w hb
    obtain ⟨h1, h2, h3⟩ := (wfAbove_cons dflt b k' v' m).1 w
    unfold sset
    by_cases hlt : k < k'
    · rw [if_pos hlt]
      by_cases hv : v = dflt
      · rwa [if_pos hv]
      · rw [if_neg hv, wfAbove_cons, wfAbove_cons]
        exact ⟨hb, hv, hlt, h2, h3⟩
    · rw [if_neg hlt]
      by_cases he : k = k'
      · rw [if_pos he]
        by_cases hv : v = dflt
        · rw [if_pos hv]
          exact wfAbove_mono dflt (by omega) h3
        · rw [if_neg hv, wfAbove_cons]
          exact ⟨hb, hv, he ▸ h3⟩
      · rw [if_neg he, wfAbove_cons]
        exact ⟨h1, h2, ih (k' + 1) h3 (by omega)⟩

theorem swf_sset {α : Type} [DecidableEq α] (dflt : α) (k : Nat) (v : α) (m : SMap α) (w : swf dflt m = true) :
    swf dflt (sset dflt m k v) = true := wfAbove_sset dflt k v 0 m w (Nat.zero_le k)

/-- Below its keys a map reads as dflt. -/
theorem sget_below {α : Type} [DecidableEq α] (dflt : α) {b k : Nat} {m : SMap α} (w : wfAbove dflt b m = true)
    (h : k < b) : sget dflt m k = dflt := by
  cases m with
  | nil => rfl
  | cons e m =>
    obtain ⟨k', v⟩ := e
    have hk := ((wfAbove_cons dflt b k' v m).1 w).1
    have h1 : k ≠ k' := by omega
    have h2 : k < k' := by omega
    simp [sget, h1, h2]

/-- Reading what has been written. -/
theorem sget_sset_same {α : Type} [DecidableEq α] (dflt : α) (k : Nat) (v : α) :
    ∀ (b : Nat) (m : SMap α), wfAbove dflt b m = true → sget dflt (sset dflt m k v) k = v := by
  intro b m
  induction m generalizing b with
  | nil =>
    intro _
    by_cases hv : v = dflt <;> simp [sset, sget, hv]
  | cons e m ih =>
    obtain ⟨k', v'⟩ := e
    intro w
    obtain ⟨h1, h2, h3⟩ := (wfAbove_cons dflt b k' v' m).1 w
    unfold sset
    by_cases hlt : k < k'
    · by_cases hv : v = dflt
      · have : k ≠ k' := by omega
        simp [hlt, hv, sget, this]
      · simp [hlt, hv, sget]
    · by_cases he : k = k'
      · by_cases hv : v = dflt
        · rw [if_neg hlt, if_pos he, if_pos hv, hv]
          exact sget_below dflt h3 (by omega)
        · rw [if_neg hlt, if_pos he, if_neg hv]
          simp [sget]
      · rw [if_neg hlt, if_neg he]
        simp only [sget, if_neg he, if_neg hlt]
        exact ih _ h3

/-- Every other key reads as before. -/
theorem sget_sset_other {α : Type} [DecidableEq α] (dflt : α) (k j : Nat) (v : α) (hj : j ≠ k) :
    ∀ (b : Nat) (m : SMap α), wfAbove dflt b m = true → sget dflt (sset dflt m k v) j = sget dflt m j := by
  intro b m
  induction m generalizing b with
  | nil =>
    intro _
    by_cases hv : v = dflt <;> simp [sset, sget, hv, hj]
  | cons e m ih =>
    obtain ⟨k', v'⟩ := e
    intro w
    obtain ⟨h1, h2, h3⟩ := (wfAbove_cons dflt b k' v' m).1 w
    unfold sset
    by_cases hlt : k < k'
    · by_cases hv : v = dflt
      · simp [hlt, hv]
      · rw [if_pos hlt, if_neg hv]
        by_cases hb : j < k
        · have a1 : j ≠ k' := by omega
          have a2 : j < k' := by omega
          simp [sget, hj, hb, a1, a2]
        · simp [sget, hj, hb]
    · by_cases he : k = k'
      · subst he
        by_cases hv : v = dflt
        · rw [if_neg hlt, if_pos rfl, if_pos hv]
          by_cases hb : j < k
          · simp only [sget, if_neg hj, if_pos hb]
            exact sget_below dflt h3 (by omega)
          · simp only [sget, if_neg hj, if_neg hb]
        · rw [if_neg hlt, if_pos rfl, if_neg hv]
          simp [sget, hj]
      · rw [if_neg hlt, if_neg he]
        simp only [sget]
        rw [ih _ h3]

/-- Equal readings make equal maps. -/
theorem swf_ext {α : Type} [DecidableEq α] (dflt : α) :
    ∀ (b : Nat) (m n : SMap α), wfAbove dflt b m = true → wfAbove dflt b n = true →
      (∀ k, sget dflt m k = sget dflt n k) → m = n := by
  intro b m
  induction m generalizing b with
  | nil =>
    intro n _ hn h
    cases n with
    | nil => rfl
    | cons e n =>
      obtain ⟨k, v⟩ := e
      have := ((wfAbove_cons dflt b k v n).1 hn).2.1
      have h2 := h k
      simp [sget] at h2
      exact absurd h2.symm this
  | cons e m ih =>
    obtain ⟨k, v⟩ := e
    intro n hm hn h
    obtain ⟨a1, a2, a3⟩ := (wfAbove_cons dflt b k v m).1 hm
    cases n with
    | nil =>
      have h2 := h k
      simp [sget] at h2
      exact absurd h2 a2
    | cons e' n =>
      obtain ⟨k', v'⟩ := e'
      obtain ⟨b1, b2, b3⟩ := (wfAbove_cons dflt b k' v' n).1 hn
      have hk : k = k' := by
        rcases Nat.lt_trichotomy k k' with c | c | c
        · have h2 := h k
          have c' : k ≠ k' := by omega
          simp [sget, c', c] at h2
          exact absurd h2 a2
        · exact c
        · have h2 := h k'
          have c' : k' ≠ k := by omega
          simp [sget, c', c] at h2
          exact absurd h2.symm b2
      subst hk
      have hv : v = v' := by have h2 := h k; simpa [sget] using h2
      subst hv
      have : m = n := ih (k + 1) n a3 b3 fun j => by
        have h2 := h j
        by_cases c : j = k
        · rw [c, sget_below dflt a3 (by omega), sget_below dflt b3 (by omega)]
        · by_cases d : j < k
          · rw [sget_below dflt a3 (by omega), sget_below dflt b3 (by omega)]
          · simpa [sget, c, d] using h2
      rw [this]

/-! ### Bytes -/

theorem readByte_writeByte_same (s : State) (key : Nat) (b : Byte) (w : Memory.wf s.mem = true) :
    readByte (writeByte s key b) key = b := sget_sset_same emptyByte key b 0 s.mem w

theorem readByte_writeByte_other (s : State) (key j : Nat) (b : Byte) (h : j ≠ key) (w : Memory.wf s.mem = true) :
    readByte (writeByte s key b) j = readByte s j := sget_sset_other emptyByte key j b h 0 s.mem w

/-- A write of one byte keeps the canonical form. -/
@[simp] theorem writeByte_wf (s : State) (key : Nat) (b : Byte) (w : Memory.wf s.mem = true) :
    Memory.wf (writeByte s key b).mem = true := swf_sset emptyByte key b s.mem w

/-! ### Repetition keeps what each step keeps -/

theorem upTo_keeps {α : Type} (P : α → Prop) (f : Nat → α → α) (h : ∀ i a, P a → P (f i a)) :
    ∀ (n : Nat) (a : α), P a → P (upTo n f a) := by
  intro n
  induction n with
  | zero => intro a ha; exact ha
  | succ n ih => intro a ha; exact h _ _ (ih a ha)

theorem foldl_keeps {α β : Type} (P : α → Prop) (f : α → β → α) (h : ∀ a b, P a → P (f a b)) :
    ∀ (l : List β) (a : α), P a → P (l.foldl f a) := by
  intro l
  induction l with
  | nil => intro a ha; exact ha
  | cons b l ih => intro a ha; exact ih _ (h a b ha)

/-! ### Runs of bytes -/

@[simp] theorem writeBytesRaw_wf (bs : List Byte) (s : State) (key : Nat) (w : Memory.wf s.mem = true) :
    Memory.wf (writeBytesRaw s key bs).mem = true := by
  induction bs generalizing s key with
  | nil => exact w
  | cons b bs ih => exact ih _ _ (writeByte_wf s key b w)

@[simp] theorem clearPoison_mem (s : State) (key n : Nat) : (clearPoison s key n).mem = s.mem := by
  unfold clearPoison; dsimp only; split <;> rfl

@[simp] theorem poisonRange_mem (s : State) (key n : Nat) (c : Code) : (poisonRange s key n c).mem = s.mem := rfl

/-- A write of n bytes keeps the canonical form. -/
@[simp] theorem writeBytes_wf (s : State) (key : Nat) (bs : List Byte) (w : Memory.wf s.mem = true) :
    Memory.wf (writeBytes s key bs).mem = true := by simp [writeBytes, w]

@[simp] theorem writeNat_wf (s : State) (key n v : Nat) (w : Memory.wf s.mem = true) :
    Memory.wf (writeNat s key n v).mem = true := writeBytes_wf s key _ w

@[simp] theorem writeWord_wf (s : State) (key : Nat) (v : Word) (w : Memory.wf s.mem = true) :
    Memory.wf (writeWord s key v).mem = true := writeNat_wf s key 8 _ w

/-- A byte outside the bytes written reads as before. -/
theorem readByte_writeBytesRaw_other (bs : List Byte) (s : State) (key j : Nat) (w : Memory.wf s.mem = true)
    (h : j < key ∨ key + bs.length ≤ j) : readByte (writeBytesRaw s key bs) j = readByte s j := by
  induction bs generalizing s key with
  | nil => rfl
  | cons b bs ih =>
    simp only [List.length_cons] at h
    rw [writeBytesRaw, ih _ _ (writeByte_wf s key b w) (by omega), readByte_writeByte_other s key j b (by omega) w]

theorem readByte_clearPoison (s : State) (key n j : Nat) : readByte (clearPoison s key n) j = readByte s j := by
  simp [readByte]

theorem readByte_writeBytes_other (s : State) (key j : Nat) (bs : List Byte) (w : Memory.wf s.mem = true)
    (h : j < key ∨ key + bs.length ≤ j) : readByte (writeBytes s key bs) j = readByte s j := by
  rw [writeBytes, readByte_clearPoison, readByte_writeBytesRaw_other bs s key j w h]

/-- A byte inside the bytes written reads as written. -/
theorem readByte_writeBytesRaw_same (bs : List Byte) (s : State) (key i : Nat) (w : Memory.wf s.mem = true)
    (h : i < bs.length) : readByte (writeBytesRaw s key bs) (key + i) = bs[i] := by
  induction bs generalizing s key i with
  | nil => simp at h
  | cons b bs ih =>
    cases i with
    | zero =>
      rw [writeBytesRaw, readByte_writeBytesRaw_other bs _ _ _ (writeByte_wf s key b w) (by omega)]
      exact readByte_writeByte_same s key b w
    | succ i =>
      have h' : i < bs.length := by simpa using h
      have := ih (writeByte s key b) (key + 1) i (writeByte_wf s key b w) h'
      rw [writeBytesRaw, show key + (i + 1) = key + 1 + i by omega, this]
      rfl

theorem readByte_writeBytes_same (s : State) (key i : Nat) (bs : List Byte) (w : Memory.wf s.mem = true)
    (h : i < bs.length) : readByte (writeBytes s key bs) (key + i) = bs[i] := by
  rw [writeBytes, readByte_clearPoison, readByte_writeBytesRaw_same bs s key i w h]

theorem reset_wf : Memory.wf State.reset.mem = true := rfl

end Sys2Proof.Machine
end

