-- ==== Sys2Proof/Laws/FormBase.lean ====
section
/-! SUPPORT. The canonical form of the memory as a predicate of states, what keeps it, and the results that carry a state. The
files Form* say of each operation and each instruction, once, that it keeps the form. -/
namespace Sys2Proof.Machine

/-- Memory stands in its canonical form. -/
def MemWf (s : State) : Prop := Memory.wf s.mem = true

theorem MemWf.form (s : State) : (Memory.wf s.mem = true) = MemWf s := rfl
theorem MemWf.same {s t : State} (e : t.mem = s.mem) (h : MemWf s) : MemWf t := by unfold MemWf; rw [e]; exact h
theorem MemWf.made (a b c d e f : _) (m : List Host.Cell) (g h i j k l n o p q r : _) :
    MemWf (State.mk a b c d e f m g h i j k l n o p q r) = (Memory.wf m = true) := rfl
theorem foldl_memWf {β : Type} (f : State → β → State) (l : List β) (s : State)
    (hf : ∀ st b, MemWf st → MemWf (f st b)) (hs : MemWf s) : MemWf (l.foldl f s) := foldl_keeps MemWf f hf l s hs
theorem foldlSnd_memWf {α β : Type} (f : α × State → β → α × State) (l : List β) (p : α × State)
    (hf : ∀ q b, MemWf q.2 → MemWf (f q b).2) (hs : MemWf p.2) : MemWf (l.foldl f p).2 :=
  foldl_keeps (fun q => MemWf q.2) f hf l p hs
theorem foldlFst_memWf {α β : Type} (f : State × α → β → State × α) (l : List β) (p : State × α)
    (hf : ∀ q b, MemWf q.1 → MemWf (f q b).1) (hs : MemWf p.1) : MemWf (l.foldl f p).1 :=
  foldl_keeps (fun q => MemWf q.1) f hf l p hs
theorem next_memWf {s t : State} (h : MemWf s) : (.next s : Out) = .next t → MemWf t := fun e =>
  Host.Outcome.next.inj e ▸ h
theorem fault_memWf {f : Fault} {t : State} : (.fault f : Out) = .next t → MemWf t := fun e => nomatch e
theorem some_memWf {s t : State} (h : MemWf s) : some s = some t → MemWf t := fun e => Option.some.inj e ▸ h
theorem none_memWf {t : State} : none = some t → MemWf t := fun e => nomatch e
theorem ite_memWf {p : Prop} [Decidable p] {a b : State} (ha : MemWf a) (hb : MemWf b) : MemWf (if p then a else b) := by
  split <;> assumption
theorem ite_third_memWf {α β : Type} {p : Prop} [Decidable p] {a b : α × β × State} (ha : MemWf a.2.2) (hb : MemWf b.2.2) :
    MemWf (if p then a else b).2.2 := by
  split <;> assumption
theorem of_third {α β : Type} {p : α × β × State} {a b} {t : State} (e : p = (a, b, t)) (h : MemWf p.2.2) : MemWf t := by
  subst e; exact h
theorem of_second {α : Type} {p : α × State} {a} {t : State} (e : p = (a, t)) (h : MemWf p.2) : MemWf t := by
  subst e; exact h
theorem of_first {α : Type} {p : State × α} {a} {t : State} (e : p = (t, a)) (h : MemWf p.1) : MemWf t := by
  subst e; exact h
theorem upTo_memWf (n : Nat) (f : Nat → State → State) (s : State)
    (hf : ∀ i st, MemWf st → MemWf (f i st)) (hs : MemWf s) : MemWf (upTo n f s) := upTo_keeps MemWf f hf n s hs

theorem swf_filter (p : Host.Cell → Bool) (m : List Host.Cell) (h : Memory.wf m = true) :
    Memory.wf (m.filter p) = true := by
  suffices H : ∀ (m : List Host.Cell) (b : Nat), wfAbove (0 : Byte) b m = true → wfAbove (0 : Byte) b (m.filter p) = true from
    H m 0 h
  intro m
  induction m with
  | nil => intro b _; rfl
  | cons e m ih =>
    intro b hb
    obtain ⟨k, v⟩ := e
    rw [wfAbove_cons] at hb
    rw [List.filter_cons]
    split
    · rw [wfAbove_cons]; exact ⟨hb.1, hb.2.1, ih _ hb.2.2⟩
    · exact wfAbove_mono _ (by omega) (ih _ hb.2.2)

section
variable {s : State}
theorem State.setCore_memWf (c k) (h : MemWf s) : MemWf (s.setCore c k) := h
theorem State.setMe_memWf (k) (h : MemWf s) : MemWf (s.setMe k) := h
theorem State.mapRegs_memWf (f) (h : MemWf s) : MemWf (s.mapRegs f) := h
theorem State.setTower_memWf (t w) (h : MemWf s) : MemWf (s.setTower t w) := h
theorem State.setWalker_memWf (t k) (h : MemWf s) : MemWf (s.setWalker t k) := h
theorem State.mapTiers_memWf (t f) (h : MemWf s) : MemWf (s.mapTiers t f) := h
theorem State.setCluster_memWf (x k) (h : MemWf s) : MemWf (s.setCluster x k) := h
theorem State.mapHub_memWf (f) (h : MemWf s) : MemWf (s.mapHub f) := h
theorem State.setPort_memWf (x p) (h : MemWf s) : MemWf (s.setPort x p) := h
theorem State.setReady_memWf (n b) (h : MemWf s) : MemWf (s.setReady n b) := h
theorem State.due_memWf (i o) (h : MemWf s) : MemWf (s.due i o) := h
theorem State.dueFirst_memWf (i o) (h : MemWf s) : MemWf (s.dueFirst i o) := h
theorem State.pass_memWf (n) (h : MemWf s) : MemWf (s.pass n) := h
theorem writeByte_memWf (key b) (h : MemWf s) : MemWf (writeByte s key b) := writeByte_wf s key b h
theorem writeBytesRaw_memWf (key bs) (h : MemWf s) : MemWf (writeBytesRaw s key bs) := writeBytesRaw_wf bs s key h
theorem clearPoison_memWf (key n) (h : MemWf s) : MemWf (clearPoison s key n) := .same (clearPoison_mem s key n) h
theorem writeBytes_memWf (key bs) (h : MemWf s) : MemWf (writeBytes s key bs) := writeBytes_wf s key bs h
theorem writeNat_memWf (key n v) (h : MemWf s) : MemWf (writeNat s key n v) := writeNat_wf s key n v h
theorem writeWord_memWf (key w) (h : MemWf s) : MemWf (writeWord s key w) := writeWord_wf s key w h
theorem poisonRange_memWf (key n c) (h : MemWf s) : MemWf (poisonRange s key n c) := h
end
theorem reset_memWf : MemWf State.reset := reset_wf

/-! Results that carry a state. -/
def RunRead.Wf {α : Type} : RunRead α → Prop
  | .ok _ _ s => MemWf s
  | .fault _ _ s => MemWf s
  | .transit _ s => MemWf s
  | .miss s => MemWf s
theorem RunRead.wf_ok {α : Type} {a b} {s : State} (h : MemWf s) : (RunRead.ok a b s : RunRead α).Wf := h
theorem RunRead.of_ok {α : Type} {a b} {s : State} {r : RunRead α} (e : r = .ok a b s) (h : r.Wf) : MemWf s := by subst e; exact h
theorem RunRead.wf_fault {α : Type} {c i} {s : State} (h : MemWf s) : (RunRead.fault c i s : RunRead α).Wf := h
theorem RunRead.of_fault {α : Type} {c i} {s : State} {r : RunRead α} (e : r = .fault c i s) (h : r.Wf) : MemWf s := by subst e; exact h
theorem RunRead.wf_transit {α : Type} {i} {s : State} (h : MemWf s) : (RunRead.transit i s : RunRead α).Wf := h
theorem RunRead.of_transit {α : Type} {i} {s : State} {r : RunRead α} (e : r = .transit i s) (h : r.Wf) : MemWf s := by subst e; exact h
theorem RunRead.wf_miss {α : Type} {s : State} (h : MemWf s) : (RunRead.miss s : RunRead α).Wf := h
theorem RunRead.of_miss {α : Type} {s : State} {r : RunRead α} (e : r = .miss s) (h : r.Wf) : MemWf s := by subst e; exact h
def RingResult.Wf : RingResult → Prop
  | .taken s => MemWf s
  | .full s => MemWf s
  | .noSlots => True
  | .unusable => True
theorem RingResult.wf_taken {s : State} (h : MemWf s) : (RingResult.taken s).Wf := h
theorem RingResult.of_taken {s : State} {r : RingResult} (e : r = .taken s) (h : r.Wf) : MemWf s := by subst e; exact h
theorem RingResult.wf_full {s : State} (h : MemWf s) : (RingResult.full s).Wf := h
theorem RingResult.of_full {s : State} {r : RingResult} (e : r = .full s) (h : r.Wf) : MemWf s := by subst e; exact h
def Element.Wf : Element → Prop
  | .wrote s _ => MemWf s
  | .stop s _ _ => MemWf s
  | .held s => MemWf s
  | .wait s => MemWf s
theorem Element.wf_wrote {p} {s : State} (h : MemWf s) : (Element.wrote s p).Wf := h
theorem Element.of_wrote {p} {s : State} {r : Element} (e : r = .wrote s p) (h : r.Wf) : MemWf s := by subst e; exact h
theorem Element.wf_stop {a b} {s : State} (h : MemWf s) : (Element.stop s a b).Wf := h
theorem Element.of_stop {a b} {s : State} {r : Element} (e : r = .stop s a b) (h : r.Wf) : MemWf s := by subst e; exact h
theorem Element.wf_held {s : State} (h : MemWf s) : (Element.held s).Wf := h
theorem Element.of_held {s : State} {r : Element} (e : r = .held s) (h : r.Wf) : MemWf s := by subst e; exact h
theorem Element.wf_wait {s : State} (h : MemWf s) : (Element.wait s).Wf := h
theorem Element.of_wait {s : State} {r : Element} (e : r = .wait s) (h : r.Wf) : MemWf s := by subst e; exact h
def RingWrite.Wf : RingWrite → Prop
  | .written s => MemWf s
  | .full s => MemWf s
  | .discarded s => MemWf s
theorem RingWrite.wf_written {s : State} (h : MemWf s) : (RingWrite.written s).Wf := h
theorem RingWrite.of_written {s : State} {r : RingWrite} (e : r = .written s) (h : r.Wf) : MemWf s := by subst e; exact h
theorem RingWrite.wf_full {s : State} (h : MemWf s) : (RingWrite.full s).Wf := h
theorem RingWrite.of_full {s : State} {r : RingWrite} (e : r = .full s) (h : r.Wf) : MemWf s := by subst e; exact h
theorem RingWrite.wf_discarded {s : State} (h : MemWf s) : (RingWrite.discarded s).Wf := h
theorem RingWrite.of_discarded {s : State} {r : RingWrite} (e : r = .discarded s) (h : r.Wf) : MemWf s := by subst e; exact h
theorem RingResult.wf_noSlots : RingResult.noSlots.Wf := trivial
theorem RingResult.wf_unusable : RingResult.unusable.Wf := trivial
end Sys2Proof.Machine
end

