-- ==== Sys2Proof/Laws/FormShared.lean ====
section
/-! SUPPORT. What translations, the caches, register writes, rings, packets, windows and the shared operations of a core keep of the form of memory. -/

namespace Sys2Proof.Machine

/-! ### Memory -/

theorem applyCombined_memWf (s : State) (c : Combined) (h_s : MemWf s)
    : MemWf (applyCombined s c) := by
  unfold applyCombined
  repeat' (first | with_reducible assumption | with_reducible apply writeWord_memWf | split)

theorem flushRange_memWf (s : State) (t : TowerId) (key : Nat) (n : Nat) (h_s : MemWf s)
    : MemWf (flushRange s t key n) := by
  unfold flushRange
  repeat' (first
      | with_reducible assumption
      | (intro z; refine (fun hz : MemWf z => ?_) ?_; rotate_left; subst z; rotate_right; clear_value z)
      | (intro z; clear_value z) | intro _ | lift_lets -underBinder | with_reducible apply applyCombined_memWf
      | with_reducible apply State.setTower_memWf | with_reducible apply foldl_memWf
      | with_reducible apply foldlSnd_memWf | with_reducible apply foldlFst_memWf | split)

theorem flushWord_memWf (s : State) (t : TowerId) (key : Nat) (h_s : MemWf s)
    : MemWf (flushWord s t key) := by
  unfold flushWord
  repeat' (first | with_reducible assumption | with_reducible apply flushRange_memWf | split)

theorem flushCombined_memWf (s : State) (t : TowerId) (h_s : MemWf s)
    : MemWf (flushCombined s t) := by
  unfold flushCombined
  repeat' (first
      | with_reducible assumption
      | (intro z; refine (fun hz : MemWf z => ?_) ?_; rotate_left; subst z; rotate_right; clear_value z)
      | (intro z; clear_value z) | intro _ | lift_lets -underBinder | with_reducible apply applyCombined_memWf
      | with_reducible apply State.setTower_memWf | with_reducible apply foldl_memWf
      | with_reducible apply foldlSnd_memWf | with_reducible apply foldlFst_memWf | split)

theorem touchHome_memWf (s : State) (key : Nat) (n : Nat) (dirty : Bool) (h_s : MemWf s)
    : MemWf (touchHome s key n dirty) := by
  unfold touchHome
  repeat' (first
      | with_reducible assumption
      | (intro z; refine (fun hz : MemWf z => ?_) ?_; rotate_left; subst z; rotate_right; clear_value z)
      | (intro z; clear_value z) | intro _ | lift_lets -underBinder | with_reducible apply flushRange_memWf
      | with_reducible apply State.setTower_memWf | split | simp -zeta only [MemWf.made, MemWf.form])

theorem writeBackBytes_memWf (s : State) (l : L1Line) (h_s : MemWf s)
    : MemWf (writeBackBytes s l) := by
  unfold writeBackBytes
  repeat' (first
      | with_reducible assumption
      | (intro z; refine (fun hz : MemWf z => ?_) ?_; rotate_left; subst z; rotate_right; clear_value z)
      | (intro z; clear_value z) | intro _ | lift_lets -underBinder | with_reducible apply writeByte_memWf
      | with_reducible apply touchHome_memWf | with_reducible apply upTo_memWf | split
      | simp -zeta only [MemWf.made, MemWf.form])

theorem writeBackLines_memWf (s : State) (c : CoreId) (p : L1Line → Bool) (h_s : MemWf s)
    : MemWf (writeBackLines s c p) := by
  unfold writeBackLines
  repeat' (first
      | with_reducible assumption
      | (intro z; refine (fun hz : MemWf z => ?_) ?_; rotate_left; subst z; rotate_right; clear_value z)
      | (intro z; clear_value z) | intro _ | lift_lets -underBinder | with_reducible apply writeBackBytes_memWf
      | with_reducible apply State.setCore_memWf | with_reducible apply foldl_memWf
      | with_reducible apply foldlSnd_memWf | with_reducible apply foldlFst_memWf | split
      | simp -zeta only [MemWf.made, MemWf.form])

theorem dropLines_memWf (s : State) (c : CoreId) (p : L1Line → Bool) (h_s : MemWf s)
    : MemWf (dropLines s c p) := by
  unfold dropLines
  repeat' (first
      | with_reducible assumption
      | (intro z; refine (fun hz : MemWf z => ?_) ?_; rotate_left; subst z; rotate_right; clear_value z)
      | (intro z; clear_value z) | intro _ | lift_lets -underBinder | with_reducible apply State.setCore_memWf | split
      | simp -zeta only [MemWf.made, MemWf.form])

theorem dropHome_memWf (s : State) (c : CoreId) (key : Nat) (h_s : MemWf s)
    : MemWf (dropHome s c key) := by
  unfold dropHome
  repeat' (first
      | with_reducible assumption
      | (intro z; refine (fun hz : MemWf z => ?_) ?_; rotate_left; subst z; rotate_right; clear_value z)
      | (intro z; clear_value z) | intro _ | lift_lets -underBinder | with_reducible apply dropLines_memWf
      | with_reducible apply writeBackLines_memWf | with_reducible apply foldl_memWf
      | with_reducible apply foldlSnd_memWf | with_reducible apply foldlFst_memWf | split)

theorem updateCopies_memWf (s : State) (c : CoreId) (home : Nat) (i : Nat) (v : Nat) (whole : Bool) (own : L1Line →
    Bool) (h_s : MemWf s)
    : MemWf (updateCopies s c home i v whole own) := by
  unfold updateCopies
  repeat' (first
      | with_reducible assumption
      | (intro z; refine (fun hz : MemWf z => ?_) ?_; rotate_left; subst z; rotate_right; clear_value z)
      | (intro z; clear_value z) | intro _ | lift_lets -underBinder | with_reducible apply State.setCore_memWf
      | with_reducible apply foldl_memWf | with_reducible apply foldlSnd_memWf | with_reducible apply foldlFst_memWf
      | split | simp -zeta only [MemWf.made, MemWf.form])

theorem installLine_memWf (s : State) (o : CoreId) (l : L1Line) (h_s : MemWf s)
    : MemWf (installLine s o l) := by
  unfold installLine
  repeat' (first
      | with_reducible assumption
      | (intro z; refine (fun hz : MemWf z => ?_) ?_; rotate_left; subst z; rotate_right; clear_value z)
      | (intro z; clear_value z) | intro _ | lift_lets -underBinder | with_reducible apply writeBackBytes_memWf
      | with_reducible apply State.setCore_memWf | split | simp -zeta only [MemWf.made, MemWf.form])

theorem touchLine_memWf (s : State) (c : CoreId) (ctx : BitVec 16) (gen : BitVec 8) (p : Place) (line : Nat) (inv :
    Bool) (h_s : MemWf s)
    : MemWf (touchLine s c ctx gen p line inv).2 := by
  unfold touchLine
  repeat' (first
      | with_reducible assumption
      | (intro z; refine (fun hz : MemWf z => ?_) ?_; rotate_left; subst z; rotate_right; clear_value z)
      | (intro z; clear_value z) | intro _ | lift_lets -underBinder | with_reducible apply installLine_memWf
      | with_reducible apply touchHome_memWf | split | simp -zeta only [MemWf.made, MemWf.form])

theorem loadBits_memWf (s : State) (c : CoreId) (ctx : BitVec 16) (gen : BitVec 8) (p : Place) (b : Nat) (width :
    Nat) (inv : Bool) (h_s : MemWf s)
    : MemWf (loadBits s c ctx gen p b width inv).2.2 := by
  unfold loadBits
  repeat' (first
      | with_reducible assumption
      | (intro z; refine (fun hz : MemWf z => ?_) ?_; rotate_left; subst z; rotate_right; clear_value z)
      | (intro z; refine (fun hz : MemWf z.2 => ?_) ?_; rotate_left; subst z; rotate_right; clear_value z)
      | (intro z; clear_value z) | intro _ | lift_lets -underBinder | with_reducible apply touchLine_memWf
      | with_reducible apply touchHome_memWf
      | (with_reducible refine of_second ‹_› ?_; first | with_reducible assumption | with_reducible apply touchLine_memWf)
      | split)

theorem storeBits_memWf (s : State) (c : CoreId) (ctx : BitVec 16) (gen : BitVec 8) (b : StoreByte) (h_s : MemWf s)
    : MemWf (storeBits s c ctx gen b) := by
  unfold storeBits
  repeat' (first
      | with_reducible assumption
      | (intro z; refine (fun hz : MemWf z => ?_) ?_; rotate_left; subst z; rotate_right; clear_value z)
      | (intro z; refine (fun hz : MemWf z.2 => ?_) ?_; rotate_left; subst z; rotate_right; clear_value z)
      | (intro z; clear_value z) | intro _ | lift_lets -underBinder | with_reducible apply touchLine_memWf
      | with_reducible apply updateCopies_memWf | with_reducible apply installLine_memWf
      | with_reducible apply touchHome_memWf | with_reducible apply writeByte_memWf | with_reducible apply foldl_memWf
      | with_reducible apply foldlSnd_memWf | with_reducible apply foldlFst_memWf
      | (with_reducible refine of_second ‹_› ?_; first | with_reducible assumption | with_reducible apply touchLine_memWf)
      | split)

theorem writeHome_memWf (s : State) (c : CoreId) (key : Nat) (n : Nat) (v : Nat) (h_s : MemWf s)
    : MemWf (writeHome s c key n v) := by
  unfold writeHome
  repeat' (first
      | with_reducible assumption
      | (intro z; refine (fun hz : MemWf z => ?_) ?_; rotate_left; subst z; rotate_right; clear_value z)
      | (intro z; clear_value z) | intro _ | lift_lets -underBinder | with_reducible apply updateCopies_memWf
      | with_reducible apply writeNat_memWf | with_reducible apply touchHome_memWf | with_reducible apply upTo_memWf
      | split)

theorem clearStorePoison_memWf (s : State) (bs : List StoreByte) (h_s : MemWf s)
    : MemWf (clearStorePoison s bs) := by
  unfold clearStorePoison
  repeat' (first
      | with_reducible assumption
      | (intro z; refine (fun hz : MemWf z => ?_) ?_; rotate_left; subst z; rotate_right; clear_value z)
      | (intro z; clear_value z) | intro _ | lift_lets -underBinder | split | simp -zeta only [MemWf.made, MemWf.form])

theorem performStore_memWf (s : State) (c : CoreId) (ctx : BitVec 16) (gen : BitVec 8) (bs : List StoreByte) (h_s :
    MemWf s)
    : MemWf (performStore s c ctx gen bs) := by
  unfold performStore
  repeat' (first
      | with_reducible assumption | intro _ | with_reducible apply clearStorePoison_memWf
      | with_reducible apply storeBits_memWf | with_reducible apply foldl_memWf | with_reducible apply foldlSnd_memWf
      | with_reducible apply foldlFst_memWf | split)

/-! ### Translate -/

theorem noteSealed_memWf (s : State) (e : BitVec 64) (h_s : MemWf s)
    : MemWf (noteSealed s e) := by
  unfold noteSealed
  repeat' (first | with_reducible assumption | split | simp -zeta only [MemWf.made, MemWf.form])

theorem installTile_memWf (s0 : State) (v : View) (tid : BitVec 16) (tile : Nat) (e : BitVec 64) (h_s0 : MemWf s0)
    : MemWf (installTile s0 v tid tile e) := by
  unfold installTile
  repeat' (first
      | with_reducible assumption
      | (intro z; refine (fun hz : MemWf z => ?_) ?_; rotate_left; subst z; rotate_right; clear_value z)
      | (intro z; clear_value z) | intro _ | lift_lets -underBinder | with_reducible apply noteSealed_memWf
      | with_reducible apply State.setTower_memWf | split | simp -zeta only [MemWf.made, MemWf.form])

theorem resolveFlat_memWf (s : State) (v : View) (tile : Nat) (h_s : MemWf s)
    : MemWf (resolveFlat s v tile).2 := by
  unfold resolveFlat
  repeat' (first | with_reducible assumption | with_reducible apply installTile_memWf | split)

theorem State.askWalker_memWf (s : State) (t : TowerId) (r : WalkReq) (h_s : MemWf s)
    : MemWf (State.askWalker s t r) := by
  unfold State.askWalker
  repeat' (first
      | with_reducible assumption
      | (intro z; refine (fun hz : MemWf z => ?_) ?_; rotate_left; subst z; rotate_right; clear_value z)
      | (intro z; clear_value z) | lift_lets -underBinder | with_reducible apply State.setTower_memWf | split
      | simp -zeta only [MemWf.made, MemWf.form])

theorem sendMiss_memWf (s : State) (v : View) (r : WalkReq) (h_s : MemWf s)
    : MemWf (sendMiss s v r) := by
  unfold sendMiss
  repeat' (first
      | with_reducible assumption
      | (intro z; refine (fun hz : MemWf z => ?_) ?_; rotate_left; subst z; rotate_right; clear_value z)
      | (intro z; clear_value z) | lift_lets -underBinder | with_reducible apply State.askWalker_memWf | split)

theorem dropWalked_memWf (s : State) (t : TowerId) (unit : Nat) (h_s : MemWf s)
    : MemWf (dropWalked s t unit) := by
  unfold dropWalked
  repeat' (first
      | with_reducible assumption
      | (intro z; refine (fun hz : MemWf z => ?_) ?_; rotate_left; subst z; rotate_right; clear_value z)
      | (intro z; clear_value z) | intro _ | lift_lets -underBinder | with_reducible apply State.setTower_memWf
      | split | simp -zeta only [MemWf.made, MemWf.form])

theorem lookupFlat_memWf (s : State) (v : View) (core : Option CoreId) (acc : Nat) (tile : Nat) (h_s : MemWf s)
    : MemWf (lookupFlat s v core acc tile).2 := by
  unfold lookupFlat
  repeat' (first | with_reducible assumption | with_reducible apply sendMiss_memWf | split)

theorem lookupTensor_memWf (s : State) (v : View) (core : Option CoreId) (acc : Nat) (d : BitVec 512) (tile : Nat)
    (h_s : MemWf s)
    : MemWf (lookupTensor s v core acc d tile).2 := by
  unfold lookupTensor
  repeat' (first | with_reducible assumption | with_reducible apply sendMiss_memWf | split)

theorem flatKeyOf_memWf (s : State) (v : View) (a : Word) (h_s : MemWf s)
    : MemWf (flatKeyOf s v a).2 := by
  unfold flatKeyOf
  repeat' (first
      | with_reducible assumption
      | (intro z; refine (fun hz : MemWf z => ?_) ?_; rotate_left; subst z; rotate_right; clear_value z)
      | (intro z; refine (fun hz : MemWf z.2 => ?_) ?_; rotate_left; subst z; rotate_right; clear_value z)
      | (intro z; clear_value z) | lift_lets -underBinder | with_reducible apply resolveFlat_memWf
      | (with_reducible refine of_second ‹_› ?_; first | with_reducible assumption | with_reducible apply resolveFlat_memWf)
      | split)

/-! ### Registers -/

theorem State.wrS_memWf (s : State) (x : Fin 8) (n : BitVec 6) (v : Word) (h_s : MemWf s)
    : MemWf (State.wrS s x n v) := by
  unfold State.wrS
  repeat' (first | with_reducible assumption | with_reducible apply State.setMe_memWf | split)

theorem State.wrV_memWf (s : State) (x : Fin 8) (n : BitVec 6) (v : Vec) (h_s : MemWf s)
    : MemWf (State.wrV s x n v) := by
  unfold State.wrV
  repeat' (first | with_reducible assumption | with_reducible apply State.setMe_memWf | split)

theorem State.laterS_memWf (s : State) (x : Fin 8) (n : BitVec 6) (v : Word) (lat : Nat) (bc : Bool) (h_s : MemWf s)
    : MemWf (State.laterS s x n v lat bc) := by
  unfold State.laterS
  repeat' (first | with_reducible assumption | with_reducible apply State.setMe_memWf | split)

theorem State.laterP_memWf (s : State) (x : Fin 8) (n : BitVec 4) (v : Bool) (lat : Nat) (bc : Bool) (h_s : MemWf s)
    : MemWf (State.laterP s x n v lat bc) := by
  unfold State.laterP
  repeat' (first | with_reducible assumption | with_reducible apply State.setMe_memWf | split)

theorem State.laterV_memWf (s : State) (x : Fin 8) (n : BitVec 6) (v : Vec) (lat : Nat) (h_s : MemWf s)
    : MemWf (State.laterV s x n v lat) := by
  unfold State.laterV
  repeat' (first | with_reducible assumption | with_reducible apply State.setMe_memWf | split)

theorem State.laterK_memWf (s : State) (x : Fin 8) (n : BitVec 3) (v : Mask) (lat : Nat) (h_s : MemWf s)
    : MemWf (State.laterK s x n v lat) := by
  unfold State.laterK
  repeat' (first | with_reducible assumption | with_reducible apply State.setMe_memWf | split)

/-! ### Rings -/

theorem raise_memWf (s : State) (vec : Nat) (h_s : MemWf s)
    : MemWf (raise s vec) := by
  unfold raise
  repeat' (first
      | with_reducible assumption | intro _ | with_reducible apply State.mapHub_memWf | split
      | simp -zeta only [MemWf.made, MemWf.form])

theorem ringPut_memWf (s : State) (key : Nat) (slot : Option Nat) (entry : BitVec 256) (h_s : MemWf s)
    : RingResult.Wf (ringPut s key slot entry) := by
  unfold ringPut
  repeat' (first
      | with_reducible assumption
      | (intro z; refine (fun hz : MemWf z => ?_) ?_; rotate_left; subst z; rotate_right; clear_value z)
      | (intro z; clear_value z) | lift_lets -underBinder | with_reducible apply writeNat_memWf
      | with_reducible apply RingResult.wf_taken | with_reducible apply RingResult.wf_full
      | with_reducible exact RingResult.wf_noSlots | with_reducible exact RingResult.wf_unusable | split)

theorem faultRecord_memWf (s : State) (i : Nat) (code : Code) (ctx : BitVec 16) (gen : BitVec 8) (src : Nat) (addr :
    Word) (info : Word) (h_s : MemWf s)
    : MemWf (faultRecord s i code ctx gen src addr info) := by
  unfold faultRecord
  repeat' (first
      | with_reducible assumption
      | (intro z; refine (fun hz : MemWf z => ?_) ?_; rotate_left; subst z; rotate_right; clear_value z)
      | (intro z; refine (fun hz : z.Wf => ?_) ?_; rotate_left; subst z; rotate_right; clear_value z) | exact hz
      | (intro z; clear_value z) | lift_lets -underBinder | with_reducible apply ringPut_memWf
      | with_reducible apply raise_memWf | with_reducible refine RingResult.of_taken ‹_› ?_
      | with_reducible refine RingResult.of_full ‹_› ?_ | split)

theorem hubRecord_memWf (s : State) (code : Code) (info : Word) (h_s : MemWf s)
    : MemWf (hubRecord s code info) := by
  unfold hubRecord
  repeat' (first | with_reducible assumption | with_reducible apply faultRecord_memWf | split)

theorem statRecord_memWf (s : State) (c : CoreId) (src : Nat) (code : Code) (addr : Word) (pay : BitVec 128) (h_s :
    MemWf s)
    : MemWf (statRecord s c src code addr pay) := by
  unfold statRecord
  repeat' (first
      | with_reducible assumption
      | (intro z; refine (fun hz : MemWf z => ?_) ?_; rotate_left; subst z; rotate_right; clear_value z)
      | (intro z; clear_value z) | lift_lets -underBinder | with_reducible apply State.setCore_memWf | split
      | simp -zeta only [MemWf.made, MemWf.form])

theorem towerStat_memWf (s : State) (t : TowerId) (code : Code) (h_s : MemWf s)
    : MemWf (towerStat s t code) := by
  unfold towerStat
  repeat' (first
      | with_reducible assumption | intro _ | with_reducible apply statRecord_memWf | with_reducible apply foldl_memWf
      | with_reducible apply foldlSnd_memWf | with_reducible apply foldlFst_memWf | split)

theorem setRecordState_memWf (s : State) (key : Nat) (st : Nat) (ownv : Bool) (owner : Nat) (h_s : MemWf s)
    : MemWf (setRecordState s key st ownv owner) := by
  unfold setRecordState
  repeat' (first
      | with_reducible assumption
      | (intro z; refine (fun hz : MemWf z => ?_) ?_; rotate_left; subst z; rotate_right; clear_value z)
      | (intro z; clear_value z) | lift_lets -underBinder | with_reducible apply writeWord_memWf | split)

theorem leaveRecord_memWf (s : State) (key : Nat) (st : Nat) (h_s : MemWf s)
    : MemWf (leaveRecord s key st) := by
  unfold leaveRecord
  repeat' (first
      | with_reducible assumption
      | (intro z; refine (fun hz : MemWf z => ?_) ?_; rotate_left; subst z; rotate_right; clear_value z)
      | (intro z; clear_value z) | lift_lets -underBinder | with_reducible apply writeWord_memWf | split)

theorem setRecordFault_memWf (s : State) (key : Nat) (c : Code) (h_s : MemWf s)
    : MemWf (setRecordFault s key c) := by
  unfold setRecordFault
  repeat' (first | with_reducible assumption | with_reducible apply writeNat_memWf | split)

theorem setHeaderState_memWf (s : State) (key : Nat) (st : Nat) (h_s : MemWf s)
    : MemWf (setHeaderState s key st) := by
  unfold setHeaderState
  repeat' (first | with_reducible assumption | with_reducible apply writeWord_memWf | split)

theorem setHeaderRemain_memWf (s : State) (key : Nat) (n : Nat) (h_s : MemWf s)
    : MemWf (setHeaderRemain s key n) := by
  unfold setHeaderRemain
  repeat' (first | with_reducible assumption | with_reducible apply writeWord_memWf | split)

theorem setHeaderFault_memWf (s : State) (key : Nat) (c : Code) (h_s : MemWf s)
    : MemWf (setHeaderFault s key c) := by
  unfold setHeaderFault
  repeat' (first | with_reducible assumption | with_reducible apply writeNat_memWf | split)

theorem faultInstance_memWf (s : State) (home : Nat) (hdrKey : Nat) (code : Code) (ctx : BitVec 16) (gen : BitVec 8)
    (src : Nat) (addr : Word) (info : Word) (h_s : MemWf s)
    : MemWf (faultInstance s home hdrKey code ctx gen src addr info) := by
  unfold faultInstance
  repeat' (first
      | with_reducible assumption
      | (intro z; refine (fun hz : MemWf z => ?_) ?_; rotate_left; subst z; rotate_right; clear_value z)
      | (intro z; clear_value z) | lift_lets -underBinder | with_reducible apply setHeaderFault_memWf
      | with_reducible apply setHeaderState_memWf | with_reducible apply faultRecord_memWf | split)

theorem faultNode_memWf (s : State) (home : Nat) (recKey : Nat) (hdrKey : Nat) (code : Code) (ctx : BitVec 16) (gen :
    BitVec 8) (src : Nat) (rec : Word) (info : Word) (h_s : MemWf s)
    : MemWf (faultNode s home recKey hdrKey code ctx gen src rec info) := by
  unfold faultNode
  repeat' (first
      | with_reducible assumption
      | (intro z; refine (fun hz : MemWf z => ?_) ?_; rotate_left; subst z; rotate_right; clear_value z)
      | (intro z; clear_value z) | lift_lets -underBinder | with_reducible apply setRecordFault_memWf
      | with_reducible apply leaveRecord_memWf | with_reducible apply faultInstance_memWf | split)

/-! ### Packets -/

theorem newPacket_memWf (s : State) (p : Send) (pay : List Byte) (h_s : MemWf s)
    : MemWf (newPacket s p pay).2 := by
  unfold newPacket
  repeat' (first
      | with_reducible assumption
      | (intro z; refine (fun hz : MemWf z => ?_) ?_; rotate_left; subst z; rotate_right; clear_value z)
      | (intro z; clear_value z) | intro _ | lift_lets -underBinder | with_reducible apply State.mapHub_memWf | split
      | simp -zeta only [MemWf.made, MemWf.form])

theorem sendFlit_memWf (s : State) (o : Nat) (q : Option Packet) (part : Nat) (chan : Nat) (h_s : MemWf s)
    : MemWf (sendFlit s o q part chan) := by
  unfold sendFlit
  repeat' (first
      | with_reducible assumption
      | (intro z; refine (fun hz : MemWf z => ?_) ?_; rotate_left; subst z; rotate_right; clear_value z)
      | (intro z; clear_value z) | lift_lets -underBinder | with_reducible apply State.setPort_memWf | split
      | simp -zeta only [MemWf.made, MemWf.form])

theorem drainWaiting_memWf (o : Nat) (x1 : Nat) (x2 : State) (h_x2 : MemWf x2)
    : MemWf (drainWaiting o x1 x2) := by
  revert h_x2
  fun_induction drainWaiting o x1 x2 <;> intros
  all_goals
    repeat' (first
      | with_reducible assumption | (with_reducible apply_assumption)
      | (intro z; refine (fun hz : MemWf z => ?_) ?_; rotate_left; subst z; rotate_right; clear_value z)
      | (intro z; clear_value z) | lift_lets -underBinder | with_reducible apply sendFlit_memWf
      | with_reducible apply State.setPort_memWf | split | simp -zeta only [MemWf.made, MemWf.form] | dsimp only)

theorem transmitOn_memWf (s : State) (o : Nat) (chan : Nat) (q : Packet) (h_s : MemWf s)
    : MemWf (transmitOn s o chan q) := by
  unfold transmitOn
  repeat' (first
      | with_reducible assumption
      | (intro z; refine (fun hz : MemWf z => ?_) ?_; rotate_left; subst z; rotate_right; clear_value z)
      | (intro z; clear_value z) | lift_lets -underBinder | with_reducible apply drainWaiting_memWf
      | with_reducible apply State.setPort_memWf | split | simp -zeta only [MemWf.made, MemWf.form])

theorem transmit_memWf (s : State) (o : Nat) (q : Packet) (h_s : MemWf s)
    : MemWf (transmit s o q) := by
  unfold transmit
  repeat' (first | with_reducible assumption | with_reducible apply transmitOn_memWf | split)

theorem sendOut_memWf (s : State) (q : Packet) (h_s : MemWf s)
    : MemWf (sendOut s q) := by
  unfold sendOut
  repeat' (first | with_reducible assumption | with_reducible apply transmitOn_memWf | split)

theorem transmitFirst_memWf (s : State) (q : Packet) (h_s : MemWf s)
    : MemWf (transmitFirst s q) := by
  unfold transmitFirst
  repeat' (first
      | with_reducible assumption
      | (intro z; refine (fun hz : MemWf z => ?_) ?_; rotate_left; subst z; rotate_right; clear_value z)
      | (intro z; clear_value z) | intro _ | lift_lets -underBinder | with_reducible apply drainWaiting_memWf
      | with_reducible apply State.setPort_memWf | split | simp -zeta only [MemWf.made, MemWf.form])

theorem enterPool_memWf (s : State) (x : Nat) (chan : Nat) (q : Packet) (h_s : MemWf s)
    : MemWf (enterPool s x chan q) := by
  unfold enterPool
  repeat' (first
      | with_reducible assumption | intro _ | with_reducible apply State.mapHub_memWf | split
      | simp -zeta only [MemWf.made, MemWf.form])

theorem sendPacket_memWf (s : State) (q : Packet) (h_s : MemWf s)
    : MemWf (sendPacket s q) := by
  unfold sendPacket
  repeat' (first
      | with_reducible assumption | with_reducible apply enterPool_memWf | with_reducible apply sendOut_memWf | split)

/-! ### Objects -/

theorem barrierApply_memWf (s : State) (key : Nat) (f : Word → Option Word) (ctx : BitVec 16) (gen : BitVec 8) (src :
    Nat) (addr : Word) (h_s : MemWf s)
    : MemWf (barrierApply s key f ctx gen src addr) := by
  unfold barrierApply
  repeat' (first
      | with_reducible assumption
      | (intro z; refine (fun hz : MemWf z => ?_) ?_; rotate_left; subst z; rotate_right; clear_value z)
      | (intro z; clear_value z) | lift_lets -underBinder | with_reducible apply faultRecord_memWf
      | with_reducible apply writeWord_memWf | split)

theorem offerCombined_memWf (s : State) (t : TowerId) (key : Nat) (op : Fin 11) (y : Word) (h_s : MemWf s)
    : MemWf (offerCombined s t key op y) := by
  unfold offerCombined
  repeat' (first
      | with_reducible assumption
      | (intro z; refine (fun hz : MemWf z => ?_) ?_; rotate_left; subst z; rotate_right; clear_value z)
      | (intro z; clear_value z) | intro _ | lift_lets -underBinder | with_reducible apply State.setTower_memWf
      | with_reducible apply flushWord_memWf | with_reducible apply flushCombined_memWf | split
      | simp -zeta only [MemWf.made, MemWf.form])

/-! ### Pipeline -/

theorem State.slotFaultI_memWf (s : State) (x : Fin 8) (code : Code) (info : Word) (h_s : MemWf s)
    : MemWf (State.slotFaultI s x code info) := by
  unfold State.slotFaultI
  repeat' (first
      | with_reducible assumption | intro _ | with_reducible apply State.setMe_memWf | split
      | simp -zeta only [MemWf.made, MemWf.form])

theorem State.slotFault_memWf (s : State) (x : Fin 8) (code : Code) (h_s : MemWf s)
    : MemWf (State.slotFault s x code) := by
  unfold State.slotFault
  repeat' (first | with_reducible assumption | with_reducible apply State.slotFaultI_memWf | split)

theorem State.reissue_memWf (s : State) (x : Fin 8) (h_s : MemWf s)
    : MemWf (State.reissue s x) := by
  unfold State.reissue
  repeat' (first
      | with_reducible assumption | intro _ | with_reducible apply State.setMe_memWf | split
      | simp -zeta only [MemWf.made, MemWf.form])

theorem State.jump_memWf (s : State) (target : Word) (h_s : MemWf s)
    : MemWf (State.jump s target) := by
  unfold State.jump
  repeat' (first
      | with_reducible assumption | intro _ | with_reducible apply State.setMe_memWf | split
      | simp -zeta only [MemWf.made, MemWf.form])

theorem State.goTo_memWf (s : State) (target : Word) (h_s : MemWf s)
    : MemWf (State.goTo s target) := by
  unfold State.goTo
  repeat' (first
      | with_reducible assumption | intro _ | with_reducible apply State.setMe_memWf | split
      | simp -zeta only [MemWf.made, MemWf.form])

theorem State.notePop_memWf (s : State) (p : PopRec) (h_s : MemWf s)
    : MemWf (State.notePop s p) := by
  unfold State.notePop
  repeat' (first
      | with_reducible assumption | intro _ | with_reducible apply State.setMe_memWf | split
      | simp -zeta only [MemWf.made, MemWf.form])

theorem State.setEnding_memWf (s : State) (e : Ending) (h_s : MemWf s)
    : MemWf (State.setEnding s e) := by
  unfold State.setEnding
  repeat' (first
      | with_reducible assumption | intro _ | with_reducible apply State.setMe_memWf | split
      | simp -zeta only [MemWf.made, MemWf.form])

theorem State.raiseFlags_memWf (s : State) (x : Fin 8) (f : BitVec 6) (h_s : MemWf s)
    : MemWf (State.raiseFlags s x f) := by
  unfold State.raiseFlags
  repeat' (first
      | with_reducible assumption
      | (intro z; refine (fun hz : MemWf z => ?_) ?_; rotate_left; subst z; rotate_right; clear_value z)
      | (intro z; clear_value z) | intro _ | lift_lets -underBinder | with_reducible apply State.slotFaultI_memWf
      | with_reducible apply State.setMe_memWf | split | simp -zeta only [MemWf.made, MemWf.form])

theorem sendQuantum_memWf (c : CoreId) (s : State) (w : QuantumWord) (h_s : MemWf s)
    : MemWf (sendQuantum c s w) := by
  unfold sendQuantum
  repeat' (first
      | with_reducible assumption
      | (intro z; refine (fun hz : MemWf z => ?_) ?_; rotate_left; subst z; rotate_right; clear_value z)
      | (intro z; clear_value z) | lift_lets -underBinder | with_reducible apply flushWord_memWf
      | with_reducible apply dropHome_memWf | with_reducible apply writeWord_memWf | split)

theorem flushQuantum_memWf (s : State) (c : CoreId) (h_s : MemWf s)
    : MemWf (flushQuantum s c) := by
  unfold flushQuantum
  repeat' (first
      | with_reducible assumption
      | (intro z; refine (fun hz : MemWf z => ?_) ?_; rotate_left; subst z; rotate_right; clear_value z)
      | (intro z; clear_value z) | intro _ | lift_lets -underBinder | with_reducible apply sendQuantum_memWf
      | with_reducible apply State.setCore_memWf | with_reducible apply foldl_memWf
      | with_reducible apply foldlSnd_memWf | with_reducible apply foldlFst_memWf | split)

theorem addQuantum_memWf (s : State) (c : CoreId) (key : Nat) (y : Word) (q : BitVec 4) (h_s : MemWf s)
    : MemWf (addQuantum s c key y q) := by
  unfold addQuantum
  repeat' (first
      | with_reducible assumption
      | (intro z; refine (fun hz : MemWf z => ?_) ?_; rotate_left; subst z; rotate_right; clear_value z)
      | (intro z; clear_value z) | intro _ | lift_lets -underBinder | with_reducible apply sendQuantum_memWf
      | with_reducible apply State.setCore_memWf | split | simp -zeta only [MemWf.made, MemWf.form])

theorem fullRelease_memWf (s : State) (c : CoreId) (h_s : MemWf s)
    : MemWf (fullRelease s c) := by
  unfold fullRelease
  repeat' (first
      | with_reducible assumption
      | (intro z; refine (fun hz : MemWf z => ?_) ?_; rotate_left; subst z; rotate_right; clear_value z)
      | (intro z; clear_value z) | intro _ | lift_lets -underBinder | with_reducible apply flushCombined_memWf
      | with_reducible apply flushQuantum_memWf | with_reducible apply writeBackLines_memWf
      | with_reducible apply foldl_memWf | with_reducible apply foldlSnd_memWf | with_reducible apply foldlFst_memWf
      | split)

theorem fullAcquire_memWf (s : State) (c : CoreId) (h_s : MemWf s)
    : MemWf (fullAcquire s c) := by
  unfold fullAcquire
  repeat' (first
      | with_reducible assumption
      | (intro z; refine (fun hz : MemWf z => ?_) ?_; rotate_left; subst z; rotate_right; clear_value z)
      | (intro z; clear_value z) | intro _ | lift_lets -underBinder | with_reducible apply dropLines_memWf
      | with_reducible apply writeBackLines_memWf | with_reducible apply foldl_memWf
      | with_reducible apply foldlSnd_memWf | with_reducible apply foldlFst_memWf | split)

theorem signExit_memWf (s : State) (c : CoreId) (isPush : Bool) (tid : BitVec 16) (tile : Nat) (off : Nat) (data :
    List Byte) (h_s : MemWf s)
    : MemWf (signExit s c isPush tid tile off data) := by
  unfold signExit
  repeat' (first
      | with_reducible assumption
      | (intro z; refine (fun hz : MemWf z => ?_) ?_; rotate_left; subst z; rotate_right; clear_value z)
      | (intro z; clear_value z) | intro _ | lift_lets -underBinder | with_reducible apply State.mapHub_memWf | split
      | simp -zeta only [MemWf.made, MemWf.form])

theorem discardGather_memWf (s : State) (c : CoreId) (g : Gather) (h_s : MemWf s)
    : MemWf (discardGather s c g) := by
  unfold discardGather
  repeat' (first
      | with_reducible assumption
      | (intro z; refine (fun hz : MemWf z => ?_) ?_; rotate_left; subst z; rotate_right; clear_value z)
      | (intro z; clear_value z) | intro _ | lift_lets -underBinder | with_reducible apply statRecord_memWf
      | with_reducible apply State.setCore_memWf | split | simp -zeta only [MemWf.made, MemWf.form])

theorem closeGather_memWf (s : State) (c : CoreId) (h_s : MemWf s)
    : MemWf (closeGather s c) := by
  unfold closeGather
  repeat' (first
      | with_reducible assumption
      | (intro z; refine (fun hz : MemWf z => ?_) ?_; rotate_left; subst z; rotate_right; clear_value z)
      | (intro z; clear_value z) | intro _ | lift_lets -underBinder | with_reducible apply discardGather_memWf
      | with_reducible apply State.setCore_memWf | with_reducible apply foldl_memWf
      | with_reducible apply foldlSnd_memWf | with_reducible apply foldlFst_memWf | split
      | simp -zeta only [MemWf.made, MemWf.form])

theorem beginGather_memWf (s : State) (c : CoreId) (g : Gather) (h_s : MemWf s)
    : MemWf (beginGather s c g) := by
  unfold beginGather
  repeat' (first
      | with_reducible assumption
      | (intro z; refine (fun hz : MemWf z => ?_) ?_; rotate_left; subst z; rotate_right; clear_value z)
      | (intro z; clear_value z) | intro _ | lift_lets -underBinder | with_reducible apply discardGather_memWf
      | with_reducible apply State.setCore_memWf | with_reducible apply foldl_memWf
      | with_reducible apply foldlSnd_memWf | with_reducible apply foldlFst_memWf | split
      | simp -zeta only [MemWf.made, MemWf.form])

theorem gatherExit_memWf (s : State) (c : CoreId) (p : Push) (key : Nat) (h_s : MemWf s)
    : MemWf (gatherExit s c p key) := by
  unfold gatherExit
  repeat' (first
      | with_reducible assumption
      | (intro z; refine (fun hz : MemWf z => ?_) ?_; rotate_left; subst z; rotate_right; clear_value z)
      | (intro z; clear_value z) | intro _ | lift_lets -underBinder | with_reducible apply beginGather_memWf
      | with_reducible apply State.setCore_memWf | split | simp -zeta only [MemWf.made, MemWf.form])

theorem State.setChurnChan_memWf (s : State) (d : Dest4) (ch : Channel) (h_s : MemWf s)
    : MemWf (State.setChurnChan s d ch) := by
  unfold State.setChurnChan
  repeat' (first
      | with_reducible assumption
      | (intro z; refine (fun hz : MemWf z => ?_) ?_; rotate_left; subst z; rotate_right; clear_value z)
      | (intro z; clear_value z) | intro _ | lift_lets -underBinder | with_reducible apply State.setCluster_memWf
      | with_reducible apply State.mapHub_memWf | split | simp -zeta only [MemWf.made, MemWf.form])

theorem offerWindow_memWf (s : State) (c : CoreId) (d : Dest4) (h_s : MemWf s)
    : MemWf (offerWindow s c d) := by
  unfold offerWindow
  repeat' (first
      | with_reducible assumption
      | (intro z; refine (fun hz : MemWf z => ?_) ?_; rotate_left; subst z; rotate_right; clear_value z)
      | (intro z; clear_value z) | intro _ | lift_lets -underBinder | with_reducible apply State.due_memWf | split)

theorem enterWindow_memWf (s : State) (c : CoreId) (d : Dest4) (p : Push) (key : Nat) (h_s : MemWf s)
    : MemWf (enterWindow s c d p key) := by
  unfold enterWindow
  repeat' (first
      | with_reducible assumption
      | (intro z; refine (fun hz : MemWf z => ?_) ?_; rotate_left; subst z; rotate_right; clear_value z)
      | (intro z; clear_value z) | intro _ | lift_lets -underBinder | with_reducible apply State.setCore_memWf
      | with_reducible apply offerWindow_memWf | split | simp -zeta only [MemWf.made, MemWf.form])

theorem State.layoutFault_memWf (s : State) (x : Fin 8) (code : Code) (h_s : MemWf s)
    : MemWf (State.layoutFault s x code) := by
  unfold State.layoutFault
  repeat' (first | with_reducible assumption | with_reducible apply State.slotFaultI_memWf | split)

theorem layoutRecord_memWf (s : State) (c : CoreId) (code : Code) (bundle : Word) (info : Word) (h_s : MemWf s)
    : MemWf (layoutRecord s c code bundle info) := by
  unfold layoutRecord
  repeat' (first | with_reducible assumption | with_reducible apply statRecord_memWf | split)

theorem invariantRecords_memWf (s : State) (c : CoreId) (ctx : BitVec 16) (gen : BitVec 8) (bundle : Word) (bs : List
    StoreByte) (h_s : MemWf s)
    : MemWf (invariantRecords s c ctx gen bundle bs) := by
  unfold invariantRecords
  repeat' (first | with_reducible assumption | intro _ | with_reducible apply layoutRecord_memWf | split)

theorem directPush_memWf (s : State) (c : CoreId) (p : Push) (key : Nat) (h_s : MemWf s)
    : MemWf (directPush s c p key) := by
  unfold directPush
  repeat' (first
      | with_reducible assumption
      | (intro z; refine (fun hz : MemWf z => ?_) ?_; rotate_left; subst z; rotate_right; clear_value z)
      | (intro z; clear_value z) | lift_lets -underBinder | with_reducible apply State.due_memWf
      | with_reducible apply State.setTower_memWf | split | simp -zeta only [MemWf.made, MemWf.form])

theorem leaveGate_memWf (s : State) (c : CoreId) (e : GateEntry) (h_s : MemWf s)
    : MemWf (leaveGate s c e) := by
  unfold leaveGate
  repeat' (first
      | with_reducible assumption
      | (intro z; refine (fun hz : MemWf z => ?_) ?_; rotate_left; subst z; rotate_right; clear_value z)
      | (intro z; clear_value z) | intro _ | lift_lets -underBinder | with_reducible apply invariantRecords_memWf
      | with_reducible apply performStore_memWf | with_reducible apply signExit_memWf
      | with_reducible apply offerCombined_memWf | with_reducible apply dropHome_memWf
      | with_reducible apply addQuantum_memWf | with_reducible apply State.setCore_memWf
      | with_reducible apply gatherExit_memWf | with_reducible apply fullRelease_memWf
      | with_reducible apply enterWindow_memWf | with_reducible apply directPush_memWf | split)

theorem leaveAll_memWf (c : CoreId) (x1 : List GateEntry) (x2 : State) (h_x2 : MemWf x2)
    : MemWf (leaveAll c x1 x2).1 := by
  revert h_x2
  fun_induction leaveAll c x1 x2 <;> intros
  all_goals
    repeat' (first
      | with_reducible assumption | (with_reducible apply_assumption) | with_reducible apply leaveGate_memWf
      | (with_reducible refine of_first ‹_› ?_; first | with_reducible assumption | with_reducible apply_assumption)
      | split | dsimp only)

theorem emptyGate_memWf (s : State) (c : CoreId) (h_s : MemWf s)
    : MemWf (emptyGate s c) := by
  unfold emptyGate
  repeat' (first
      | with_reducible assumption
      | (intro z; refine (fun hz : MemWf z => ?_) ?_; rotate_left; subst z; rotate_right; clear_value z)
      | (intro z; refine (fun hz : MemWf z.1 => ?_) ?_; rotate_left; subst z; rotate_right; clear_value z)
      | (intro z; clear_value z) | lift_lets -underBinder | with_reducible apply leaveAll_memWf
      | with_reducible apply State.setCore_memWf
      | (with_reducible refine of_first ‹_› ?_; first | with_reducible assumption | with_reducible apply leaveAll_memWf)
      | split)

theorem emptyFreed_memWf (s : State) (c : CoreId) (h_s : MemWf s)
    : MemWf (emptyFreed s c) := by
  unfold emptyFreed
  repeat' (first
      | with_reducible assumption
      | (intro z; refine (fun hz : MemWf z => ?_) ?_; rotate_left; subst z; rotate_right; clear_value z)
      | (intro z; refine (fun hz : MemWf z.1 => ?_) ?_; rotate_left; subst z; rotate_right; clear_value z)
      | (intro z; clear_value z) | intro _ | lift_lets -underBinder | with_reducible apply leaveAll_memWf
      | with_reducible apply State.setCore_memWf
      | (with_reducible refine of_first ‹_› ?_; first | with_reducible assumption | with_reducible apply leaveAll_memWf)
      | split | simp -zeta only [MemWf.made, MemWf.form])

theorem State.enterGate_memWf (s : State) (e : GateEntry) (h_s : MemWf s)
    : MemWf (State.enterGate s e) := by
  unfold State.enterGate
  repeat' (first
      | with_reducible assumption | with_reducible apply State.setMe_memWf | split
      | simp -zeta only [MemWf.made, MemWf.form])

theorem completeAcquire_memWf (s : State) (c : CoreId) (word : Word) (h_s : MemWf s)
    : MemWf (completeAcquire s c word) := by
  unfold completeAcquire
  repeat' (first
      | with_reducible assumption
      | (intro z; refine (fun hz : MemWf z => ?_) ?_; rotate_left; subst z; rotate_right; clear_value z)
      | (intro z; clear_value z) | intro _ | lift_lets -underBinder | with_reducible apply dropLines_memWf
      | with_reducible apply writeBackLines_memWf | with_reducible apply State.setCore_memWf
      | with_reducible apply foldl_memWf | with_reducible apply foldlSnd_memWf | with_reducible apply foldlFst_memWf
      | split | simp -zeta only [MemWf.made, MemWf.form])

theorem grantHead_memWf (s : State) (t : TowerId) (key : Nat) (h_s : MemWf s) {st' : State} :
    (grantHead s t key) = some st' →
    MemWf st' := by
  unfold grantHead
  repeat' (first
      | with_reducible assumption
      | (intro z; refine (fun hz : MemWf z => ?_) ?_; rotate_left; subst z; rotate_right; clear_value z)
      | with_reducible refine some_memWf ?_ | with_reducible exact none_memWf | (intro z; clear_value z)
      | lift_lets -underBinder | with_reducible apply writeWord_memWf | with_reducible apply completeAcquire_memWf
      | with_reducible apply State.setTower_memWf | with_reducible apply State.due_memWf | split)

theorem grantWaiters_memWf (t : TowerId) (key : Nat) : ∀ (n : Nat) (s : State), MemWf s → MemWf (grantWaiters t key n s)
  | 0, _, h => h
  | n + 1, s, h => by
    unfold grantWaiters
    split
    · exact grantWaiters_memWf t key n _ (grantHead_memWf _ _ _ h ‹_›)
    · exact h

theorem rePresent_memWf (s : State) (c : CoreId) (p : PopRec) (h_s : MemWf s)
    : MemWf (rePresent s c p) := by
  unfold rePresent
  repeat' (first
      | with_reducible assumption
      | (intro z; refine (fun hz : MemWf z => ?_) ?_; rotate_left; subst z; rotate_right; clear_value z)
      | (intro z; clear_value z) | intro _ | lift_lets -underBinder | with_reducible apply State.setCore_memWf
      | with_reducible apply State.setTower_memWf | with_reducible apply State.mapHub_memWf | split
      | simp -zeta only [MemWf.made, MemWf.form])

theorem leaveWaiters_memWf (s : State) (t : TowerId) (p : SyncWait → Bool) (h_s : MemWf s)
    : MemWf (leaveWaiters s t p) := by
  unfold leaveWaiters
  repeat' (first
      | with_reducible assumption
      | (intro z; refine (fun hz : MemWf z => ?_) ?_; rotate_left; subst z; rotate_right; clear_value z)
      | (intro z; clear_value z) | intro _ | lift_lets -underBinder | with_reducible apply grantWaiters_memWf
      | with_reducible apply State.setTower_memWf | with_reducible apply foldl_memWf
      | with_reducible apply foldlSnd_memWf | with_reducible apply foldlFst_memWf | split
      | simp -zeta only [MemWf.made, MemWf.form])

theorem cancelAcquire_memWf (s : State) (c : CoreId) (h_s : MemWf s)
    : MemWf (cancelAcquire s c) := by
  unfold cancelAcquire
  repeat' (first | with_reducible assumption | intro _ | with_reducible apply leaveWaiters_memWf | split)

theorem undoBundle_memWf (s : State) (c : CoreId) (h_s : MemWf s)
    : MemWf (undoBundle s c) := by
  unfold undoBundle
  repeat' (first
      | with_reducible assumption
      | (intro z; refine (fun hz : MemWf z => ?_) ?_; rotate_left; subst z; rotate_right; clear_value z)
      | (intro z; clear_value z) | intro _ | lift_lets -underBinder | with_reducible apply dropWalked_memWf
      | with_reducible apply cancelAcquire_memWf | with_reducible apply rePresent_memWf
      | with_reducible apply State.setCore_memWf | with_reducible apply foldl_memWf
      | with_reducible apply foldlSnd_memWf | with_reducible apply foldlFst_memWf | split
      | simp -zeta only [MemWf.made, MemWf.form])

theorem rollback_memWf (s : State) (c : CoreId) (h_s : MemWf s)
    : MemWf (rollback s c) := by
  unfold rollback
  repeat' (first
      | with_reducible assumption
      | (intro z; refine (fun hz : MemWf z => ?_) ?_; rotate_left; subst z; rotate_right; clear_value z)
      | (intro z; clear_value z) | lift_lets -underBinder | with_reducible apply undoBundle_memWf
      | with_reducible apply State.setCore_memWf | split | simp -zeta only [MemWf.made, MemWf.form])

theorem establishMark_memWf (s : State) (c : CoreId) (h_s : MemWf s)
    : MemWf (establishMark s c) := by
  unfold establishMark
  repeat' (first
      | with_reducible assumption
      | (intro z; refine (fun hz : MemWf z => ?_) ?_; rotate_left; subst z; rotate_right; clear_value z)
      | (intro z; clear_value z) | intro _ | lift_lets -underBinder | with_reducible apply emptyGate_memWf
      | with_reducible apply State.setCore_memWf | split | simp -zeta only [MemWf.made, MemWf.form])

/-! ### CurdTables -/

theorem writeLane_memWf (s : State) (t : TowerId) (u : Nat) (row : Nat) (col : Nat) (v : Nat) (h_s : MemWf s)
    : MemWf (writeLane s t u row col v) := by
  unfold writeLane
  repeat' (first | with_reducible assumption | simp -zeta only [MemWf.made, MemWf.form])

theorem fillDirectory_memWf (s : State) (t : TowerId) (i : Nat) (h_s : MemWf s)
    : MemWf (fillDirectory s t i) := by
  unfold fillDirectory
  repeat' (first
      | with_reducible assumption
      | (intro z; refine (fun hz : MemWf z => ?_) ?_; rotate_left; subst z; rotate_right; clear_value z)
      | (intro z; clear_value z) | intro _ | lift_lets -underBinder | with_reducible apply touchHome_memWf
      | with_reducible apply State.setTower_memWf | split | simp -zeta only [MemWf.made, MemWf.form])

theorem useDirectory_memWf (s : State) (t : TowerId) (i : Nat) (h_s : MemWf s)
    : MemWf (useDirectory s t i) := by
  unfold useDirectory
  repeat' (first
      | with_reducible assumption
      | (intro z; refine (fun hz : MemWf z => ?_) ?_; rotate_left; subst z; rotate_right; clear_value z)
      | (intro z; clear_value z) | intro _ | lift_lets -underBinder | with_reducible apply State.setTower_memWf
      | split | simp -zeta only [MemWf.made, MemWf.form])

theorem laneRecords_memWf (s : State) (t : TowerId) (q : Query) (e : BitVec 256) (h_s : MemWf s)
    : MemWf (laneRecords s t q e) := by
  unfold laneRecords
  repeat' (first
      | with_reducible assumption
      | (intro z; refine (fun hz : MemWf z => ?_) ?_; rotate_left; subst z; rotate_right; clear_value z)
      | (intro z; clear_value z) | intro _ | lift_lets -underBinder | with_reducible apply statRecord_memWf | split)

theorem answerQuery_memWf (s : State) (t : TowerId) (q : Query) (h_s : MemWf s)
    : MemWf (answerQuery s t q).2 := by
  unfold answerQuery
  repeat' (first
      | with_reducible assumption
      | (intro z; refine (fun hz : MemWf z => ?_) ?_; rotate_left; subst z; rotate_right; clear_value z)
      | (intro z; clear_value z) | lift_lets -underBinder | with_reducible apply statRecord_memWf
      | with_reducible apply laneRecords_memWf | split)

theorem takePort_memWf (s : State) (t : TowerId) (q : Query) (h_s : MemWf s)
    : MemWf (takePort s t q) := by
  unfold takePort
  repeat' (first
      | with_reducible assumption
      | (intro z; refine (fun hz : MemWf z => ?_) ?_; rotate_left; subst z; rotate_right; clear_value z)
      | (intro z; clear_value z) | lift_lets -underBinder | with_reducible apply State.setTower_memWf | split
      | simp -zeta only [MemWf.made, MemWf.form])

theorem deliverAnswers_memWf (s : State) (c : CoreId) (x1 : List Query) (h_s : MemWf s)
    : MemWf (deliverAnswers s c x1) := by
  induction x1 generalizing s with
  | nil => exact h_s
  | cons q qs ih =>
    unfold deliverAnswers
    repeat' (first
      | with_reducible assumption
      | (intro z; refine (fun hz : MemWf z => ?_) ?_; rotate_left; subst z; rotate_right; clear_value z)
      | (intro z; clear_value z) | lift_lets -underBinder | with_reducible apply ih
      | with_reducible apply State.setTower_memWf | with_reducible apply State.setCore_memWf | split)

theorem settleQueries_memWf (s : State) (c : CoreId) (h_s : MemWf s)
    : MemWf (settleQueries s c).1 := by
  unfold settleQueries
  repeat' (first
      | with_reducible assumption
      | (intro z; refine (fun hz : MemWf z => ?_) ?_; rotate_left; subst z; rotate_right; clear_value z)
      | (intro z; clear_value z) | intro _ | lift_lets -underBinder | with_reducible apply deliverAnswers_memWf
      | with_reducible apply State.setTower_memWf | split | simp -zeta only [MemWf.made, MemWf.form])

/-! ### Passes -/

theorem calibrate_memWf (s : State) (t : TowerId) (p : Nat) (h_s : MemWf s)
    : MemWf (calibrate s t p) := by
  unfold calibrate
  repeat' (first
      | with_reducible assumption
      | (intro z; refine (fun hz : MemWf z => ?_) ?_; rotate_left; subst z; rotate_right; clear_value z)
      | (intro z; clear_value z) | intro _ | lift_lets -underBinder | with_reducible apply State.setCore_memWf
      | with_reducible apply foldl_memWf | with_reducible apply foldlSnd_memWf | with_reducible apply foldlFst_memWf
      | with_reducible apply upTo_memWf | split | simp -zeta only [MemWf.made, MemWf.form])

theorem performPromo_memWf (s : State) (c : CoreId) (p : Promo) (h_s : MemWf s)
    : MemWf (performPromo s c p) := by
  unfold performPromo
  repeat' (first
      | with_reducible assumption
      | (intro z; refine (fun hz : MemWf z => ?_) ?_; rotate_left; subst z; rotate_right; clear_value z)
      | (intro z; clear_value z) | intro _ | lift_lets -underBinder | with_reducible apply State.setCore_memWf
      | with_reducible apply foldl_memWf | with_reducible apply foldlSnd_memWf | with_reducible apply foldlFst_memWf
      | split | simp -zeta only [MemWf.made, MemWf.form])

theorem startPromo_memWf (s : State) (c : CoreId) (h_s : MemWf s)
    : MemWf (startPromo s c) := by
  unfold startPromo
  repeat' (first
      | with_reducible assumption
      | (intro z; refine (fun hz : MemWf z => ?_) ?_; rotate_left; subst z; rotate_right; clear_value z)
      | (intro z; clear_value z) | lift_lets -underBinder | with_reducible apply State.setCore_memWf | split
      | simp -zeta only [MemWf.made, MemWf.form])

theorem promoteEarly_memWf (s : State) (c : CoreId) (cause : Nat) (h_s : MemWf s)
    : MemWf (promoteEarly s c cause) := by
  unfold promoteEarly
  repeat' (first
      | with_reducible assumption
      | (intro z; refine (fun hz : MemWf z => ?_) ?_; rotate_left; subst z; rotate_right; clear_value z)
      | (intro z; clear_value z) | lift_lets -underBinder | with_reducible apply startPromo_memWf
      | with_reducible apply statRecord_memWf | split)

theorem performPromos_memWf (s : State) (c : CoreId) (h_s : MemWf s)
    : MemWf (performPromos s c) := by
  unfold performPromos
  repeat' (first
      | with_reducible assumption
      | (intro z; refine (fun hz : MemWf z => ?_) ?_; rotate_left; subst z; rotate_right; clear_value z)
      | (intro z; clear_value z) | intro _ | lift_lets -underBinder | with_reducible apply performPromo_memWf
      | with_reducible apply State.setCore_memWf | with_reducible apply foldl_memWf
      | with_reducible apply foldlSnd_memWf | with_reducible apply foldlFst_memWf | split)

theorem passRecords_memWf (s : State) (c : CoreId) (p : Pass) (r : PassSums) (storm : Bool) (w : Word) (f : Flags)
    (h_s : MemWf s)
    : MemWf (passRecords s c p r storm w f) := by
  unfold passRecords
  repeat' (first
      | with_reducible assumption
      | (intro z; refine (fun hz : MemWf z => ?_) ?_; rotate_left; subst z; rotate_right; clear_value z)
      | (intro z; clear_value z) | intro _ | lift_lets -underBinder | with_reducible apply statRecord_memWf
      | with_reducible apply State.setCore_memWf | with_reducible apply foldl_memWf
      | with_reducible apply foldlSnd_memWf | with_reducible apply foldlFst_memWf | split)

theorem finishPass_memWf (s : State) (c : CoreId) (p : Pass) (r : PassSums) (storm : Bool) (h_s : MemWf s)
    : MemWf (finishPass s c p r storm) := by
  unfold finishPass
  repeat' (first
      | with_reducible assumption
      | (intro z; refine (fun hz : MemWf z => ?_) ?_; rotate_left; subst z; rotate_right; clear_value z)
      | (intro z; clear_value z) | intro _ | lift_lets -underBinder | with_reducible apply passRecords_memWf
      | with_reducible apply State.setCore_memWf | with_reducible apply startPromo_memWf | split
      | simp -zeta only [MemWf.made, MemWf.form])

theorem drainMatrix_memWf (s : State) (c : CoreId) (h_s : MemWf s)
    : MemWf (drainMatrix s c) := by
  unfold drainMatrix
  repeat' (first
      | with_reducible assumption
      | (intro z; refine (fun hz : MemWf z => ?_) ?_; rotate_left; subst z; rotate_right; clear_value z)
      | (intro z; clear_value z) | intro _ | lift_lets -underBinder | with_reducible apply State.setCore_memWf
      | with_reducible apply finishPass_memWf | with_reducible apply performPromos_memWf
      | with_reducible apply foldl_memWf | with_reducible apply foldlSnd_memWf | with_reducible apply foldlFst_memWf
      | split | simp -zeta only [MemWf.made, MemWf.form])

/-! ### Ops -/

theorem writeWords_memWf (s : State) (key : Nat) (x1 : List Word) (h_s : MemWf s)
    : MemWf (writeWords s key x1) := by
  revert h_s
  fun_induction writeWords s key x1 <;> intros
  all_goals
    repeat' (first
      | with_reducible assumption | (with_reducible apply_assumption) | with_reducible apply writeWord_memWf | split
      | dsimp only)

theorem writeItems_memWf (s : State) (key : Nat) (n : Nat) (x1 : List Nat) (h_s : MemWf s)
    : MemWf (writeItems s key n x1) := by
  revert h_s
  fun_induction writeItems s key n x1 <;> intros
  all_goals
    repeat' (first
      | with_reducible assumption | (with_reducible apply_assumption) | with_reducible apply writeNat_memWf | split
      | dsimp only)

theorem saveCommon_memWf (s : State) (c : CoreId) (base : Nat) (h : SaveKind) (h_s : MemWf s)
    : MemWf (saveCommon s c base h) := by
  unfold saveCommon
  repeat' (first
      | with_reducible assumption
      | (intro z; refine (fun hz : MemWf z => ?_) ?_; rotate_left; subst z; rotate_right; clear_value z)
      | (intro z; clear_value z) | lift_lets -underBinder | with_reducible apply writeNat_memWf
      | with_reducible apply writeWords_memWf | with_reducible apply writeItems_memWf | split)

theorem saveZ_memWf (s : State) (c : CoreId) (base : Nat) (h_s : MemWf s)
    : MemWf (saveZ s c base) := by
  unfold saveZ
  repeat' (first
      | with_reducible assumption
      | (intro z; refine (fun hz : MemWf z => ?_) ?_; rotate_left; subst z; rotate_right; clear_value z)
      | (intro z; clear_value z) | intro _ | lift_lets -underBinder | with_reducible apply writeNat_memWf
      | with_reducible apply foldl_memWf | with_reducible apply foldlSnd_memWf | with_reducible apply foldlFst_memWf
      | split)

theorem saveGroup_memWf (s : State) (c : CoreId) (base : Nat) (g : Group) (h_s : MemWf s)
    : MemWf (saveGroup s c base g) := by
  unfold saveGroup
  repeat' (first
      | with_reducible assumption
      | (intro z; refine (fun hz : MemWf z => ?_) ?_; rotate_left; subst z; rotate_right; clear_value z)
      | (intro z; clear_value z) | intro _ | lift_lets -underBinder | with_reducible apply writeNat_memWf
      | with_reducible apply foldl_memWf | with_reducible apply foldlSnd_memWf | with_reducible apply foldlFst_memWf
      | split | simp -zeta only [MemWf.made, MemWf.form])

theorem keepAside_memWf (s : State) (base : Nat) (k : Core) (pushes : List (Push × Nat)) (h_s : MemWf s)
    : MemWf (keepAside s base k pushes) := by
  unfold keepAside
  repeat' (first
      | with_reducible assumption
      | (intro z; refine (fun hz : MemWf z => ?_) ?_; rotate_left; subst z; rotate_right; clear_value z)
      | (intro z; clear_value z) | intro _ | lift_lets -underBinder | split | simp -zeta only [MemWf.made, MemWf.form])

theorem saveForced_memWf (s : State) (c : CoreId) (base : Nat) (h : SaveKind) (pushes : List (Push × Nat)) (h_s :
    MemWf s)
    : MemWf (saveForced s c base h pushes) := by
  unfold saveForced
  repeat' (first
      | with_reducible assumption
      | (intro z; refine (fun hz : MemWf z => ?_) ?_; rotate_left; subst z; rotate_right; clear_value z)
      | (intro z; clear_value z) | intro _ | lift_lets -underBinder | with_reducible apply saveCommon_memWf
      | with_reducible apply keepAside_memWf | with_reducible apply State.setCore_memWf
      | with_reducible apply writeWords_memWf | with_reducible apply writeItems_memWf
      | with_reducible apply writeNat_memWf | with_reducible apply saveGroup_memWf | with_reducible apply saveZ_memWf
      | with_reducible apply foldl_memWf | with_reducible apply foldlSnd_memWf | with_reducible apply foldlFst_memWf
      | split | simp -zeta only [MemWf.made, MemWf.form])

theorem goIdle_memWf (s : State) (c : CoreId) (h_s : MemWf s)
    : MemWf (goIdle s c) := by
  unfold goIdle
  repeat' (first
      | with_reducible assumption
      | (intro z; refine (fun hz : MemWf z => ?_) ?_; rotate_left; subst z; rotate_right; clear_value z)
      | (intro z; clear_value z) | intro _ | lift_lets -underBinder | with_reducible apply dropWalked_memWf
      | with_reducible apply State.setTower_memWf | with_reducible apply State.setCore_memWf | split
      | simp -zeta only [MemWf.made, MemWf.form])

theorem goIdleDisplaced_memWf (s : State) (c : CoreId) (h_s : MemWf s)
    : MemWf (goIdleDisplaced s c) := by
  unfold goIdleDisplaced
  repeat' (first
      | with_reducible assumption
      | (intro z; refine (fun hz : MemWf z => ?_) ?_; rotate_left; subst z; rotate_right; clear_value z)
      | (intro z; clear_value z) | intro _ | lift_lets -underBinder | with_reducible apply goIdle_memWf
      | with_reducible apply State.setCore_memWf | split)

theorem drainGate_memWf (s : State) (c : CoreId) (h_s : MemWf s)
    : MemWf (drainGate s c).1 := by
  unfold drainGate
  repeat' (first
      | with_reducible assumption
      | (intro z; refine (fun hz : MemWf z => ?_) ?_; rotate_left; subst z; rotate_right; clear_value z)
      | (intro z; refine (fun hz : MemWf z.1 => ?_) ?_; rotate_left; subst z; rotate_right; clear_value z)
      | (intro z; clear_value z) | intro _ | lift_lets -underBinder | with_reducible apply leaveGate_memWf
      | with_reducible apply settleQueries_memWf | with_reducible apply State.setCore_memWf
      | with_reducible apply foldl_memWf | with_reducible apply foldlSnd_memWf | with_reducible apply foldlFst_memWf
      | (with_reducible refine of_first ‹_› ?_; first | with_reducible assumption | with_reducible apply settleQueries_memWf)
      | split | simp -zeta only [MemWf.made, MemWf.form])

theorem endWithFault_memWf (s : State) (c : CoreId) (f0 : FaultInfo) (h_s : MemWf s)
    : MemWf (endWithFault s c f0) := by
  unfold endWithFault
  repeat' (first
      | with_reducible assumption
      | (intro z; refine (fun hz : MemWf z => ?_) ?_; rotate_left; subst z; rotate_right; clear_value z)
      | (intro z; refine (fun hz : MemWf z.1 => ?_) ?_; rotate_left; subst z; rotate_right; clear_value z)
      | (intro z; clear_value z) | lift_lets -underBinder | with_reducible apply goIdle_memWf
      | with_reducible apply drainMatrix_memWf | with_reducible apply drainGate_memWf
      | with_reducible apply fullRelease_memWf | with_reducible apply State.setCore_memWf
      | with_reducible apply saveForced_memWf | with_reducible apply writeNat_memWf
      | with_reducible apply faultNode_memWf | with_reducible apply goIdleDisplaced_memWf
      | (with_reducible refine of_first ‹_› ?_; first | with_reducible assumption | with_reducible apply drainGate_memWf)
      | split | simp -zeta only [MemWf.made, MemWf.form])

theorem forcedStop_memWf (s : State) (c : CoreId) (h_s : MemWf s)
    : MemWf (forcedStop s c) := by
  unfold forcedStop
  repeat' (first
      | with_reducible assumption
      | (intro z; refine (fun hz : MemWf z => ?_) ?_; rotate_left; subst z; rotate_right; clear_value z)
      | (intro z; refine (fun hz : MemWf z.1 => ?_) ?_; rotate_left; subst z; rotate_right; clear_value z)
      | (intro z; clear_value z) | lift_lets -underBinder | with_reducible apply undoBundle_memWf
      | with_reducible apply drainGate_memWf | with_reducible apply drainMatrix_memWf
      | with_reducible apply flushQuantum_memWf | with_reducible apply saveForced_memWf
      | with_reducible apply goIdleDisplaced_memWf | with_reducible apply State.setTower_memWf
      | (with_reducible refine of_first ‹_› ?_; first | with_reducible assumption | with_reducible apply drainGate_memWf)
      | split)

theorem partitionStop_memWf (s : State) (d : CoreId) (h_s : MemWf s)
    : MemWf (partitionStop s d) := by
  unfold partitionStop
  repeat' (first
      | with_reducible assumption
      | (intro z; refine (fun hz : MemWf z => ?_) ?_; rotate_left; subst z; rotate_right; clear_value z)
      | (intro z; clear_value z) | lift_lets -underBinder | with_reducible apply undoBundle_memWf
      | with_reducible apply endWithFault_memWf | split)

theorem takeFault_memWf (s : State) (c : CoreId) (f : FaultInfo) (h_s : MemWf s)
    : MemWf (takeFault s c f) := by
  unfold takeFault
  repeat' (first
      | with_reducible assumption
      | (intro z; refine (fun hz : MemWf z => ?_) ?_; rotate_left; subst z; rotate_right; clear_value z)
      | (intro z; clear_value z) | intro _ | lift_lets -underBinder | with_reducible apply partitionStop_memWf
      | with_reducible apply endWithFault_memWf | with_reducible apply foldl_memWf
      | with_reducible apply foldlSnd_memWf | with_reducible apply foldlFst_memWf | split)

theorem takePrecise_memWf (s : State) (c : CoreId) (h_s : MemWf s)
    : MemWf (takePrecise s c) := by
  unfold takePrecise
  repeat' (first
      | with_reducible assumption
      | (intro z; refine (fun hz : MemWf z => ?_) ?_; rotate_left; subst z; rotate_right; clear_value z)
      | (intro z; clear_value z) | intro _ | lift_lets -underBinder | with_reducible apply takeFault_memWf
      | with_reducible apply undoBundle_memWf | split)

theorem takeRefused_memWf (s : State) (c : CoreId) (x : Fin 8) (code : Code) (info : Word) (h_s : MemWf s)
    : MemWf (takeRefused s c x code info) := by
  unfold takeRefused
  repeat' (first
      | with_reducible assumption
      | (intro z; refine (fun hz : MemWf z => ?_) ?_; rotate_left; subst z; rotate_right; clear_value z)
      | (intro z; clear_value z) | lift_lets -underBinder | with_reducible apply takeFault_memWf
      | with_reducible apply rollback_memWf | split)

theorem takeEngine_memWf (s : State) (c : CoreId) (f : FaultInfo) (h_s : MemWf s)
    : MemWf (takeEngine s c f) := by
  unfold takeEngine
  repeat' (first
      | with_reducible assumption | with_reducible apply takeFault_memWf | with_reducible apply undoBundle_memWf
      | split | simp -zeta only [MemWf.made, MemWf.form])

theorem waitTransit_memWf (s : State) (c : CoreId) (x : Fin 8) (info : Word) (h_s : MemWf s)
    : MemWf (waitTransit s c x info) := by
  unfold waitTransit
  repeat' (first
      | with_reducible assumption
      | (intro z; refine (fun hz : MemWf z => ?_) ?_; rotate_left; subst z; rotate_right; clear_value z)
      | (intro z; clear_value z) | lift_lets -underBinder | with_reducible apply layoutRecord_memWf
      | with_reducible apply rollback_memWf | with_reducible apply State.setCore_memWf | split)

/-! ### Restore -/

theorem startYield_memWf (s : State) (c : CoreId) (e : YieldEntry) (st : BitVec 4) (h : SaveKind) (h_s : MemWf s)
    : MemWf (startYield s c e st h) := by
  unfold startYield
  repeat' (first
      | with_reducible assumption
      | (intro z; refine (fun hz : MemWf z => ?_) ?_; rotate_left; subst z; rotate_right; clear_value z)
      | (intro z; clear_value z) | lift_lets -underBinder | with_reducible apply fullRelease_memWf
      | with_reducible apply closeGather_memWf | with_reducible apply performPromos_memWf
      | with_reducible apply promoteEarly_memWf | with_reducible apply drainMatrix_memWf
      | with_reducible apply saveCommon_memWf | with_reducible apply State.setCore_memWf | split
      | simp -zeta only [MemWf.made, MemWf.form])

theorem endRestore_memWf (s : State) (c : CoreId) (h_s : MemWf s)
    : MemWf (endRestore s c) := by
  unfold endRestore
  repeat' (first
      | with_reducible assumption
      | (intro z; refine (fun hz : MemWf z => ?_) ?_; rotate_left; subst z; rotate_right; clear_value z)
      | (intro z; clear_value z) | lift_lets -underBinder | with_reducible apply State.setCore_memWf | split
      | simp -zeta only [MemWf.made, MemWf.form])

theorem discardResults_memWf (s : State) (c : CoreId) (h_s : MemWf s)
    : MemWf (discardResults s c) := by
  unfold discardResults
  repeat' (first
      | with_reducible assumption
      | (intro z; refine (fun hz : MemWf z => ?_) ?_; rotate_left; subst z; rotate_right; clear_value z)
      | (intro z; clear_value z) | lift_lets -underBinder | with_reducible apply deliverAnswers_memWf
      | with_reducible apply statRecord_memWf | split)

theorem saveEnd_memWf (s : State) (c : CoreId) (base : Nat) (st : BitVec 4) (h_s : MemWf s)
    : MemWf (saveEnd s c base st) := by
  unfold saveEnd
  repeat' (first
      | with_reducible assumption
      | (intro z; refine (fun hz : MemWf z => ?_) ?_; rotate_left; subst z; rotate_right; clear_value z)
      | (intro z; clear_value z) | lift_lets -underBinder | with_reducible apply writeNat_memWf
      | with_reducible apply writeWords_memWf | with_reducible apply writeItems_memWf | split
      | simp -zeta only [MemWf.made, MemWf.form])

theorem endSave_memWf (s : State) (c : CoreId) (st : BitVec 4) (h_s : MemWf s)
    : MemWf (endSave s c st) := by
  unfold endSave
  repeat' (first
      | with_reducible assumption
      | (intro z; refine (fun hz : MemWf z => ?_) ?_; rotate_left; subst z; rotate_right; clear_value z)
      | (intro z; clear_value z) | lift_lets -underBinder | with_reducible apply goIdle_memWf
      | with_reducible apply discardResults_memWf | with_reducible apply fullRelease_memWf
      | with_reducible apply goIdleDisplaced_memWf | with_reducible apply leaveRecord_memWf
      | with_reducible apply saveEnd_memWf | split)

theorem restoreForced_memWf (s : State) (c : CoreId) (base : Nat) (h : SaveHead) (h_s : MemWf s)
    : MemWf (restoreForced s c base h) := by
  unfold restoreForced
  repeat' (first
      | with_reducible assumption
      | (intro z; refine (fun hz : MemWf z => ?_) ?_; rotate_left; subst z; rotate_right; clear_value z)
      | (intro z; clear_value z) | intro _ | lift_lets -underBinder | with_reducible apply State.setCore_memWf
      | with_reducible apply foldl_memWf | with_reducible apply foldlSnd_memWf | with_reducible apply foldlFst_memWf
      | split | simp -zeta only [MemWf.made, MemWf.form])

theorem restoreYield_memWf (s : State) (c : CoreId) (base : Nat) (h : SaveHead) (e : YieldEntry) (saveFlat : Word)
    (h_s : MemWf s)
    : MemWf (restoreYield s c base h e saveFlat) := by
  unfold restoreYield
  repeat' (first
      | with_reducible assumption
      | (intro z; refine (fun hz : MemWf z => ?_) ?_; rotate_left; subst z; rotate_right; clear_value z)
      | (intro z; clear_value z) | lift_lets -underBinder | with_reducible apply State.setCore_memWf | split
      | simp -zeta only [MemWf.made, MemWf.form])

/-! ### Rennet -/

theorem rennetKey_memWf (s : State) (t : TowerId) (ctx : BitVec 16) (gen : BitVec 8) (a : Word) (n : Nat) (h_s :
    MemWf s)
    : MemWf (rennetKey s t ctx gen a n).2 := by
  unfold rennetKey
  repeat' (first
      | with_reducible assumption
      | (intro z; refine (fun hz : MemWf z => ?_) ?_; rotate_left; subst z; rotate_right; clear_value z)
      | (intro z; refine (fun hz : MemWf z.2 => ?_) ?_; rotate_left; subst z; rotate_right; clear_value z)
      | (intro z; clear_value z) | lift_lets -underBinder | with_reducible apply flatKeyOf_memWf
      | (with_reducible refine of_second ‹_› ?_; first | with_reducible assumption | with_reducible apply flatKeyOf_memWf)
      | split)

theorem rennetList_memWf (t : TowerId) (ctx : BitVec 16) (gen : BitVec 8) (a : Word) (x1 : Nat) (x2 : State) (h_x2 :
    MemWf x2)
    : MemWf (rennetList t ctx gen a x1 x2).2 := by
  revert h_x2
  fun_induction rennetList t ctx gen a x1 x2 <;> intros
  all_goals
    repeat' (first
      | with_reducible assumption | (with_reducible apply_assumption)
      | (intro z; refine (fun hz : MemWf z => ?_) ?_; rotate_left; subst z; rotate_right; clear_value z)
      | (intro z; refine (fun hz : MemWf z.2 => ?_) ?_; rotate_left; subst z; rotate_right; clear_value z)
      | (intro z; clear_value z) | lift_lets -underBinder | with_reducible apply rennetKey_memWf
      | (with_reducible refine of_second ‹_› ?_; first | with_reducible assumption | with_reducible apply_assumption | with_reducible apply rennetKey_memWf)
      | split | dsimp only)

theorem pushReady_memWf (s : State) (t : TowerId) (home : TowerId) (e : ReadyEntry) (h_s : MemWf s)
    : MemWf (pushReady s t home e) := by
  unfold pushReady
  repeat' (first
      | with_reducible assumption
      | (intro z; refine (fun hz : MemWf z => ?_) ?_; rotate_left; subst z; rotate_right; clear_value z)
      | (intro z; clear_value z) | lift_lets -underBinder | with_reducible apply faultInstance_memWf
      | with_reducible apply State.setTower_memWf | split | simp -zeta only [MemWf.made, MemWf.form])

theorem keepOffer_memWf (s : State) (t : TowerId) (x : Offer) (h_s : MemWf s)
    : MemWf (keepOffer s t x) := by
  unfold keepOffer
  repeat' (first | with_reducible assumption | with_reducible apply State.setTower_memWf | split)

theorem offerRecord_memWf (s : State) (t : TowerId) (x : Offer) (h_s : MemWf s)
    : MemWf (offerRecord s t x) := by
  unfold offerRecord
  repeat' (first
      | with_reducible assumption
      | (intro z; refine (fun hz : MemWf z => ?_) ?_; rotate_left; subst z; rotate_right; clear_value z)
      | (intro z; refine (fun hz : MemWf z.2 => ?_) ?_; rotate_left; subst z; rotate_right; clear_value z)
      | (intro z; refine (fun hz : z.Wf => ?_) ?_; rotate_left; subst z; rotate_right; clear_value z) | exact hz
      | (intro z; refine (fun hfun : ∀ a0 a1, MemWf a0 → MemWf (z a0 a1) => ?_) ?_; rotate_left; subst z; rotate_right; clear_value z)
      | (intro z; clear_value z) | intro _ | lift_lets -underBinder | with_reducible apply keepOffer_memWf
      | with_reducible apply faultRecord_memWf | with_reducible apply rennetKey_memWf
      | with_reducible apply ringPut_memWf | with_reducible apply raise_memWf | with_reducible apply hfun | intro _
      | with_reducible apply foldl_memWf | with_reducible apply foldlSnd_memWf | with_reducible apply foldlFst_memWf
      | with_reducible refine RingResult.of_taken ‹_› ?_ | with_reducible refine RingResult.of_full ‹_› ?_
      | (with_reducible refine of_second ‹_› ?_; first | with_reducible assumption | with_reducible apply rennetKey_memWf)
      | split | simp -zeta only [MemWf.made, MemWf.form])

theorem offerInstance_memWf (s : State) (t : TowerId) (a : Armed) (status : Nat) (h_s : MemWf s)
    : MemWf (offerInstance s t a status) := by
  unfold offerInstance
  repeat' (first
      | with_reducible assumption
      | (intro z; refine (fun hz : MemWf z => ?_) ?_; rotate_left; subst z; rotate_right; clear_value z)
      | (intro z; clear_value z) | lift_lets -underBinder | with_reducible apply offerRecord_memWf | split)

theorem disarm_memWf (s : State) (t : TowerId) (p : Armed → Bool) (h_s : MemWf s)
    : MemWf (disarm s t p) := by
  unfold disarm
  repeat' (first
      | with_reducible assumption
      | (intro z; refine (fun hz : MemWf z => ?_) ?_; rotate_left; subst z; rotate_right; clear_value z)
      | (intro z; clear_value z) | intro _ | lift_lets -underBinder | with_reducible apply State.setTower_memWf
      | with_reducible apply State.mapHub_memWf | split | simp -zeta only [MemWf.made, MemWf.form])

theorem instanceComplete_memWf (s : State) (t : TowerId) (a : Armed) (h_s : MemWf s)
    : MemWf (instanceComplete s t a) := by
  unfold instanceComplete
  repeat' (first
      | with_reducible assumption
      | (intro z; refine (fun hz : MemWf z => ?_) ?_; rotate_left; subst z; rotate_right; clear_value z)
      | (intro z; clear_value z) | intro _ | lift_lets -underBinder | with_reducible apply setHeaderState_memWf
      | with_reducible apply offerInstance_memWf | with_reducible apply disarm_memWf | split)

theorem countDown_memWf (s : State) (t : TowerId) (a : Armed) (h_s : MemWf s)
    : MemWf (countDown s t a) := by
  unfold countDown
  repeat' (first
      | with_reducible assumption
      | (intro z; refine (fun hz : MemWf z => ?_) ?_; rotate_left; subst z; rotate_right; clear_value z)
      | (intro z; clear_value z) | lift_lets -underBinder | with_reducible apply setHeaderRemain_memWf
      | with_reducible apply instanceComplete_memWf | split)

theorem restoreRecord_memWf (s : State) (key : Nat) (h_s : MemWf s)
    : MemWf (restoreRecord s key) := by
  unfold restoreRecord
  repeat' (first
      | with_reducible assumption
      | (intro z; refine (fun hz : MemWf z => ?_) ?_; rotate_left; subst z; rotate_right; clear_value z)
      | (intro z; clear_value z) | lift_lets -underBinder | with_reducible apply writeNat_memWf
      | with_reducible apply setRecordFault_memWf | with_reducible apply leaveRecord_memWf | split)

theorem finishNode_memWf (s : State) (t : TowerId) (a : Armed) (recKey : Nat) (discarded : Bool) (h_s : MemWf s)
    : MemWf (finishNode s t a recKey discarded) := by
  unfold finishNode
  repeat' (first
      | with_reducible assumption | with_reducible apply countDown_memWf | with_reducible apply restoreRecord_memWf
      | split)

theorem completeNode_memWf (s : State) (t : TowerId) (a : Armed) (recKey : Nat) (discarded : Bool) (h_s : MemWf s)
    : MemWf (completeNode s t a recKey discarded) := by
  unfold completeNode
  repeat' (first
      | with_reducible assumption
      | (intro z; refine (fun hz : MemWf z => ?_) ?_; rotate_left; subst z; rotate_right; clear_value z)
      | (intro z; refine (fun hz : MemWf z.2 => ?_) ?_; rotate_left; subst z; rotate_right; clear_value z)
      | (intro z; clear_value z) | intro _ | lift_lets -underBinder | with_reducible apply finishNode_memWf
      | with_reducible apply rennetList_memWf | with_reducible apply faultInstance_memWf
      | with_reducible apply State.due_memWf | with_reducible apply foldl_memWf | with_reducible apply foldlSnd_memWf
      | with_reducible apply foldlFst_memWf
      | (with_reducible refine of_second ‹_› ?_; first | with_reducible assumption | with_reducible apply rennetList_memWf)
      | split)

theorem discardNode_memWf (s : State) (t : TowerId) (a : Armed) (recKey : Nat) (h_s : MemWf s)
    : MemWf (discardNode s t a recKey) := by
  unfold discardNode
  repeat' (first
      | with_reducible assumption | with_reducible apply completeNode_memWf | with_reducible apply leaveRecord_memWf
      | split)

theorem makeReady_memWf (s : State) (t : TowerId) (w : TowerId) (a : Armed) (addr : Word) (root : Bool) (h_s : MemWf
    s)
    : MemWf (makeReady s t w a addr root) := by
  unfold makeReady
  repeat' (first
      | with_reducible assumption
      | (intro z; refine (fun hz : MemWf z => ?_) ?_; rotate_left; subst z; rotate_right; clear_value z)
      | (intro z; refine (fun hz : MemWf z.2 => ?_) ?_; rotate_left; subst z; rotate_right; clear_value z)
      | (intro z; clear_value z) | intro _ | lift_lets -underBinder | with_reducible apply rennetKey_memWf
      | with_reducible apply faultInstance_memWf | with_reducible apply discardNode_memWf
      | with_reducible apply faultNode_memWf | with_reducible apply State.due_memWf
      | with_reducible apply setRecordState_memWf | with_reducible apply pushReady_memWf
      | with_reducible apply upTo_memWf
      | (with_reducible refine of_second ‹_› ?_; first | with_reducible assumption | with_reducible apply rennetKey_memWf)
      | split | simp -zeta only [MemWf.made, MemWf.form])

theorem dropReady_memWf (s : State) (t : TowerId) (e : ReadyEntry) (h_s : MemWf s)
    : MemWf (dropReady s t e) := by
  unfold dropReady
  repeat' (first
      | with_reducible assumption
      | (intro z; refine (fun hz : MemWf z => ?_) ?_; rotate_left; subst z; rotate_right; clear_value z)
      | (intro z; clear_value z) | intro _ | lift_lets -underBinder | with_reducible apply State.setTower_memWf
      | split | simp -zeta only [MemWf.made, MemWf.form])

theorem saveAreaKey_memWf (s : State) (c : CoreId) (ctx : BitVec 16) (gen : BitVec 8) (save : Word) (h_s : MemWf s)
    : MemWf (saveAreaKey s c ctx gen save).2 := by
  unfold saveAreaKey
  repeat' (first
      | with_reducible assumption
      | (intro z; refine (fun hz : MemWf z => ?_) ?_; rotate_left; subst z; rotate_right; clear_value z)
      | (intro z; refine (fun hz : MemWf z.2 => ?_) ?_; rotate_left; subst z; rotate_right; clear_value z)
      | (intro z; clear_value z) | lift_lets -underBinder | with_reducible apply resolveFlat_memWf
      | (with_reducible refine of_second ‹_› ?_; first | with_reducible assumption | with_reducible apply resolveFlat_memWf)
      | split)

theorem pickupAcquire_memWf (s : State) (c : CoreId) (inst : Word) (h_s : MemWf s)
    : MemWf (pickupAcquire s c inst) := by
  unfold pickupAcquire
  repeat' (first
      | with_reducible assumption
      | (intro z; refine (fun hz : MemWf z => ?_) ?_; rotate_left; subst z; rotate_right; clear_value z)
      | (intro z; clear_value z) | intro _ | lift_lets -underBinder | with_reducible apply fullAcquire_memWf
      | with_reducible apply dropLines_memWf | with_reducible apply foldl_memWf | with_reducible apply foldlSnd_memWf
      | with_reducible apply foldlFst_memWf | split)

theorem claim_memWf (s : State) (c : CoreId) (e : ReadyEntry) (a : Armed) (home : TowerId) (r : BitVec 512) (saveKey
    : Nat) (h_s : MemWf s)
    : MemWf (claim s c e a home r saveKey) := by
  unfold claim
  repeat' (first
      | with_reducible assumption
      | (intro z; refine (fun hz : MemWf z => ?_) ?_; rotate_left; subst z; rotate_right; clear_value z)
      | (intro z; clear_value z) | lift_lets -underBinder | with_reducible apply setRecordState_memWf
      | with_reducible apply State.setCore_memWf | with_reducible apply pickupAcquire_memWf | split
      | simp -zeta only [MemWf.made, MemWf.form])

theorem firstRun_memWf (s0 : State) (c : CoreId) (e : ReadyEntry) (r : BitVec 512) (h_s0 : MemWf s0)
    : MemWf (firstRun s0 c e r) := by
  unfold firstRun
  repeat' (first
      | with_reducible assumption
      | (intro z; refine (fun hz : MemWf z => ?_) ?_; rotate_left; subst z; rotate_right; clear_value z)
      | (intro z; clear_value z) | intro _ | lift_lets -underBinder | with_reducible apply State.setCore_memWf | split
      | simp -zeta only [MemWf.made, MemWf.form])

theorem refusePickup_memWf (s : State) (t : TowerId) (home : TowerId) (e : ReadyEntry) (code : Code) (h_s : MemWf s)
    : MemWf (refusePickup s t home e code) := by
  unfold refusePickup
  repeat' (first | with_reducible assumption | with_reducible apply faultNode_memWf | split)

theorem pickUp_memWf (s : State) (c : CoreId) (e : ReadyEntry) (staged : Bool) (h_s : MemWf s)
    : MemWf (pickUp s c e staged) := by
  unfold pickUp
  repeat' (first
      | with_reducible assumption
      | (intro z; refine (fun hz : MemWf z => ?_) ?_; rotate_left; subst z; rotate_right; clear_value z)
      | (intro z; refine (fun hz : MemWf z.2 => ?_) ?_; rotate_left; subst z; rotate_right; clear_value z)
      | (intro z; clear_value z) | lift_lets -underBinder | with_reducible apply leaveRecord_memWf
      | with_reducible apply discardNode_memWf | with_reducible apply refusePickup_memWf
      | with_reducible apply saveAreaKey_memWf | with_reducible apply claim_memWf
      | with_reducible apply emptyGate_memWf | with_reducible apply restoreForced_memWf
      | with_reducible apply restoreYield_memWf | with_reducible apply goIdle_memWf
      | with_reducible apply firstRun_memWf | with_reducible apply State.setCore_memWf
      | (with_reducible refine of_second ‹_› ?_; first | with_reducible assumption | with_reducible apply saveAreaKey_memWf)
      | split)

end Sys2Proof.Machine
end

