-- ==== Sys2Proof/Laws/FormSlots.lean ====
section
/-! SUPPORT. What the control, scalar, memory, vector and transposer instructions keep of the form of memory. -/

namespace Sys2Proof.Machine

/-! ### Bundles -/

theorem fetchBundle_memWf (s : State) (c : CoreId) (pc : Word) (h_s : MemWf s)
    : MemWf (fetchBundle s c pc).2 := by
  unfold fetchBundle
  repeat' (first
      | with_reducible assumption
      | (intro z; refine (fun hz : MemWf z => ?_) ?_; rotate_left; subst z; rotate_right; clear_value z)
      | (intro z; refine (fun hz : MemWf z.2 => ?_) ?_; rotate_left; subst z; rotate_right; clear_value z)
      | (intro z; clear_value z) | lift_lets -underBinder | with_reducible apply lookupFlat_memWf
      | (with_reducible refine of_second ‹_› ?_; first | with_reducible assumption | with_reducible apply lookupFlat_memWf)
      | split)

theorem nextBundle_memWf (s : State) (c : CoreId) (h_s : MemWf s)
    : MemWf (nextBundle s c).2 := by
  unfold nextBundle
  repeat' (first
      | with_reducible assumption
      | (intro z; refine (fun hz : MemWf z => ?_) ?_; rotate_left; subst z; rotate_right; clear_value z)
      | (intro z; refine (fun hz : MemWf z.2 => ?_) ?_; rotate_left; subst z; rotate_right; clear_value z)
      | (intro z; clear_value z) | lift_lets -underBinder | with_reducible apply fetchBundle_memWf
      | with_reducible apply State.setCore_memWf
      | (with_reducible refine of_second ‹_› ?_; first | with_reducible assumption | with_reducible apply fetchBundle_memWf)
      | split)

theorem enterBundle_memWf (s : State) (c : CoreId) (h_s : MemWf s)
    : MemWf (enterBundle s c) := by
  unfold enterBundle
  repeat' (first
      | with_reducible assumption
      | (intro z; refine (fun hz : MemWf z => ?_) ?_; rotate_left; subst z; rotate_right; clear_value z)
      | (intro z; refine (fun hz : MemWf z.2 => ?_) ?_; rotate_left; subst z; rotate_right; clear_value z)
      | (intro z; clear_value z) | intro _ | lift_lets -underBinder | with_reducible apply nextBundle_memWf
      | with_reducible apply waitTransit_memWf | with_reducible apply takeFault_memWf
      | with_reducible apply dropWalked_memWf | with_reducible apply State.setCore_memWf
      | with_reducible apply State.pass_memWf | with_reducible apply State.due_memWf
      | (with_reducible refine of_second ‹_› ?_; first | with_reducible assumption | with_reducible apply nextBundle_memWf)
      | split | simp -zeta only [MemWf.made, MemWf.form])

theorem execBundleEntry_memWf (s : State) (h_s : MemWf s) {st' : State} : (execBundleEntry s) = .next st' →
    MemWf st' := by
  unfold execBundleEntry
  repeat' (first
      | with_reducible assumption | with_reducible refine next_memWf ?_ | with_reducible apply enterBundle_memWf
      | split)

theorem execResultLand_memWf (s : State) (h_s : MemWf s) {st' : State} : (execResultLand s) = .next st' →
    MemWf st' := by
  unfold execResultLand
  repeat' (first
      | with_reducible assumption | with_reducible refine next_memWf ?_ | with_reducible apply State.mapRegs_memWf
      | split | intro _)

theorem execRestartMarkEstablish_memWf (s : State) (h_s : MemWf s) {st' : State} : (execRestartMarkEstablish s) =
    .next st' →
    MemWf st' := by
  unfold execRestartMarkEstablish
  repeat' (first
      | with_reducible assumption | with_reducible refine next_memWf ?_ | with_reducible apply establishMark_memWf
      | split)

theorem stampDue_memWf (s : State) (c : CoreId) (h_s : MemWf s)
    : MemWf (stampDue s c) := by
  unfold stampDue
  repeat' (first
      | with_reducible assumption
      | (intro z; refine (fun hz : MemWf z => ?_) ?_; rotate_left; subst z; rotate_right; clear_value z)
      | (intro z; clear_value z) | intro _ | lift_lets -underBinder | with_reducible apply State.setCore_memWf | split
      | simp -zeta only [MemWf.made, MemWf.form])

theorem execStampDue_memWf (s : State) (h_s : MemWf s) {st' : State} : (execStampDue s) = .next st' →
    MemWf st' := by
  unfold execStampDue
  repeat' (first
      | with_reducible assumption | with_reducible refine next_memWf ?_ | with_reducible apply stampDue_memWf | split)

theorem putCr_memWf (s : State) (c : CoreId) (n : Nat) (old : Word) (v : Word) (h_s : MemWf s)
    : MemWf (putCr s c n old v) := by
  unfold putCr
  repeat' (first
      | with_reducible assumption
      | (intro z; refine (fun hz : MemWf z => ?_) ?_; rotate_left; subst z; rotate_right; clear_value z)
      | (intro z; refine (fun hfun : ∀ a0, MemWf (z a0) => ?_) ?_; rotate_left; subst z; rotate_right; clear_value z)
      | (intro z; clear_value z) | intro _ | lift_lets -underBinder | with_reducible apply State.setCore_memWf
      | with_reducible apply State.setCluster_memWf | with_reducible apply hfun | intro _ | split
      | simp -zeta only [MemWf.made, MemWf.form])

theorem applyCr_memWf (s : State) (c : CoreId) (op : Nat) (n : Nat) (src : Word) (h_s : MemWf s)
    : MemWf (applyCr s c op n src) := by
  unfold applyCr
  repeat' (first
      | with_reducible assumption
      | (intro z; refine (fun hz : MemWf z => ?_) ?_; rotate_left; subst z; rotate_right; clear_value z)
      | (intro z; clear_value z) | lift_lets -underBinder | with_reducible apply putCr_memWf | split)

theorem autoDrain_memWf (s : State) (c : CoreId) (h_s : MemWf s)
    : MemWf (autoDrain s c) := by
  unfold autoDrain
  repeat' (first
      | with_reducible assumption
      | (intro z; refine (fun hz : MemWf z => ?_) ?_; rotate_left; subst z; rotate_right; clear_value z)
      | (intro z; refine (fun hz : MemWf z.2 => ?_) ?_; rotate_left; subst z; rotate_right; clear_value z)
      | (intro z; clear_value z) | lift_lets -underBinder | with_reducible apply flatKeyOf_memWf
      | with_reducible apply writeNat_memWf | with_reducible apply State.setCore_memWf
      | (with_reducible refine of_second ‹_› ?_; first | with_reducible assumption | with_reducible apply flatKeyOf_memWf)
      | split | simp -zeta only [MemWf.made, MemWf.form])

theorem commitPop_memWf (s : State) (c : CoreId) (p : PopRec) (h_s : MemWf s)
    : MemWf (commitPop s c p) := by
  unfold commitPop
  repeat' (first
      | with_reducible assumption
      | (intro z; refine (fun hz : MemWf z => ?_) ?_; rotate_left; subst z; rotate_right; clear_value z)
      | (intro z; clear_value z) | intro _ | lift_lets -underBinder | with_reducible apply writeNat_memWf
      | with_reducible apply State.setTower_memWf | with_reducible apply dropLines_memWf
      | with_reducible apply writeBackLines_memWf | with_reducible apply State.mapHub_memWf
      | with_reducible apply foldl_memWf | with_reducible apply foldlSnd_memWf | with_reducible apply foldlFst_memWf
      | split | simp -zeta only [MemWf.made, MemWf.form])

theorem finishSave_memWf (s : State) (c : CoreId) (st : BitVec 4) (h_s : MemWf s)
    : MemWf (finishSave s c st) := by
  unfold finishSave
  repeat' (first
      | with_reducible assumption
      | (intro z; refine (fun hz : MemWf z => ?_) ?_; rotate_left; subst z; rotate_right; clear_value z)
      | (intro z; clear_value z) | lift_lets -underBinder | with_reducible apply goIdle_memWf
      | with_reducible apply endSave_memWf | with_reducible apply State.setTower_memWf
      | with_reducible apply pushReady_memWf | split | simp -zeta only [MemWf.made, MemWf.form])

theorem finishContinuation_memWf (s : State) (c : CoreId) (h_s : MemWf s)
    : MemWf (finishContinuation s c) := by
  unfold finishContinuation
  repeat' (first
      | with_reducible assumption
      | (intro z; refine (fun hz : MemWf z => ?_) ?_; rotate_left; subst z; rotate_right; clear_value z)
      | (intro z; clear_value z) | lift_lets -underBinder | with_reducible apply goIdle_memWf
      | with_reducible apply leaveRecord_memWf | with_reducible apply completeNode_memWf | split)

theorem haltFault_memWf (s : State) (c : CoreId) (cur : Current) (h_s : MemWf s)
    : MemWf (haltFault s c cur) := by
  unfold haltFault
  repeat' (first
      | with_reducible assumption | with_reducible apply takeFault_memWf | with_reducible apply undoBundle_memWf
      | split)

theorem bundleEnd_memWf (s : State) (c : CoreId) (e : Ending) (h_s : MemWf s)
    : MemWf (bundleEnd s c e) := by
  unfold bundleEnd
  repeat' (first
      | with_reducible assumption
      | (intro z; refine (fun hz : MemWf z => ?_) ?_; rotate_left; subst z; rotate_right; clear_value z)
      | (intro z; clear_value z) | lift_lets -underBinder | with_reducible apply finishContinuation_memWf
      | with_reducible apply State.setCore_memWf | with_reducible apply finishSave_memWf
      | with_reducible apply endRestore_memWf | split | simp -zeta only [MemWf.made, MemWf.form])

theorem comeToRest_memWf (s : State) (c : CoreId) (why : Rest) (h_s : MemWf s)
    : MemWf (comeToRest s c why) := by
  unfold comeToRest
  repeat' (first
      | with_reducible assumption
      | (intro z; refine (fun hz : MemWf z => ?_) ?_; rotate_left; subst z; rotate_right; clear_value z)
      | (intro z; clear_value z) | lift_lets -underBinder | with_reducible apply emptyGate_memWf
      | with_reducible apply State.setCore_memWf | split | simp -zeta only [MemWf.made, MemWf.form])

theorem commitBundle_memWf (s : State) (c : CoreId) (h_s : MemWf s)
    : MemWf (commitBundle s c) := by
  unfold commitBundle
  repeat' (first
      | with_reducible assumption
      | (intro z; refine (fun hz : MemWf z => ?_) ?_; rotate_left; subst z; rotate_right; clear_value z)
      | (intro z; clear_value z) | intro _ | lift_lets -underBinder | with_reducible apply haltFault_memWf
      | with_reducible apply emptyGate_memWf | with_reducible apply State.setCore_memWf
      | with_reducible apply applyCr_memWf | with_reducible apply commitPop_memWf
      | with_reducible apply autoDrain_memWf | with_reducible apply bundleEnd_memWf
      | with_reducible apply fullAcquire_memWf | with_reducible apply State.due_memWf
      | with_reducible apply foldl_memWf | with_reducible apply foldlSnd_memWf | with_reducible apply foldlFst_memWf
      | split | simp -zeta only [MemWf.made, MemWf.form])

theorem execBundleCommit_memWf (s : State) (h_s : MemWf s) {st' : State} : (execBundleCommit s) = .next st' →
    MemWf st' := by
  unfold execBundleCommit
  repeat' (first
      | with_reducible assumption | with_reducible refine next_memWf ?_
      | (intro z; refine (fun hz : MemWf z => ?_) ?_; rotate_left; subst z; rotate_right; clear_value z)
      | (intro z; clear_value z) | lift_lets -underBinder | with_reducible apply commitBundle_memWf
      | with_reducible apply comeToRest_memWf | split)

theorem execYield_memWf (s : State) (h_s : MemWf s) {st' : State} : (execYield s) = .next st' →
    MemWf st' := by
  unfold execYield
  repeat' (first
      | with_reducible assumption | with_reducible refine next_memWf ?_
      | (intro z; refine (fun hz : MemWf z => ?_) ?_; rotate_left; subst z; rotate_right; clear_value z)
      | (intro z; clear_value z) | lift_lets -underBinder | with_reducible apply startYield_memWf | split)

theorem execPreciseFault_memWf (s : State) (h_s : MemWf s) {st' : State} : (execPreciseFault s) = .next st' →
    MemWf st' := by
  unfold execPreciseFault
  repeat' (first
      | with_reducible assumption | with_reducible refine next_memWf ?_ | with_reducible apply takePrecise_memWf
      | split)

theorem execEngineFault_memWf (s : State) (h_s : MemWf s) {st' : State} : (execEngineFault s) = .next st' →
    MemWf st' := by
  unfold execEngineFault
  repeat' (first
      | with_reducible assumption | with_reducible refine next_memWf ?_
      | (intro z; refine (fun hz : MemWf z => ?_) ?_; rotate_left; subst z; rotate_right; clear_value z)
      | (intro z; clear_value z) | lift_lets -underBinder | with_reducible apply statRecord_memWf
      | with_reducible apply State.setCore_memWf | with_reducible apply takeEngine_memWf | split
      | simp -zeta only [MemWf.made, MemWf.form] | intro _)

/-! ### Operands -/

theorem State.refuse_memWf (s : State) (x : Fin 8) (code : Code) (info : Word) (h_s : MemWf s)
    : MemWf (State.refuse s x code info) := by
  unfold State.refuse
  repeat' (first
      | with_reducible assumption | with_reducible apply takeRefused_memWf
      | with_reducible apply State.slotFaultI_memWf | split)

theorem State.inTransit_memWf (s : State) (x : Fin 8) (info : Word) (h_s : MemWf s)
    : MemWf (State.inTransit s x info) := by
  unfold State.inTransit
  repeat' (first | with_reducible assumption | with_reducible apply waitTransit_memWf | split)

theorem reachTile_memWf (s : State) (c : CoreId) (desc : Option (BitVec 512)) (tile : Nat) (fmt : Option Nat) (write
    : Bool) (h_s : MemWf s)
    : MemWf (reachTile s c desc tile fmt write).2 := by
  unfold reachTile
  repeat' (first
      | with_reducible assumption
      | (intro z; refine (fun hz : MemWf z => ?_) ?_; rotate_left; subst z; rotate_right; clear_value z)
      | (intro z; refine (fun hz : MemWf z.2 => ?_) ?_; rotate_left; subst z; rotate_right; clear_value z)
      | (intro z; clear_value z) | lift_lets -underBinder | with_reducible apply lookupTensor_memWf
      | with_reducible apply lookupFlat_memWf
      | (with_reducible refine of_second ‹_› ?_; first | with_reducible assumption | with_reducible apply lookupTensor_memWf | with_reducible apply lookupFlat_memWf)
      | split)

theorem resolveLanes_memWf (c : CoreId) (o : Operand) (write : Bool) : ∀ (l : List (Nat × Nat × Nat)) (seen : List
    (Nat × BitVec 64))
    (s : State), MemWf s → MemWf (resolveLanes c o write l seen s).2.2
  | [], _, _, h => h
  | (e, tile, b) :: ls, seen, s, h => by
    unfold resolveLanes
    split
    · exact resolveLanes_memWf c o write ls seen s h
    · split
      · exact resolveLanes_memWf c o write ls _ _ (of_second ‹_› (reachTile_memWf _ _ _ _ _ _ h))
      · exact of_second ‹_› (reachTile_memWf _ _ _ _ _ _ h)

theorem reachHome_memWf (s : State) (c : CoreId) (a : Word) (write : Bool) (h_s : MemWf s)
    : MemWf (reachHome s c a write).2.2 := by
  unfold reachHome
  repeat' (first
      | with_reducible assumption
      | (intro z; refine (fun hz : MemWf z => ?_) ?_; rotate_left; subst z; rotate_right; clear_value z)
      | (intro z; refine (fun hz : MemWf z.2 => ?_) ?_; rotate_left; subst z; rotate_right; clear_value z)
      | (intro z; clear_value z) | lift_lets -underBinder | with_reducible apply lookupFlat_memWf
      | (with_reducible refine of_second ‹_› ?_; first | with_reducible assumption | with_reducible apply lookupFlat_memWf)
      | split)

theorem State.atHome_memWf (s : State) (x : Fin 8) (a : Word) (acc : Nat) (write : Bool) (n : Nat) (f : State → Nat →
    State) (h_s : MemWf s) (h_f : ∀ a0 a1, MemWf a0 → MemWf (f a0 a1))
    : MemWf (State.atHome s x a acc write n f) := by
  unfold State.atHome
  repeat' (first
      | with_reducible assumption
      | (intro z; refine (fun hz : MemWf z => ?_) ?_; rotate_left; subst z; rotate_right; clear_value z)
      | (intro z; refine (fun hz : MemWf z.2.2 => ?_) ?_; rotate_left; subst z; rotate_right; clear_value z)
      | (intro z; clear_value z) | lift_lets -underBinder | with_reducible apply reachHome_memWf
      | with_reducible apply touchHome_memWf | with_reducible apply State.slotFaultI_memWf
      | with_reducible apply State.refuse_memWf | with_reducible apply State.inTransit_memWf
      | with_reducible apply State.reissue_memWf | with_reducible apply h_f
      | (with_reducible refine of_third ‹_› ?_; first | with_reducible assumption | with_reducible apply reachHome_memWf)
      | split)

theorem readElement_memWf (s : State) (c : CoreId) (p : Place) (b : Nat) (width : Nat) (inv : Bool) (h_s : MemWf s)
    : MemWf (readElement s c p b width inv).2.2 := by
  unfold readElement
  repeat' (first
      | with_reducible assumption
      | (intro z; refine (fun hz : MemWf z => ?_) ?_; rotate_left; subst z; rotate_right; clear_value z)
      | (intro z; refine (fun hz : MemWf z.2.2 => ?_) ?_; rotate_left; subst z; rotate_right; clear_value z)
      | (intro z; clear_value z) | lift_lets -underBinder | with_reducible apply loadBits_memWf
      | (with_reducible refine of_third ‹_› ?_; first | with_reducible assumption | with_reducible apply loadBits_memWf)
      | split)

theorem State.flatLoad_memWf (s : State) (x : Fin 8) (a : Word) (f : State → Place → State) (h_s : MemWf s) (h_f : ∀
    a0 a1, MemWf a0 → MemWf (f a0 a1))
    : MemWf (State.flatLoad s x a f) := by
  unfold State.flatLoad
  repeat' (first
      | with_reducible assumption
      | (intro z; refine (fun hz : MemWf z => ?_) ?_; rotate_left; subst z; rotate_right; clear_value z)
      | (intro z; refine (fun hz : MemWf z.2 => ?_) ?_; rotate_left; subst z; rotate_right; clear_value z)
      | (intro z; clear_value z) | lift_lets -underBinder | with_reducible apply reachTile_memWf
      | with_reducible apply State.refuse_memWf | with_reducible apply State.inTransit_memWf
      | with_reducible apply State.reissue_memWf | with_reducible apply h_f
      | (with_reducible refine of_second ‹_› ?_; first | with_reducible assumption | with_reducible apply reachTile_memWf)
      | split)

theorem State.result_memWf (s : State) (x : Fin 8) (ref : RegRef) (v : Vec) (h_s : MemWf s)
    : MemWf (State.result s x ref v) := by
  unfold State.result
  repeat' (first | with_reducible assumption | with_reducible apply State.setMe_memWf | split)

theorem State.resultS_memWf (s : State) (x : Fin 8) (d : BitVec 6) (v : Word) (h_s : MemWf s)
    : MemWf (State.resultS s x d v) := by
  unfold State.resultS
  repeat' (first | with_reducible assumption | with_reducible apply State.result_memWf | split)

theorem State.resultV_memWf (s : State) (x : Fin 8) (d : BitVec 6) (v : Vec) (h_s : MemWf s)
    : MemWf (State.resultV s x d v) := by
  unfold State.resultV
  repeat' (first | with_reducible assumption | with_reducible apply State.result_memWf | split)

/-! ### Control -/

theorem State.branch_memWf (s : State) (target : Word) (h_s : MemWf s)
    : MemWf (State.branch s target) := by
  unfold State.branch
  repeat' (first
      | with_reducible assumption | with_reducible apply State.setMe_memWf | with_reducible apply State.jump_memWf
      | split | simp -zeta only [MemWf.made, MemWf.form])

theorem execCBr_memWf (o : OpB) (s : State) (h_s : MemWf s) {st' : State} : (execCBr o s) = .next st' →
    MemWf st' := by
  unfold execCBr
  repeat' (first
      | with_reducible assumption | with_reducible refine next_memWf ?_ | with_reducible apply State.branch_memWf
      | split)

theorem execCBsz_memWf (o : OpBS) (s : State) (h_s : MemWf s) {st' : State} : (execCBsz o s) = .next st' →
    MemWf st' := by
  unfold execCBsz
  repeat' (first
      | with_reducible assumption | with_reducible refine next_memWf ?_ | with_reducible apply State.branch_memWf
      | split)

theorem execCBsnz_memWf (o : OpBS) (s : State) (h_s : MemWf s) {st' : State} : (execCBsnz o s) = .next st' →
    MemWf st' := by
  unfold execCBsnz
  repeat' (first
      | with_reducible assumption | with_reducible refine next_memWf ?_ | with_reducible apply State.branch_memWf
      | split)

theorem State.pushReturn_memWf (s : State) (link : Word) (h_s : MemWf s)
    : MemWf (State.pushReturn s link) := by
  unfold State.pushReturn
  repeat' (first
      | with_reducible assumption | with_reducible apply State.setMe_memWf | split
      | simp -zeta only [MemWf.made, MemWf.form])

theorem execCCall_memWf (o : OpJ) (s : State) (h_s : MemWf s) {st' : State} : (execCCall o s) = .next st' →
    MemWf st' := by
  unfold execCCall
  repeat' (first
      | with_reducible assumption | with_reducible refine next_memWf ?_ | with_reducible apply State.resultS_memWf
      | with_reducible apply State.pushReturn_memWf | with_reducible apply State.jump_memWf | split)

theorem registerJump_memWf (s : State) (o : OpT) (f : State → Word → State) (h_s : MemWf s) (h_f : ∀ a0 a1, MemWf a0
    → MemWf (f a0 a1))
    : MemWf (registerJump s o f) := by
  unfold registerJump
  repeat' (first
      | with_reducible assumption
      | (intro z; refine (fun hz : MemWf z => ?_) ?_; rotate_left; subst z; rotate_right; clear_value z)
      | (intro z; clear_value z) | lift_lets -underBinder | with_reducible apply State.slotFault_memWf
      | with_reducible apply h_f | split)

theorem execCJr_memWf (o : OpT) (s : State) (h_s : MemWf s) {st' : State} : (execCJr o s) = .next st' →
    MemWf st' := by
  unfold execCJr
  repeat' (first
      | with_reducible assumption | with_reducible refine next_memWf ?_ | with_reducible apply registerJump_memWf
      | with_reducible apply State.branch_memWf | split | intro _)

theorem execCCallr_memWf (o : OpT) (s : State) (h_s : MemWf s) {st' : State} : (execCCallr o s) = .next st' →
    MemWf st' := by
  unfold execCCallr
  repeat' (first
      | with_reducible assumption | with_reducible refine next_memWf ?_ | with_reducible apply registerJump_memWf
      | with_reducible apply State.resultS_memWf | with_reducible apply State.pushReturn_memWf
      | with_reducible apply State.jump_memWf | split | intro _)

theorem execCRet_memWf (o : OpT) (s : State) (h_s : MemWf s) {st' : State} : (execCRet o s) = .next st' →
    MemWf st' := by
  unfold execCRet
  repeat' (first
      | with_reducible assumption | with_reducible refine next_memWf ?_ | with_reducible apply registerJump_memWf
      | with_reducible apply State.setMe_memWf | with_reducible apply State.jump_memWf | split
      | simp -zeta only [MemWf.made, MemWf.form] | intro _)

theorem execCLoop_memWf (o : OpI) (s : State) (h_s : MemWf s) {st' : State} : (execCLoop o s) = .next st' →
    MemWf st' := by
  unfold execCLoop
  repeat' (first
      | with_reducible assumption | with_reducible refine next_memWf ?_
      | (intro z; refine (fun hz : MemWf z => ?_) ?_; rotate_left; subst z; rotate_right; clear_value z)
      | (intro z; clear_value z) | lift_lets -underBinder | with_reducible apply State.slotFault_memWf
      | with_reducible apply State.goTo_memWf | with_reducible apply State.setMe_memWf | split
      | simp -zeta only [MemWf.made, MemWf.form])

theorem execCNest_memWf (o : OpI) (s : State) (h_s : MemWf s) {st' : State} : (execCNest o s) = .next st' →
    MemWf st' := by
  unfold execCNest
  repeat' (first
      | with_reducible assumption | with_reducible refine next_memWf ?_
      | (intro z; refine (fun hz : MemWf z => ?_) ?_; rotate_left; subst z; rotate_right; clear_value z)
      | (intro z; clear_value z) | lift_lets -underBinder | with_reducible apply State.slotFault_memWf
      | with_reducible apply State.goTo_memWf | with_reducible apply State.setMe_memWf | split
      | simp -zeta only [MemWf.made, MemWf.form])

theorem State.satisfyWait_memWf (s : State) (w : Wait) (v : Word) (h_s : MemWf s)
    : MemWf (State.satisfyWait s w v) := by
  unfold State.satisfyWait
  repeat' (first
      | with_reducible assumption
      | (intro z; refine (fun hz : MemWf z => ?_) ?_; rotate_left; subst z; rotate_right; clear_value z)
      | (intro z; clear_value z) | intro _ | lift_lets -underBinder | with_reducible apply State.resultS_memWf
      | with_reducible apply State.setMe_memWf | split | simp -zeta only [MemWf.made, MemWf.form])

theorem State.suspendAt_memWf (s : State) (e : YieldEntry) (st : BitVec 4) (x : Fin 8) (w : Wait) (h_s : MemWf s)
    : MemWf (State.suspendAt s e st x w) := by
  unfold State.suspendAt
  repeat' (first
      | with_reducible assumption
      | (intro z; refine (fun hz : MemWf z => ?_) ?_; rotate_left; subst z; rotate_right; clear_value z)
      | (intro z; clear_value z) | lift_lets -underBinder | with_reducible apply establishMark_memWf
      | with_reducible apply State.reissue_memWf | with_reducible apply startYield_memWf
      | with_reducible apply undoBundle_memWf | split)

theorem State.startWait_memWf (s : State) (w : Wait) (h_s : MemWf s)
    : MemWf (State.startWait s w) := by
  unfold State.startWait
  repeat' (first
      | with_reducible assumption
      | (intro z; refine (fun hz : MemWf z => ?_) ?_; rotate_left; subst z; rotate_right; clear_value z)
      | (intro z; clear_value z) | lift_lets -underBinder | with_reducible apply State.satisfyWait_memWf
      | with_reducible apply State.suspendAt_memWf | with_reducible apply State.setMe_memWf | split
      | simp -zeta only [MemWf.made, MemWf.form])

theorem State.notDet_memWf (s : State) (x : Fin 8) (code : Code) (f : State → State) (h_s : MemWf s) (h_f : ∀ a0,
    MemWf a0 → MemWf (f a0))
    : MemWf (State.notDet s x code f) := by
  unfold State.notDet
  repeat' (first
      | with_reducible assumption | with_reducible apply State.slotFault_memWf | with_reducible apply h_f | split)

theorem execCWaitb_memWf (o : OpT) (s : State) (h_s : MemWf s) {st' : State} : (execCWaitb o s) = .next st' →
    MemWf st' := by
  unfold execCWaitb
  repeat' (first
      | with_reducible assumption | with_reducible refine next_memWf ?_
      | (intro z; refine (fun hz : MemWf z => ?_) ?_; rotate_left; subst z; rotate_right; clear_value z)
      | (intro z; clear_value z) | lift_lets -underBinder | with_reducible apply State.notDet_memWf
      | with_reducible apply State.slotFault_memWf | with_reducible apply State.atHome_memWf
      | with_reducible apply State.startWait_memWf | split | intro _)

theorem execCWaitr_memWf (o : OpT) (s : State) (h_s : MemWf s) {st' : State} : (execCWaitr o s) = .next st' →
    MemWf st' := by
  unfold execCWaitr
  repeat' (first
      | with_reducible assumption | with_reducible refine next_memWf ?_
      | (intro z; refine (fun hz : MemWf z => ?_) ?_; rotate_left; subst z; rotate_right; clear_value z)
      | (intro z; clear_value z) | lift_lets -underBinder | with_reducible apply State.notDet_memWf
      | with_reducible apply State.slotFault_memWf | with_reducible apply State.atHome_memWf
      | with_reducible apply State.startWait_memWf | split | intro _)

theorem execCWaitq_memWf (o : OpT) (s : State) (h_s : MemWf s) {st' : State} : (execCWaitq o s) = .next st' →
    MemWf st' := by
  unfold execCWaitq
  repeat' (first
      | with_reducible assumption | with_reducible refine next_memWf ?_
      | (intro z; refine (fun hz : MemWf z => ?_) ?_; rotate_left; subst z; rotate_right; clear_value z)
      | (intro z; clear_value z) | lift_lets -underBinder | with_reducible apply State.slotFault_memWf
      | with_reducible apply State.startWait_memWf | split)

theorem execCWaitt_memWf (o : OpT) (s : State) (h_s : MemWf s) {st' : State} : (execCWaitt o s) = .next st' →
    MemWf st' := by
  unfold execCWaitt
  repeat' (first
      | with_reducible assumption | with_reducible refine next_memWf ?_ | with_reducible apply State.startWait_memWf
      | split)

theorem execCRcr_memWf (o : OpJ) (s : State) (h_s : MemWf s) {st' : State} : (execCRcr o s) = .next st' →
    MemWf st' := by
  unfold execCRcr
  repeat' (first
      | with_reducible assumption | with_reducible refine next_memWf ?_ | with_reducible apply State.resultS_memWf
      | split)

theorem State.writeCr_memWf (s : State) (op : Nat) (o : OpJ) (h_s : MemWf s)
    : MemWf (State.writeCr s op o) := by
  unfold State.writeCr
  repeat' (first
      | with_reducible assumption
      | (intro z; refine (fun hz : MemWf z => ?_) ?_; rotate_left; subst z; rotate_right; clear_value z)
      | (intro z; clear_value z) | intro _ | lift_lets -underBinder | with_reducible apply State.slotFault_memWf
      | with_reducible apply State.setMe_memWf | split | simp -zeta only [MemWf.made, MemWf.form])

theorem execCWcr_memWf (o : OpJ) (s : State) (h_s : MemWf s) {st' : State} : (execCWcr o s) = .next st' →
    MemWf st' := by
  unfold execCWcr
  repeat' (first
      | with_reducible assumption | with_reducible refine next_memWf ?_ | with_reducible apply State.writeCr_memWf
      | split)

theorem execCScr_memWf (o : OpJ) (s : State) (h_s : MemWf s) {st' : State} : (execCScr o s) = .next st' →
    MemWf st' := by
  unfold execCScr
  repeat' (first
      | with_reducible assumption | with_reducible refine next_memWf ?_ | with_reducible apply State.writeCr_memWf
      | split)

theorem execCCcr_memWf (o : OpJ) (s : State) (h_s : MemWf s) {st' : State} : (execCCcr o s) = .next st' →
    MemWf st' := by
  unfold execCCcr
  repeat' (first
      | with_reducible assumption | with_reducible refine next_memWf ?_ | with_reducible apply State.writeCr_memWf
      | split)

theorem State.resultQuad_memWf (s : State) (x : Fin 8) (d : BitVec 6) (r : BitVec 256) (h_s : MemWf s)
    : MemWf (State.resultQuad s x d r) := by
  unfold State.resultQuad
  repeat' (first | with_reducible assumption | with_reducible apply State.resultS_memWf | split)

theorem execCSpop_memWf (o : OpT) (s : State) (h_s : MemWf s) {st' : State} : (execCSpop o s) = .next st' →
    MemWf st' := by
  unfold execCSpop
  repeat' (first
      | with_reducible assumption | with_reducible refine next_memWf ?_ | with_reducible apply State.setMe_memWf
      | with_reducible apply State.notePop_memWf | with_reducible apply State.resultQuad_memWf | split
      | simp -zeta only [MemWf.made, MemWf.form])

theorem execCTrap_memWf (o : OpJ) (s : State) (h_s : MemWf s) {st' : State} : (execCTrap o s) = .next st' →
    MemWf st' := by
  unfold execCTrap
  repeat' (first
      | with_reducible assumption | with_reducible refine next_memWf ?_
      | (intro z; refine (fun hz : MemWf z => ?_) ?_; rotate_left; subst z; rotate_right; clear_value z)
      | (intro z; clear_value z) | lift_lets -underBinder | with_reducible apply State.slotFault_memWf
      | with_reducible apply State.setMe_memWf | with_reducible apply State.jump_memWf | split
      | simp -zeta only [MemWf.made, MemWf.form])

theorem execCBrk_memWf (o : OpJ) (s : State) (h_s : MemWf s) {st' : State} : (execCBrk o s) = .next st' →
    MemWf st' := by
  unfold execCBrk
  repeat' (first
      | with_reducible assumption | with_reducible refine next_memWf ?_ | with_reducible apply State.setEnding_memWf
      | split)

theorem execCHalt_memWf (o : OpT) (s : State) (h_s : MemWf s) {st' : State} : (execCHalt o s) = .next st' →
    MemWf st' := by
  unfold execCHalt
  repeat' (first
      | with_reducible assumption | with_reducible refine next_memWf ?_ | with_reducible apply State.setEnding_memWf
      | split)

theorem State.unstall_memWf (s : State) (h_s : MemWf s)
    : MemWf (State.unstall s) := by
  unfold State.unstall
  repeat' (first
      | with_reducible assumption | with_reducible apply State.setMe_memWf | split
      | simp -zeta only [MemWf.made, MemWf.form])

theorem execStalledWaitSatisfied_memWf (s : State) (h_s : MemWf s) {st' : State} : (execStalledWaitSatisfied s) =
    .next st' →
    MemWf st' := by
  unfold execStalledWaitSatisfied
  repeat' (first
      | with_reducible assumption | with_reducible refine next_memWf ?_ | with_reducible apply State.unstall_memWf
      | with_reducible apply State.satisfyWait_memWf | split)

/-! ### Loads -/

theorem State.operand_memWf (s : State) (x : Fin 8) (h : BitVec 5) (cb : BitVec 6) (zm : BitVec 4) (vec : Bool) (acc
    : Nat) (f : State → Operand → State) (h_s : MemWf s) (h_f : ∀ a0 a1, MemWf a0 → MemWf (f a0 a1))
    : MemWf (State.operand s x h cb zm vec acc f) := by
  unfold State.operand
  repeat' (first
      | with_reducible assumption | with_reducible apply State.slotFault_memWf
      | with_reducible apply State.refuse_memWf | with_reducible apply h_f | split)

theorem State.reach_memWf (s : State) (x : Fin 8) (h : BitVec 5) (o : Operand) (acc : Nat) (f : State → Place →
    State) (h_s : MemWf s) (h_f : ∀ a0 a1, MemWf a0 → MemWf (f a0 a1))
    : MemWf (State.reach s x h o acc f) := by
  unfold State.reach
  repeat' (first
      | with_reducible assumption | with_reducible apply reachTile_memWf | with_reducible apply State.refuse_memWf
      | with_reducible apply State.inTransit_memWf | with_reducible apply State.reissue_memWf
      | with_reducible apply h_f
      | (with_reducible refine of_second ‹_› ?_; first | with_reducible assumption | with_reducible apply reachTile_memWf)
      | split)

theorem State.outstanding_memWf (s : State) (l : Load) (h_s : MemWf s)
    : MemWf (State.outstanding s l) := by
  unfold State.outstanding
  repeat' (first
      | with_reducible assumption | with_reducible apply State.setMe_memWf | with_reducible apply State.due_memWf
      | split | simp -zeta only [MemWf.made, MemWf.form])

theorem loadElement_memWf (s : State) (o : OpH) (inv : Bool) (h_s : MemWf s)
    : MemWf (loadElement s o inv) := by
  unfold loadElement
  repeat' (first
      | with_reducible assumption | intro _ | with_reducible apply State.operand_memWf
      | with_reducible apply State.reach_memWf | with_reducible apply State.outstanding_memWf | split)

theorem execLLde_memWf (o : OpH) (s : State) (h_s : MemWf s) {st' : State} : (execLLde o s) = .next st' →
    MemWf st' := by
  unfold execLLde
  repeat' (first
      | with_reducible assumption | with_reducible refine next_memWf ?_ | with_reducible apply loadElement_memWf
      | split)

theorem execLLdei_memWf (o : OpH) (s : State) (h_s : MemWf s) {st' : State} : (execLLdei o s) = .next st' →
    MemWf st' := by
  unfold execLLdei
  repeat' (first
      | with_reducible assumption | with_reducible refine next_memWf ?_ | with_reducible apply loadElement_memWf
      | split)

theorem State.reachRow_memWf (s : State) (x : Fin 8) (h : BitVec 5) (p : Operand) (acc : Nat) (ls : List (Nat × Nat ×
    Nat)) (f : State → List (Nat × Place × Nat) → State) (h_s : MemWf s) (h_f : ∀ a0 a1, MemWf a0 → MemWf (f a0 a1))
    : MemWf (State.reachRow s x h p acc ls f) := by
  unfold State.reachRow
  repeat' (first
      | with_reducible assumption | with_reducible apply resolveLanes_memWf | with_reducible apply State.refuse_memWf
      | with_reducible apply State.inTransit_memWf | with_reducible apply State.reissue_memWf
      | with_reducible apply h_f
      | (with_reducible refine of_third ‹_› ?_; first | with_reducible assumption | with_reducible apply resolveLanes_memWf)
      | split | simp -zeta only [MemWf.made, MemWf.form])

theorem loadRow_memWf (s : State) (o : OpH) (inv : Bool) (h_s : MemWf s)
    : MemWf (loadRow s o inv) := by
  unfold loadRow
  repeat' (first
      | with_reducible assumption | intro _ | with_reducible apply State.operand_memWf
      | with_reducible apply State.reachRow_memWf | with_reducible apply State.outstanding_memWf | split)

theorem execLLdv_memWf (o : OpH) (s : State) (h_s : MemWf s) {st' : State} : (execLLdv o s) = .next st' →
    MemWf st' := by
  unfold execLLdv
  repeat' (first
      | with_reducible assumption | with_reducible refine next_memWf ?_ | with_reducible apply loadRow_memWf | split)

theorem execLLdvi_memWf (o : OpH) (s : State) (h_s : MemWf s) {st' : State} : (execLLdvi o s) = .next st' →
    MemWf st' := by
  unfold execLLdvi
  repeat' (first
      | with_reducible assumption | with_reducible refine next_memWf ?_ | with_reducible apply loadRow_memWf | split)

theorem prefetch_memWf (s : State) (o : OpH) (f : State → Place → Nat → State) (h_s : MemWf s)
    (h_f : ∀ a0 a1 a2, MemWf a0 → MemWf (f a0 a1 a2))
    : MemWf (prefetch s o f) := by
  unfold prefetch
  split
  · split
    · rename_i p _
      have hr := reachTile_memWf s s.now.core p.desc p.tile p.fmt false h_s
      generalize reachTile s s.now.core p.desc p.tile p.fmt false = r at hr
      obtain ⟨r, s1⟩ := r
      cases r with
      | ok e => exact ite_memWf hr (h_f _ _ _ hr)
      | miss => exact State.reissue_memWf _ _ hr
      | _ => exact hr
    · exact h_s
  · exact h_s

theorem execLPf_memWf (o : OpH) (s : State) (h_s : MemWf s) {st' : State} : (execLPf o s) = .next st' →
    MemWf st' := by
  unfold execLPf
  repeat' (first
      | with_reducible assumption | with_reducible refine next_memWf ?_ | with_reducible apply prefetch_memWf
      | with_reducible apply touchLine_memWf
      | (with_reducible refine of_second ‹_› ?_; first | with_reducible assumption | with_reducible apply touchLine_memWf)
      | split | intro _)

theorem execLPfL2_memWf (o : OpH) (s : State) (h_s : MemWf s) {st' : State} : (execLPfL2 o s) = .next st' →
    MemWf st' := by
  unfold execLPfL2
  repeat' (first
      | with_reducible assumption | with_reducible refine next_memWf ?_ | with_reducible apply prefetch_memWf
      | with_reducible apply touchHome_memWf | split | intro _)

theorem execLPfTile_memWf (o : OpH) (s : State) (h_s : MemWf s) {st' : State} : (execLPfTile o s) = .next st' →
    MemWf st' := by
  unfold execLPfTile
  repeat' (first
      | with_reducible assumption | with_reducible refine next_memWf ?_ | with_reducible apply prefetch_memWf
      | with_reducible apply touchHome_memWf | with_reducible apply upTo_memWf | split | intro _)

theorem State.resultH_memWf (s : State) (d : BitVec 6) (v : BitVec 704) (h_s : MemWf s)
    : MemWf (State.resultH s d v) := by
  unfold State.resultH
  repeat' (first
      | with_reducible assumption
      | (intro z; refine (fun hz : MemWf z => ?_) ?_; rotate_left; subst z; rotate_right; clear_value z)
      | (intro z; clear_value z) | lift_lets -underBinder | with_reducible apply State.setMe_memWf | split
      | simp -zeta only [MemWf.made, MemWf.form])

theorem execLHld_memWf (o : OpT) (s : State) (h_s : MemWf s) {st' : State} : (execLHld o s) = .next st' →
    MemWf st' := by
  unfold execLHld
  repeat' (first
      | with_reducible assumption | with_reducible refine next_memWf ?_
      | (intro z; refine (fun hz : MemWf z => ?_) ?_; rotate_left; subst z; rotate_right; clear_value z)
      | (intro z; clear_value z) | lift_lets -underBinder | with_reducible apply State.slotFault_memWf
      | with_reducible apply State.flatLoad_memWf | with_reducible apply State.outstanding_memWf | split | intro _)

theorem execLAdv_memWf (o : OpT) (s : State) (h_s : MemWf s) {st' : State} : (execLAdv o s) = .next st' →
    MemWf st' := by
  unfold execLAdv
  repeat' (first
      | with_reducible assumption | with_reducible refine next_memWf ?_
      | (intro z; refine (fun hz : MemWf z => ?_) ?_; rotate_left; subst z; rotate_right; clear_value z)
      | (intro z; clear_value z) | lift_lets -underBinder | with_reducible apply State.slotFault_memWf
      | with_reducible apply State.resultH_memWf | split)

theorem State.awaitQueue_memWf (s : State) (x : Fin 8) (sel : Word) (h_s : MemWf s)
    : MemWf (State.awaitQueue s x sel) := by
  unfold State.awaitQueue
  repeat' (first
      | with_reducible assumption | with_reducible apply State.reissue_memWf | with_reducible apply State.setMe_memWf
      | split)

theorem execLGpop_memWf (o : OpT) (s : State) (h_s : MemWf s) {st' : State} : (execLGpop o s) = .next st' →
    MemWf st' := by
  unfold execLGpop
  repeat' (first
      | with_reducible assumption | with_reducible refine next_memWf ?_ | with_reducible apply State.setMe_memWf
      | with_reducible apply State.notePop_memWf | with_reducible apply State.resultV_memWf
      | with_reducible apply State.awaitQueue_memWf | split | simp -zeta only [MemWf.made, MemWf.form])

theorem loadFault_memWf (s : State) (l : Load) (code : Code) (vec : Bool) (h_s : MemWf s)
    : MemWf (loadFault s l code vec) := by
  unfold loadFault
  repeat' (first
      | with_reducible assumption | with_reducible apply State.slotFault_memWf | with_reducible apply takeEngine_memWf
      | split)

theorem readLanes_memWf (c : CoreId) (w : Nat) (inv : Bool) (x1 : List (Nat × Place × Nat)) (x2 : Vec) (x3 : Option
    Code) (x4 : State) (h_x4 : MemWf x4)
    : MemWf (readLanes c w inv x1 x2 x3 x4).2.2 := by
  revert h_x4
  fun_induction readLanes c w inv x1 x2 x3 x4 <;> intros
  all_goals
    repeat' (first
      | with_reducible assumption | (with_reducible apply_assumption)
      | (intro z; refine (fun hz : MemWf z => ?_) ?_; rotate_left; subst z; rotate_right; clear_value z)
      | (intro z; refine (fun hz : MemWf z.2.2 => ?_) ?_; rotate_left; subst z; rotate_right; clear_value z)
      | (intro z; clear_value z) | intro _ | lift_lets -underBinder | with_reducible apply readElement_memWf
      | (with_reducible refine of_third ‹_› ?_; first | with_reducible assumption | with_reducible apply_assumption | with_reducible apply readElement_memWf)
      | split | dsimp only)

theorem hostError_memWf (s : State) (code : Code) (h_s : MemWf s)
    : MemWf (hostError s code) := by
  unfold hostError
  repeat' (first | with_reducible assumption | with_reducible apply hubRecord_memWf | split)

theorem landLoad_memWf (s : State) (l : Load) (h_s : MemWf s)
    : MemWf (landLoad s l) := by
  unfold landLoad
  repeat' (first
      | with_reducible assumption
      | (intro z; refine (fun hz : MemWf z => ?_) ?_; rotate_left; subst z; rotate_right; clear_value z)
      | (intro z; refine (fun hz : MemWf z.2.2 => ?_) ?_; rotate_left; subst z; rotate_right; clear_value z)
      | (intro z; clear_value z) | lift_lets -underBinder | with_reducible apply readElement_memWf
      | with_reducible apply loadFault_memWf | with_reducible apply hostError_memWf
      | with_reducible apply State.resultS_memWf | with_reducible apply readLanes_memWf
      | with_reducible apply State.resultV_memWf | with_reducible apply State.resultH_memWf
      | with_reducible apply State.refuse_memWf
      | (with_reducible refine of_third ‹_› ?_; first | with_reducible assumption | with_reducible apply readElement_memWf | with_reducible apply readLanes_memWf)
      | split)

theorem execLoadDataReturn_memWf (s : State) (h_s : MemWf s) {st' : State} : (execLoadDataReturn s) = .next st' →
    MemWf st' := by
  unfold execLoadDataReturn
  repeat' (first
      | with_reducible assumption | with_reducible refine next_memWf ?_ | with_reducible apply State.setMe_memWf
      | with_reducible apply State.dueFirst_memWf | with_reducible apply landLoad_memWf | split
      | simp -zeta only [MemWf.made, MemWf.form])

/-! ### Stores -/

theorem execWSte_memWf (o : OpH) (s : State) (h_s : MemWf s) {st' : State} : (execWSte o s) = .next st' →
    MemWf st' := by
  unfold execWSte
  repeat' (first
      | with_reducible assumption | with_reducible refine next_memWf ?_ | with_reducible apply State.operand_memWf
      | with_reducible apply State.reach_memWf | with_reducible apply State.enterGate_memWf | split | intro _)

theorem execWStv_memWf (o : OpH) (s : State) (h_s : MemWf s) {st' : State} : (execWStv o s) = .next st' →
    MemWf st' := by
  unfold execWStv
  repeat' (first
      | with_reducible assumption | with_reducible refine next_memWf ?_
      | (intro z; refine (fun hz : MemWf z => ?_) ?_; rotate_left; subst z; rotate_right; clear_value z)
      | (intro z; clear_value z) | lift_lets -underBinder | with_reducible apply State.operand_memWf
      | with_reducible apply State.reachRow_memWf | with_reducible apply State.enterGate_memWf | split | intro _)

theorem State.returnWord_memWf (s : State) (d : BitVec 6) (w : Word) (h_s : MemWf s)
    : MemWf (State.returnWord s d w) := by
  unfold State.returnWord
  repeat' (first
      | with_reducible assumption | with_reducible apply State.setMe_memWf | with_reducible apply State.dueFirst_memWf
      | split | simp -zeta only [MemWf.made, MemWf.form])

theorem speculative_memWf (s : State) (o : OpT) (op : Nat) (a : Word) (tte : BitVec 64) (key : Nat) (h_s : MemWf s)
    : MemWf (speculative s o op a tte key) := by
  refine State.returnWord_memWf _ _ _ ?_
  dsimp only
  split
  · exact h_s
  · exact touchHome_memWf _ _ _ _ h_s

theorem atomic_memWf (op : Fin 11) (o : OpT) (use : BitVec 3) (s : State) (h_s : MemWf s)
    : MemWf (atomic op o use s) := by
  unfold atomic
  repeat' (first
      | with_reducible assumption
      | (intro z; refine (fun hz : MemWf z => ?_) ?_; rotate_left; subst z; rotate_right; clear_value z)
      | (intro z; refine (fun hz : MemWf z.2.2 => ?_) ?_; rotate_left; subst z; rotate_right; clear_value z)
      | (intro z; clear_value z) | intro _ | lift_lets -underBinder | with_reducible apply State.notDet_memWf
      | with_reducible apply State.slotFault_memWf | with_reducible apply reachHome_memWf
      | with_reducible apply State.enterGate_memWf | with_reducible apply speculative_memWf
      | with_reducible apply fullRelease_memWf | with_reducible apply State.dueFirst_memWf
      | with_reducible apply State.refuse_memWf | with_reducible apply State.inTransit_memWf
      | with_reducible apply State.reissue_memWf
      | (with_reducible refine of_third ‹_› ?_; first | with_reducible assumption | with_reducible apply reachHome_memWf)
      | split)

theorem execWAadd_memWf (o : OpT) (use : BitVec 3) (s : State) (h_s : MemWf s) {st' : State} : (execWAadd o use s) =
    .next st' →
    MemWf st' := by
  unfold execWAadd
  repeat' (first
      | with_reducible assumption | with_reducible refine next_memWf ?_ | with_reducible apply atomic_memWf | split)

theorem execWAand_memWf (o : OpT) (use : BitVec 3) (s : State) (h_s : MemWf s) {st' : State} : (execWAand o use s) =
    .next st' →
    MemWf st' := by
  unfold execWAand
  repeat' (first
      | with_reducible assumption | with_reducible refine next_memWf ?_ | with_reducible apply atomic_memWf | split)

theorem execWAor_memWf (o : OpT) (use : BitVec 3) (s : State) (h_s : MemWf s) {st' : State} : (execWAor o use s) =
    .next st' →
    MemWf st' := by
  unfold execWAor
  repeat' (first
      | with_reducible assumption | with_reducible refine next_memWf ?_ | with_reducible apply atomic_memWf | split)

theorem execWAxor_memWf (o : OpT) (use : BitVec 3) (s : State) (h_s : MemWf s) {st' : State} : (execWAxor o use s) =
    .next st' →
    MemWf st' := by
  unfold execWAxor
  repeat' (first
      | with_reducible assumption | with_reducible refine next_memWf ?_ | with_reducible apply atomic_memWf | split)

theorem execWAmin_memWf (o : OpT) (use : BitVec 3) (s : State) (h_s : MemWf s) {st' : State} : (execWAmin o use s) =
    .next st' →
    MemWf st' := by
  unfold execWAmin
  repeat' (first
      | with_reducible assumption | with_reducible refine next_memWf ?_ | with_reducible apply atomic_memWf | split)

theorem execWAmax_memWf (o : OpT) (use : BitVec 3) (s : State) (h_s : MemWf s) {st' : State} : (execWAmax o use s) =
    .next st' →
    MemWf st' := by
  unfold execWAmax
  repeat' (first
      | with_reducible assumption | with_reducible refine next_memWf ?_ | with_reducible apply atomic_memWf | split)

theorem execWAminu_memWf (o : OpT) (use : BitVec 3) (s : State) (h_s : MemWf s) {st' : State} : (execWAminu o use s)
    = .next st' →
    MemWf st' := by
  unfold execWAminu
  repeat' (first
      | with_reducible assumption | with_reducible refine next_memWf ?_ | with_reducible apply atomic_memWf | split)

theorem execWAmaxu_memWf (o : OpT) (use : BitVec 3) (s : State) (h_s : MemWf s) {st' : State} : (execWAmaxu o use s)
    = .next st' →
    MemWf st' := by
  unfold execWAmaxu
  repeat' (first
      | with_reducible assumption | with_reducible refine next_memWf ?_ | with_reducible apply atomic_memWf | split)

theorem execWAswp_memWf (o : OpT) (use : BitVec 3) (s : State) (h_s : MemWf s) {st' : State} : (execWAswp o use s) =
    .next st' →
    MemWf st' := by
  unfold execWAswp
  repeat' (first
      | with_reducible assumption | with_reducible refine next_memWf ?_ | with_reducible apply atomic_memWf | split)

theorem execWAcas_memWf (o : OpT) (use : BitVec 3) (s : State) (h_s : MemWf s) {st' : State} : (execWAcas o use s) =
    .next st' →
    MemWf st' := by
  unfold execWAcas
  repeat' (first
      | with_reducible assumption | with_reducible refine next_memWf ?_ | with_reducible apply atomic_memWf | split)

theorem execWArd_memWf (o : OpT) (use : BitVec 3) (s : State) (h_s : MemWf s) {st' : State} : (execWArd o use s) =
    .next st' →
    MemWf st' := by
  unfold execWArd
  repeat' (first
      | with_reducible assumption | with_reducible refine next_memWf ?_ | with_reducible apply atomic_memWf | split)

theorem homeWord_memWf (s : State) (c : CoreId) (key : Nat) (h_s : MemWf s)
    : MemWf (homeWord s c key) := by
  unfold homeWord
  repeat' (first
      | with_reducible assumption | with_reducible apply touchHome_memWf | with_reducible apply dropHome_memWf | split)

theorem execAtomicAtHome_memWf (s : State) (h_s : MemWf s) {st' : State} : (execAtomicAtHome s) = .next st' →
    MemWf st' := by
  unfold execAtomicAtHome
  repeat' (first
      | with_reducible assumption | with_reducible refine next_memWf ?_
      | (intro z; refine (fun hz : MemWf z => ?_) ?_; rotate_left; subst z; rotate_right; clear_value z)
      | (intro z; clear_value z) | lift_lets -underBinder | with_reducible apply homeWord_memWf
      | with_reducible apply writeWord_memWf | with_reducible apply fullAcquire_memWf
      | with_reducible apply State.returnWord_memWf | split)

theorem execCombineBufferFlush_memWf (s : State) (h_s : MemWf s) {st' : State} : (execCombineBufferFlush s) = .next
    st' →
    MemWf st' := by
  unfold execCombineBufferFlush
  repeat' (first
      | with_reducible assumption | with_reducible refine next_memWf ?_ | with_reducible apply flushCombined_memWf
      | split)

theorem execWFrel_memWf (o : OpT) (s : State) (h_s : MemWf s) {st' : State} : (execWFrel o s) = .next st' →
    MemWf st' := by
  unfold execWFrel
  repeat' (first
      | with_reducible assumption | with_reducible refine next_memWf ?_ | with_reducible apply fullRelease_memWf
      | split)

theorem execWFacq_memWf (o : OpT) (s : State) (h_s : MemWf s) {st' : State} : (execWFacq o s) = .next st' →
    MemWf st' := by
  unfold execWFacq
  repeat' (first
      | with_reducible assumption | with_reducible refine next_memWf ?_ | with_reducible apply fullAcquire_memWf
      | split)

theorem execWFall_memWf (o : OpT) (s : State) (h_s : MemWf s) {st' : State} : (execWFall o s) = .next st' →
    MemWf st' := by
  unfold execWFall
  repeat' (first
      | with_reducible assumption | with_reducible refine next_memWf ?_ | with_reducible apply fullAcquire_memWf
      | with_reducible apply fullRelease_memWf | split)

theorem execWAcq_memWf (o : OpI) (s : State) (h_s : MemWf s) {st' : State} : (execWAcq o s) = .next st' →
    MemWf st' := by
  unfold execWAcq
  repeat' (first
      | with_reducible assumption | with_reducible refine next_memWf ?_
      | (intro z; refine (fun hz : MemWf z => ?_) ?_; rotate_left; subst z; rotate_right; clear_value z)
      | (intro z; clear_value z) | lift_lets -underBinder | with_reducible apply State.notDet_memWf
      | with_reducible apply State.refuse_memWf | with_reducible apply State.reissue_memWf
      | with_reducible apply State.atHome_memWf | with_reducible apply State.setMe_memWf
      | with_reducible apply State.dueFirst_memWf | split | simp -zeta only [MemWf.made, MemWf.form] | intro _)

theorem queueAcquire_memWf (s : State) (c : CoreId) (t : TowerId) (w : Wait) (h_s : MemWf s)
    : MemWf (queueAcquire s c t w) := by
  unfold queueAcquire
  repeat' (first
      | with_reducible assumption
      | (intro z; refine (fun hz : MemWf z => ?_) ?_; rotate_left; subst z; rotate_right; clear_value z)
      | (intro z; clear_value z) | lift_lets -underBinder | with_reducible apply State.setTower_memWf
      | with_reducible apply State.suspendAt_memWf | split | simp -zeta only [MemWf.made, MemWf.form])

theorem execSyncAcquireAtHome_memWf (s : State) (h_s : MemWf s) {st' : State} : (execSyncAcquireAtHome s) = .next st'
    →
    MemWf st' := by
  unfold execSyncAcquireAtHome
  repeat' (first
      | with_reducible assumption | with_reducible refine next_memWf ?_
      | (intro z; refine (fun hz : MemWf z => ?_) ?_; rotate_left; subst z; rotate_right; clear_value z)
      | (intro z; clear_value z) | lift_lets -underBinder | with_reducible apply completeAcquire_memWf
      | with_reducible apply State.setTower_memWf | with_reducible apply writeWord_memWf
      | with_reducible apply State.unstall_memWf | with_reducible apply State.refuse_memWf
      | with_reducible apply queueAcquire_memWf | split | simp -zeta only [MemWf.made, MemWf.form] | intro _)

theorem execWRel_memWf (o : OpI) (s : State) (h_s : MemWf s) {st' : State} : (execWRel o s) = .next st' →
    MemWf st' := by
  unfold execWRel
  repeat' (first
      | with_reducible assumption | with_reducible refine next_memWf ?_
      | (intro z; refine (fun hz : MemWf z => ?_) ?_; rotate_left; subst z; rotate_right; clear_value z)
      | (intro z; clear_value z) | lift_lets -underBinder | with_reducible apply State.notDet_memWf
      | with_reducible apply State.refuse_memWf | with_reducible apply State.atHome_memWf
      | with_reducible apply flushCombined_memWf | with_reducible apply flushQuantum_memWf
      | with_reducible apply writeBackLines_memWf | with_reducible apply State.dueFirst_memWf
      | with_reducible apply foldl_memWf | with_reducible apply foldlSnd_memWf | with_reducible apply foldlFst_memWf
      | split | intro _)

theorem execSyncReleaseAtHome_memWf (s : State) (h_s : MemWf s) {st' : State} : (execSyncReleaseAtHome s) = .next st'
    →
    MemWf st' := by
  unfold execSyncReleaseAtHome
  repeat' (first
      | with_reducible assumption | with_reducible refine next_memWf ?_
      | (intro z; refine (fun hz : MemWf z => ?_) ?_; rotate_left; subst z; rotate_right; clear_value z)
      | (intro z; clear_value z) | lift_lets -underBinder | with_reducible apply writeWord_memWf
      | with_reducible apply State.setMe_memWf | with_reducible apply grantWaiters_memWf | split
      | simp -zeta only [MemWf.made, MemWf.form])

theorem execWBind_memWf (o : OpT) (s : State) (h_s : MemWf s) {st' : State} : (execWBind o s) = .next st' →
    MemWf st' := by
  unfold execWBind
  repeat' (first
      | with_reducible assumption | with_reducible refine next_memWf ?_ | with_reducible exact fault_memWf
      | (intro z; refine (fun hz : MemWf z => ?_) ?_; rotate_left; subst z; rotate_right; clear_value z)
      | (intro z; refine (fun hz : MemWf z.2 => ?_) ?_; rotate_left; subst z; rotate_right; clear_value z)
      | (intro z; refine (fun hz : MemWf z.2.2 => ?_) ?_; rotate_left; subst z; rotate_right; clear_value z)
      | (intro z; clear_value z) | lift_lets -underBinder | with_reducible apply State.slotFault_memWf
      | with_reducible apply State.refuse_memWf | with_reducible apply State.flatLoad_memWf
      | with_reducible apply readElement_memWf | with_reducible apply reachTile_memWf
      | with_reducible apply writeHome_memWf | with_reducible apply State.setMe_memWf
      | with_reducible apply State.inTransit_memWf | with_reducible apply State.reissue_memWf
      | (with_reducible refine of_second ‹_› ?_; first | with_reducible assumption | with_reducible apply reachTile_memWf)
      | (with_reducible refine of_third ‹_› ?_; first | with_reducible assumption | with_reducible apply readElement_memWf)
      | split | simp -zeta only [MemWf.made, MemWf.form] | intro _)

theorem completeRange_memWf (s : State) (c : CoreId) (w : Wait) (status : Code) (h_s : MemWf s)
    : MemWf (completeRange s c w status) := by
  unfold completeRange
  repeat' (first
      | with_reducible assumption
      | (intro z; refine (fun hz : MemWf z => ?_) ?_; rotate_left; subst z; rotate_right; clear_value z)
      | (intro z; clear_value z) | lift_lets -underBinder | with_reducible apply State.setCore_memWf
      | with_reducible apply fullAcquire_memWf | split)

theorem rangeRequest_memWf (s : State) (o : OpT) (release : Bool) (h_s : MemWf s)
    : MemWf (rangeRequest s o release) := by
  unfold rangeRequest
  repeat' (first
      | with_reducible assumption
      | (intro z; refine (fun hz : MemWf z => ?_) ?_; rotate_left; subst z; rotate_right; clear_value z)
      | (intro z; clear_value z) | intro _ | lift_lets -underBinder | with_reducible apply State.notDet_memWf
      | with_reducible apply State.slotFault_memWf | with_reducible apply State.refuse_memWf
      | with_reducible apply State.reissue_memWf | with_reducible apply fullRelease_memWf
      | with_reducible apply completeRange_memWf | with_reducible apply State.setTower_memWf
      | with_reducible apply State.askWalker_memWf | with_reducible apply State.suspendAt_memWf
      | with_reducible apply State.setMe_memWf | split | simp -zeta only [MemWf.made, MemWf.form])

theorem execWRacq_memWf (o : OpT) (s : State) (h_s : MemWf s) {st' : State} : (execWRacq o s) = .next st' →
    MemWf st' := by
  unfold execWRacq
  repeat' (first
      | with_reducible assumption | with_reducible refine next_memWf ?_ | with_reducible apply rangeRequest_memWf
      | split)

theorem execWRrel_memWf (o : OpT) (s : State) (h_s : MemWf s) {st' : State} : (execWRrel o s) = .next st' →
    MemWf st' := by
  unfold execWRrel
  repeat' (first
      | with_reducible assumption | with_reducible refine next_memWf ?_ | with_reducible apply rangeRequest_memWf
      | split)

/-! ### Flags -/

theorem State.resultVX_memWf (s : State) (x : Fin 8) (ref : RegRef) (v : Vec) (fl : Flags) (lat : Nat) (h_s : MemWf s)
    : MemWf (State.resultVX s x ref v fl lat) := by
  unfold State.resultVX
  repeat' (first
      | with_reducible assumption | with_reducible apply State.setMe_memWf
      | with_reducible apply State.raiseFlags_memWf | split)

theorem elementwise_memWf (s : State) (x : Fin 8) (o : OpT) (n : Nat) (w : Nat) (lat : Nat) (f : Nat → Nat × Flags)
    (h_s : MemWf s)
    : MemWf (elementwise s x o n w lat f) := by
  unfold elementwise
  repeat' (first
      | with_reducible assumption
      | (intro z; refine (fun hz : MemWf z => ?_) ?_; rotate_left; subst z; rotate_right; clear_value z)
      | (intro z; clear_value z) | lift_lets -underBinder | with_reducible apply State.resultVX_memWf | split)

/-! ### Vector -/

theorem floatOp_memWf (s : State) (o : OpT) (ty : BitVec 3) (f : Nat → Num → Num → Num → Num × Flags) (h_s : MemWf s)
    : MemWf (floatOp s o ty f) := by
  unfold floatOp
  repeat' (first
      | with_reducible assumption
      | (intro z; refine (fun hz : MemWf z => ?_) ?_; rotate_left; subst z; rotate_right; clear_value z)
      | (intro z; clear_value z) | intro _ | lift_lets -underBinder | with_reducible apply elementwise_memWf | split)

theorem execVFadd_memWf (o : OpT) (ty : BitVec 3) (s : State) (h_s : MemWf s) {st' : State} : (execVFadd o ty s) =
    .next st' →
    MemWf st' := by
  unfold execVFadd
  repeat' (first
      | with_reducible assumption | with_reducible refine next_memWf ?_ | with_reducible apply floatOp_memWf | split
      | intro _)

theorem execVFsub_memWf (o : OpT) (ty : BitVec 3) (s : State) (h_s : MemWf s) {st' : State} : (execVFsub o ty s) =
    .next st' →
    MemWf st' := by
  unfold execVFsub
  repeat' (first
      | with_reducible assumption | with_reducible refine next_memWf ?_ | with_reducible apply floatOp_memWf | split
      | intro _)

theorem execVFmul_memWf (o : OpT) (ty : BitVec 3) (s : State) (h_s : MemWf s) {st' : State} : (execVFmul o ty s) =
    .next st' →
    MemWf st' := by
  unfold execVFmul
  repeat' (first
      | with_reducible assumption | with_reducible refine next_memWf ?_ | with_reducible apply floatOp_memWf | split
      | intro _)

theorem execVFma_memWf (o : OpT) (ty : BitVec 3) (s : State) (h_s : MemWf s) {st' : State} : (execVFma o ty s) =
    .next st' →
    MemWf st' := by
  unfold execVFma
  repeat' (first
      | with_reducible assumption | with_reducible refine next_memWf ?_ | with_reducible apply floatOp_memWf | split
      | intro _)

theorem execVFnma_memWf (o : OpT) (ty : BitVec 3) (s : State) (h_s : MemWf s) {st' : State} : (execVFnma o ty s) =
    .next st' →
    MemWf st' := by
  unfold execVFnma
  repeat' (first
      | with_reducible assumption | with_reducible refine next_memWf ?_ | with_reducible apply floatOp_memWf | split
      | intro _)

theorem floatPick_memWf (s : State) (o : OpT) (ty : BitVec 3) (isMax : Bool) (h_s : MemWf s)
    : MemWf (floatPick s o ty isMax) := by
  unfold floatPick
  repeat' (first
      | with_reducible assumption
      | (intro z; refine (fun hz : MemWf z => ?_) ?_; rotate_left; subst z; rotate_right; clear_value z)
      | (intro z; clear_value z) | intro _ | lift_lets -underBinder | with_reducible apply elementwise_memWf | split)

theorem execVFmax_memWf (o : OpT) (ty : BitVec 3) (s : State) (h_s : MemWf s) {st' : State} : (execVFmax o ty s) =
    .next st' →
    MemWf st' := by
  unfold execVFmax
  repeat' (first
      | with_reducible assumption | with_reducible refine next_memWf ?_ | with_reducible apply floatPick_memWf | split)

theorem execVFmin_memWf (o : OpT) (ty : BitVec 3) (s : State) (h_s : MemWf s) {st' : State} : (execVFmin o ty s) =
    .next st' →
    MemWf st' := by
  unfold execVFmin
  repeat' (first
      | with_reducible assumption | with_reducible refine next_memWf ?_ | with_reducible apply floatPick_memWf | split)

theorem compareElements_memWf (s : State) (o : OpT) (w : Nat) (lat : Nat) (f : Nat → Bool × Flags) (h_s : MemWf s)
    : MemWf (compareElements s o w lat f) := by
  unfold compareElements
  repeat' (first
      | with_reducible assumption
      | (intro z; refine (fun hz : MemWf z => ?_) ?_; rotate_left; subst z; rotate_right; clear_value z)
      | (intro z; clear_value z) | intro _ | lift_lets -underBinder | with_reducible apply State.resultVX_memWf
      | split)

theorem floatCompare_memWf (s : State) (o : OpT) (ty : BitVec 3) (nanFlag : Flags) (f : Num → Num → Bool) (h_s :
    MemWf s)
    : MemWf (floatCompare s o ty nanFlag f) := by
  unfold floatCompare
  repeat' (first
      | with_reducible assumption
      | (intro z; refine (fun hz : MemWf z => ?_) ?_; rotate_left; subst z; rotate_right; clear_value z)
      | (intro z; clear_value z) | intro _ | lift_lets -underBinder | with_reducible apply compareElements_memWf
      | split)

theorem execVFceq_memWf (o : OpT) (ty : BitVec 3) (s : State) (h_s : MemWf s) {st' : State} : (execVFceq o ty s) =
    .next st' →
    MemWf st' := by
  unfold execVFceq
  repeat' (first
      | with_reducible assumption | with_reducible refine next_memWf ?_ | with_reducible apply floatCompare_memWf
      | split | intro _)

theorem execVFclt_memWf (o : OpT) (ty : BitVec 3) (s : State) (h_s : MemWf s) {st' : State} : (execVFclt o ty s) =
    .next st' →
    MemWf st' := by
  unfold execVFclt
  repeat' (first
      | with_reducible assumption | with_reducible refine next_memWf ?_ | with_reducible apply floatCompare_memWf
      | split | intro _)

theorem execVFcle_memWf (o : OpT) (ty : BitVec 3) (s : State) (h_s : MemWf s) {st' : State} : (execVFcle o ty s) =
    .next st' →
    MemWf st' := by
  unfold execVFcle
  repeat' (first
      | with_reducible assumption | with_reducible refine next_memWf ?_ | with_reducible apply floatCompare_memWf
      | split | intro _)

theorem intCompare_memWf (s : State) (o : OpT) (ty : BitVec 3) (f : Int → Int → Bool) (h_s : MemWf s)
    : MemWf (intCompare s o ty f) := by
  unfold intCompare
  repeat' (first
      | with_reducible assumption
      | (intro z; refine (fun hz : MemWf z => ?_) ?_; rotate_left; subst z; rotate_right; clear_value z)
      | (intro z; clear_value z) | intro _ | lift_lets -underBinder | with_reducible apply compareElements_memWf
      | split)

theorem execVCeq_memWf (o : OpT) (ty : BitVec 3) (s : State) (h_s : MemWf s) {st' : State} : (execVCeq o ty s) =
    .next st' →
    MemWf st' := by
  unfold execVCeq
  repeat' (first
      | with_reducible assumption | with_reducible refine next_memWf ?_ | with_reducible apply intCompare_memWf
      | split | intro _)

theorem execVClt_memWf (o : OpT) (ty : BitVec 3) (s : State) (h_s : MemWf s) {st' : State} : (execVClt o ty s) =
    .next st' →
    MemWf st' := by
  unfold execVClt
  repeat' (first
      | with_reducible assumption | with_reducible refine next_memWf ?_ | with_reducible apply intCompare_memWf
      | split | intro _)

theorem signOp_memWf (s : State) (o : OpT) (ty : BitVec 3) (f : Bool → Bool) (h_s : MemWf s)
    : MemWf (signOp s o ty f) := by
  unfold signOp
  repeat' (first
      | with_reducible assumption
      | (intro z; refine (fun hz : MemWf z => ?_) ?_; rotate_left; subst z; rotate_right; clear_value z)
      | (intro z; clear_value z) | intro _ | lift_lets -underBinder | with_reducible apply elementwise_memWf | split)

theorem execVFabs_memWf (o : OpT) (ty : BitVec 3) (s : State) (h_s : MemWf s) {st' : State} : (execVFabs o ty s) =
    .next st' →
    MemWf st' := by
  unfold execVFabs
  repeat' (first
      | with_reducible assumption | with_reducible refine next_memWf ?_ | with_reducible apply signOp_memWf | split
      | intro _)

theorem execVFneg_memWf (o : OpT) (ty : BitVec 3) (s : State) (h_s : MemWf s) {st' : State} : (execVFneg o ty s) =
    .next st' →
    MemWf st' := by
  unfold execVFneg
  repeat' (first
      | with_reducible assumption | with_reducible refine next_memWf ?_ | with_reducible apply signOp_memWf | split
      | intro _)

theorem intOp_memWf (s : State) (o : OpT) (ty : BitVec 3) (f : Nat → Nat → Nat → Nat × Flags) (h_s : MemWf s)
    : MemWf (intOp s o ty f) := by
  unfold intOp
  repeat' (first
      | with_reducible assumption
      | (intro z; refine (fun hz : MemWf z => ?_) ?_; rotate_left; subst z; rotate_right; clear_value z)
      | (intro z; clear_value z) | intro _ | lift_lets -underBinder | with_reducible apply elementwise_memWf | split)

theorem execVAdd_memWf (o : OpT) (ty : BitVec 3) (s : State) (h_s : MemWf s) {st' : State} : (execVAdd o ty s) =
    .next st' →
    MemWf st' := by
  unfold execVAdd
  repeat' (first
      | with_reducible assumption | with_reducible refine next_memWf ?_ | with_reducible apply intOp_memWf | split
      | intro _)

theorem execVSub_memWf (o : OpT) (ty : BitVec 3) (s : State) (h_s : MemWf s) {st' : State} : (execVSub o ty s) =
    .next st' →
    MemWf st' := by
  unfold execVSub
  repeat' (first
      | with_reducible assumption | with_reducible refine next_memWf ?_ | with_reducible apply intOp_memWf | split
      | intro _)

theorem execVMul_memWf (o : OpT) (ty : BitVec 3) (s : State) (h_s : MemWf s) {st' : State} : (execVMul o ty s) =
    .next st' →
    MemWf st' := by
  unfold execVMul
  repeat' (first
      | with_reducible assumption | with_reducible refine next_memWf ?_ | with_reducible apply intOp_memWf | split
      | intro _)

theorem execVAdds_memWf (o : OpT) (ty : BitVec 3) (s : State) (h_s : MemWf s) {st' : State} : (execVAdds o ty s) =
    .next st' →
    MemWf st' := by
  unfold execVAdds
  repeat' (first
      | with_reducible assumption | with_reducible refine next_memWf ?_ | with_reducible apply intOp_memWf | split
      | intro _)

theorem execVSubs_memWf (o : OpT) (ty : BitVec 3) (s : State) (h_s : MemWf s) {st' : State} : (execVSubs o ty s) =
    .next st' →
    MemWf st' := by
  unfold execVSubs
  repeat' (first
      | with_reducible assumption | with_reducible refine next_memWf ?_ | with_reducible apply intOp_memWf | split
      | intro _)

theorem execVMin_memWf (o : OpT) (ty : BitVec 3) (s : State) (h_s : MemWf s) {st' : State} : (execVMin o ty s) =
    .next st' →
    MemWf st' := by
  unfold execVMin
  repeat' (first
      | with_reducible assumption | with_reducible refine next_memWf ?_ | with_reducible apply intOp_memWf | split
      | intro _)

theorem execVMax_memWf (o : OpT) (ty : BitVec 3) (s : State) (h_s : MemWf s) {st' : State} : (execVMax o ty s) =
    .next st' →
    MemWf st' := by
  unfold execVMax
  repeat' (first
      | with_reducible assumption | with_reducible refine next_memWf ?_ | with_reducible apply intOp_memWf | split
      | intro _)

theorem execVAnd_memWf (o : OpT) (ty : BitVec 3) (s : State) (h_s : MemWf s) {st' : State} : (execVAnd o ty s) =
    .next st' →
    MemWf st' := by
  unfold execVAnd
  repeat' (first
      | with_reducible assumption | with_reducible refine next_memWf ?_ | with_reducible apply intOp_memWf | split
      | intro _)

theorem execVOr_memWf (o : OpT) (ty : BitVec 3) (s : State) (h_s : MemWf s) {st' : State} : (execVOr o ty s) = .next
    st' →
    MemWf st' := by
  unfold execVOr
  repeat' (first
      | with_reducible assumption | with_reducible refine next_memWf ?_ | with_reducible apply intOp_memWf | split
      | intro _)

theorem execVXor_memWf (o : OpT) (ty : BitVec 3) (s : State) (h_s : MemWf s) {st' : State} : (execVXor o ty s) =
    .next st' →
    MemWf st' := by
  unfold execVXor
  repeat' (first
      | with_reducible assumption | with_reducible refine next_memWf ?_ | with_reducible apply intOp_memWf | split
      | intro _)

theorem execVShl_memWf (o : OpT) (ty : BitVec 3) (s : State) (h_s : MemWf s) {st' : State} : (execVShl o ty s) =
    .next st' →
    MemWf st' := by
  unfold execVShl
  repeat' (first
      | with_reducible assumption | with_reducible refine next_memWf ?_ | with_reducible apply intOp_memWf | split
      | intro _)

theorem execVSra_memWf (o : OpT) (ty : BitVec 3) (s : State) (h_s : MemWf s) {st' : State} : (execVSra o ty s) =
    .next st' →
    MemWf st' := by
  unfold execVSra
  repeat' (first
      | with_reducible assumption | with_reducible refine next_memWf ?_ | with_reducible apply intOp_memWf | split
      | intro _)

theorem execVShr_memWf (o : OpT) (ty : BitVec 3) (s : State) (h_s : MemWf s) {st' : State} : (execVShr o ty s) =
    .next st' →
    MemWf st' := by
  unfold execVShr
  repeat' (first
      | with_reducible assumption | with_reducible refine next_memWf ?_ | with_reducible apply intOp_memWf | split
      | intro _)

theorem maskOp_memWf (s : State) (o : OpT) (f : Mask → Mask → Mask) (h_s : MemWf s)
    : MemWf (maskOp s o f) := by
  unfold maskOp
  repeat' (first
      | with_reducible assumption
      | (intro z; refine (fun hz : MemWf z => ?_) ?_; rotate_left; subst z; rotate_right; clear_value z)
      | (intro z; clear_value z) | lift_lets -underBinder | with_reducible apply State.resultVX_memWf | split)

theorem execVKand_memWf (o : OpT) (s : State) (h_s : MemWf s) {st' : State} : (execVKand o s) = .next st' →
    MemWf st' := by
  unfold execVKand
  repeat' (first
      | with_reducible assumption | with_reducible refine next_memWf ?_ | with_reducible apply maskOp_memWf | split
      | intro _)

theorem execVKor_memWf (o : OpT) (s : State) (h_s : MemWf s) {st' : State} : (execVKor o s) = .next st' →
    MemWf st' := by
  unfold execVKor
  repeat' (first
      | with_reducible assumption | with_reducible refine next_memWf ?_ | with_reducible apply maskOp_memWf | split
      | intro _)

theorem execVKxor_memWf (o : OpT) (s : State) (h_s : MemWf s) {st' : State} : (execVKxor o s) = .next st' →
    MemWf st' := by
  unfold execVKxor
  repeat' (first
      | with_reducible assumption | with_reducible refine next_memWf ?_ | with_reducible apply maskOp_memWf | split
      | intro _)

theorem execVKandn_memWf (o : OpT) (s : State) (h_s : MemWf s) {st' : State} : (execVKandn o s) = .next st' →
    MemWf st' := by
  unfold execVKandn
  repeat' (first
      | with_reducible assumption | with_reducible refine next_memWf ?_ | with_reducible apply maskOp_memWf | split
      | intro _)

theorem floatReduce_memWf (s : State) (o : OpT) (ty : BitVec 3) (ident : Nat) (op : Nat → Nat → Nat × Flags) (h_s :
    MemWf s)
    : MemWf (floatReduce s o ty ident op) := by
  unfold floatReduce
  repeat' (first
      | with_reducible assumption
      | (intro z; refine (fun hz : MemWf z => ?_) ?_; rotate_left; subst z; rotate_right; clear_value z)
      | (intro z; clear_value z) | intro _ | lift_lets -underBinder | with_reducible apply State.resultVX_memWf
      | split)

theorem execVRsum_memWf (o : OpT) (ty : BitVec 3) (s : State) (h_s : MemWf s) {st' : State} : (execVRsum o ty s) =
    .next st' →
    MemWf st' := by
  unfold execVRsum
  repeat' (first
      | with_reducible assumption | with_reducible refine next_memWf ?_ | with_reducible apply floatReduce_memWf
      | split | intro _)

theorem execVRmax_memWf (o : OpT) (ty : BitVec 3) (s : State) (h_s : MemWf s) {st' : State} : (execVRmax o ty s) =
    .next st' →
    MemWf st' := by
  unfold execVRmax
  repeat' (first
      | with_reducible assumption | with_reducible refine next_memWf ?_ | with_reducible apply floatReduce_memWf
      | split | intro _)

theorem execVRmin_memWf (o : OpT) (ty : BitVec 3) (s : State) (h_s : MemWf s) {st' : State} : (execVRmin o ty s) =
    .next st' →
    MemWf st' := by
  unfold execVRmin
  repeat' (first
      | with_reducible assumption | with_reducible refine next_memWf ?_ | with_reducible apply floatReduce_memWf
      | split | intro _)

theorem execVRisum_memWf (o : OpT) (ty : BitVec 3) (s : State) (h_s : MemWf s) {st' : State} : (execVRisum o ty s) =
    .next st' →
    MemWf st' := by
  unfold execVRisum
  repeat' (first
      | with_reducible assumption | with_reducible refine next_memWf ?_
      | (intro z; refine (fun hz : MemWf z => ?_) ?_; rotate_left; subst z; rotate_right; clear_value z)
      | (intro z; clear_value z) | lift_lets -underBinder | with_reducible apply State.resultVX_memWf
      | with_reducible apply upTo_memWf | split | intro _)

theorem execVPerm_memWf (o : OpT) (ty : BitVec 3) (s : State) (h_s : MemWf s) {st' : State} : (execVPerm o ty s) =
    .next st' →
    MemWf st' := by
  unfold execVPerm
  repeat' (first
      | with_reducible assumption | with_reducible refine next_memWf ?_
      | (intro z; refine (fun hz : MemWf z => ?_) ?_; rotate_left; subst z; rotate_right; clear_value z)
      | (intro z; clear_value z) | lift_lets -underBinder | with_reducible apply elementwise_memWf | split | intro _)

theorem execVBcst_memWf (o : OpT) (ty : BitVec 3) (s : State) (h_s : MemWf s) {st' : State} : (execVBcst o ty s) =
    .next st' →
    MemWf st' := by
  unfold execVBcst
  repeat' (first
      | with_reducible assumption | with_reducible refine next_memWf ?_
      | (intro z; refine (fun hz : MemWf z => ?_) ?_; rotate_left; subst z; rotate_right; clear_value z)
      | (intro z; clear_value z) | lift_lets -underBinder | with_reducible apply elementwise_memWf | split | intro _)

theorem execVSlide_memWf (o : OpT) (ty : BitVec 3) (s : State) (h_s : MemWf s) {st' : State} : (execVSlide o ty s) =
    .next st' →
    MemWf st' := by
  unfold execVSlide
  repeat' (first
      | with_reducible assumption | with_reducible refine next_memWf ?_
      | (intro z; refine (fun hz : MemWf z => ?_) ?_; rotate_left; subst z; rotate_right; clear_value z)
      | (intro z; clear_value z) | lift_lets -underBinder | with_reducible apply elementwise_memWf | split | intro _)

theorem transR_memWf (f : Trans7) (s : State) (o : OpT) (ty : BitVec 3) (h_s : MemWf s)
    : MemWf (transR f s o ty) := by
  unfold transR
  repeat' (first
      | with_reducible assumption
      | (intro z; refine (fun hz : MemWf z => ?_) ?_; rotate_left; subst z; rotate_right; clear_value z)
      | (intro z; clear_value z) | intro _ | lift_lets -underBinder | with_reducible apply elementwise_memWf | split)

theorem transF_memWf (f : Trans7) (s : State) (o : OpT) (ty : BitVec 3) (h_s : MemWf s)
    : MemWf (transF f s o ty) := by
  unfold transF
  repeat' (first
      | with_reducible assumption
      | (intro z; refine (fun hz : MemWf z => ?_) ?_; rotate_left; subst z; rotate_right; clear_value z)
      | (intro z; clear_value z) | intro _ | lift_lets -underBinder | with_reducible apply elementwise_memWf | split)

theorem execVExp2r_memWf (o : OpT) (ty : BitVec 3) (s : State) (h_s : MemWf s) {st' : State} : (execVExp2r o ty s) =
    .next st' →
    MemWf st' := by
  unfold execVExp2r
  repeat' (first
      | with_reducible assumption | with_reducible refine next_memWf ?_ | with_reducible apply transR_memWf | split)

theorem execVExp2f_memWf (o : OpT) (ty : BitVec 3) (s : State) (h_s : MemWf s) {st' : State} : (execVExp2f o ty s) =
    .next st' →
    MemWf st' := by
  unfold execVExp2f
  repeat' (first
      | with_reducible assumption | with_reducible refine next_memWf ?_ | with_reducible apply transF_memWf | split)

theorem execVLog2r_memWf (o : OpT) (ty : BitVec 3) (s : State) (h_s : MemWf s) {st' : State} : (execVLog2r o ty s) =
    .next st' →
    MemWf st' := by
  unfold execVLog2r
  repeat' (first
      | with_reducible assumption | with_reducible refine next_memWf ?_ | with_reducible apply transR_memWf | split)

theorem execVLog2f_memWf (o : OpT) (ty : BitVec 3) (s : State) (h_s : MemWf s) {st' : State} : (execVLog2f o ty s) =
    .next st' →
    MemWf st' := by
  unfold execVLog2f
  repeat' (first
      | with_reducible assumption | with_reducible refine next_memWf ?_ | with_reducible apply transF_memWf | split)

theorem execVRcpr_memWf (o : OpT) (ty : BitVec 3) (s : State) (h_s : MemWf s) {st' : State} : (execVRcpr o ty s) =
    .next st' →
    MemWf st' := by
  unfold execVRcpr
  repeat' (first
      | with_reducible assumption | with_reducible refine next_memWf ?_ | with_reducible apply transR_memWf | split)

theorem execVRcpf_memWf (o : OpT) (ty : BitVec 3) (s : State) (h_s : MemWf s) {st' : State} : (execVRcpf o ty s) =
    .next st' →
    MemWf st' := by
  unfold execVRcpf
  repeat' (first
      | with_reducible assumption | with_reducible refine next_memWf ?_ | with_reducible apply transF_memWf | split)

theorem execVRsqr_memWf (o : OpT) (ty : BitVec 3) (s : State) (h_s : MemWf s) {st' : State} : (execVRsqr o ty s) =
    .next st' →
    MemWf st' := by
  unfold execVRsqr
  repeat' (first
      | with_reducible assumption | with_reducible refine next_memWf ?_ | with_reducible apply transR_memWf | split)

theorem execVRsqf_memWf (o : OpT) (ty : BitVec 3) (s : State) (h_s : MemWf s) {st' : State} : (execVRsqf o ty s) =
    .next st' →
    MemWf st' := by
  unfold execVRsqf
  repeat' (first
      | with_reducible assumption | with_reducible refine next_memWf ?_ | with_reducible apply transF_memWf | split)

theorem execVTanhr_memWf (o : OpT) (ty : BitVec 3) (s : State) (h_s : MemWf s) {st' : State} : (execVTanhr o ty s) =
    .next st' →
    MemWf st' := by
  unfold execVTanhr
  repeat' (first
      | with_reducible assumption | with_reducible refine next_memWf ?_ | with_reducible apply transR_memWf | split)

theorem execVTanhf_memWf (o : OpT) (ty : BitVec 3) (s : State) (h_s : MemWf s) {st' : State} : (execVTanhf o ty s) =
    .next st' →
    MemWf st' := by
  unfold execVTanhf
  repeat' (first
      | with_reducible assumption | with_reducible refine next_memWf ?_ | with_reducible apply transF_memWf | split)

theorem execVSinr_memWf (o : OpT) (ty : BitVec 3) (s : State) (h_s : MemWf s) {st' : State} : (execVSinr o ty s) =
    .next st' →
    MemWf st' := by
  unfold execVSinr
  repeat' (first
      | with_reducible assumption | with_reducible refine next_memWf ?_ | with_reducible apply transR_memWf | split)

theorem execVSinf_memWf (o : OpT) (ty : BitVec 3) (s : State) (h_s : MemWf s) {st' : State} : (execVSinf o ty s) =
    .next st' →
    MemWf st' := by
  unfold execVSinf
  repeat' (first
      | with_reducible assumption | with_reducible refine next_memWf ?_ | with_reducible apply transF_memWf | split)

theorem execVCosr_memWf (o : OpT) (ty : BitVec 3) (s : State) (h_s : MemWf s) {st' : State} : (execVCosr o ty s) =
    .next st' →
    MemWf st' := by
  unfold execVCosr
  repeat' (first
      | with_reducible assumption | with_reducible refine next_memWf ?_ | with_reducible apply transR_memWf | split)

theorem execVCosf_memWf (o : OpT) (ty : BitVec 3) (s : State) (h_s : MemWf s) {st' : State} : (execVCosf o ty s) =
    .next st' →
    MemWf st' := by
  unfold execVCosf
  repeat' (first
      | with_reducible assumption | with_reducible refine next_memWf ?_ | with_reducible apply transF_memWf | split)

theorem execVXscl_memWf (o : OpT) (ty : BitVec 3) (s : State) (h_s : MemWf s) {st' : State} : (execVXscl o ty s) =
    .next st' →
    MemWf st' := by
  unfold execVXscl
  repeat' (first
      | with_reducible assumption | with_reducible refine next_memWf ?_
      | (intro z; refine (fun hz : MemWf z => ?_) ?_; rotate_left; subst z; rotate_right; clear_value z)
      | (intro z; clear_value z) | lift_lets -underBinder | with_reducible apply State.slotFault_memWf
      | with_reducible apply State.resultVX_memWf | with_reducible apply upTo_memWf | split | intro _)

/-! ### Transposer -/

theorem execXCvt_memWf (o : OpXC) (s : State) (h_s : MemWf s) {st' : State} : (execXCvt o s) = .next st' →
    MemWf st' := by
  unfold execXCvt
  repeat' (first
      | with_reducible assumption | with_reducible refine next_memWf ?_
      | (intro z; refine (fun hz : MemWf z => ?_) ?_; rotate_left; subst z; rotate_right; clear_value z)
      | (intro z; clear_value z) | lift_lets -underBinder | with_reducible apply State.resultVX_memWf
      | with_reducible apply upTo_memWf | split | intro _)

theorem State.xOperandFault_memWf (s : State) (h_s : MemWf s)
    : MemWf (State.xOperandFault s) := by
  unfold State.xOperandFault
  repeat' (first | with_reducible assumption | with_reducible apply State.slotFault_memWf | split)

theorem execXMxq_memWf (o : OpT) (s : State) (h_s : MemWf s) {st' : State} : (execXMxq o s) = .next st' →
    MemWf st' := by
  unfold execXMxq
  repeat' (first
      | with_reducible assumption | with_reducible refine next_memWf ?_
      | (intro z; refine (fun hz : MemWf z => ?_) ?_; rotate_left; subst z; rotate_right; clear_value z)
      | (intro z; clear_value z) | lift_lets -underBinder | with_reducible apply State.xOperandFault_memWf
      | with_reducible apply State.resultVX_memWf | with_reducible apply upTo_memWf | split | intro _)

theorem execXMxd_memWf (o : OpT) (s : State) (h_s : MemWf s) {st' : State} : (execXMxd o s) = .next st' →
    MemWf st' := by
  unfold execXMxd
  repeat' (first
      | with_reducible assumption | with_reducible refine next_memWf ?_
      | (intro z; refine (fun hz : MemWf z => ?_) ?_; rotate_left; subst z; rotate_right; clear_value z)
      | (intro z; clear_value z) | lift_lets -underBinder | with_reducible apply State.xOperandFault_memWf
      | with_reducible apply elementwise_memWf | split | intro _)

theorem execXSaq_memWf (o : OpT) (s : State) (h_s : MemWf s) {st' : State} : (execXSaq o s) = .next st' →
    MemWf st' := by
  unfold execXSaq
  repeat' (first
      | with_reducible assumption | with_reducible refine next_memWf ?_
      | (intro z; refine (fun hz : MemWf z => ?_) ?_; rotate_left; subst z; rotate_right; clear_value z)
      | (intro z; clear_value z) | lift_lets -underBinder | with_reducible apply State.xOperandFault_memWf
      | with_reducible apply State.resultVX_memWf | with_reducible apply upTo_memWf | split | intro _)

theorem execXBpt_memWf (o : OpH) (s : State) (h_s : MemWf s) {st' : State} : (execXBpt o s) = .next st' →
    MemWf st' := by
  unfold execXBpt
  repeat' (first
      | with_reducible assumption | with_reducible refine next_memWf ?_
      | (intro z; refine (fun hz : MemWf z => ?_) ?_; rotate_left; subst z; rotate_right; clear_value z)
      | (intro z; clear_value z) | lift_lets -underBinder | with_reducible apply State.operand_memWf
      | with_reducible apply State.refuse_memWf | with_reducible apply State.slotFault_memWf
      | with_reducible apply State.reachRow_memWf | with_reducible apply State.enterGate_memWf
      | with_reducible apply State.raiseFlags_memWf | split | intro _)

theorem shuffle_memWf (s : State) (o : OpT) (f : Vec → Vec → Nat → Nat) (h_s : MemWf s)
    : MemWf (shuffle s o f) := by
  unfold shuffle
  repeat' (first
      | with_reducible assumption
      | (intro z; refine (fun hz : MemWf z => ?_) ?_; rotate_left; subst z; rotate_right; clear_value z)
      | (intro z; clear_value z) | intro _ | lift_lets -underBinder | with_reducible apply elementwise_memWf | split)

theorem execXTrr_memWf (o : OpT) (s : State) (h_s : MemWf s) {st' : State} : (execXTrr o s) = .next st' →
    MemWf st' := by
  unfold execXTrr
  repeat' (first
      | with_reducible assumption | with_reducible refine next_memWf ?_
      | (intro z; refine (fun hz : MemWf z => ?_) ?_; rotate_left; subst z; rotate_right; clear_value z)
      | (intro z; clear_value z) | lift_lets -underBinder | with_reducible apply State.xOperandFault_memWf
      | with_reducible apply elementwise_memWf | split | intro _)

theorem execXTrc_memWf (o : OpT) (s : State) (h_s : MemWf s) {st' : State} : (execXTrc o s) = .next st' →
    MemWf st' := by
  unfold execXTrc
  repeat' (first
      | with_reducible assumption | with_reducible refine next_memWf ?_
      | (intro z; refine (fun hz : MemWf z => ?_) ?_; rotate_left; subst z; rotate_right; clear_value z)
      | (intro z; clear_value z) | lift_lets -underBinder | with_reducible apply State.xOperandFault_memWf
      | with_reducible apply shuffle_memWf | split | intro _)

theorem execXPack_memWf (o : OpT) (s : State) (h_s : MemWf s) {st' : State} : (execXPack o s) = .next st' →
    MemWf st' := by
  unfold execXPack
  repeat' (first
      | with_reducible assumption | with_reducible refine next_memWf ?_
      | (intro z; refine (fun hz : MemWf z => ?_) ?_; rotate_left; subst z; rotate_right; clear_value z)
      | (intro z; clear_value z) | lift_lets -underBinder | with_reducible apply shuffle_memWf | split | intro _)

theorem execXUnpk_memWf (o : OpT) (s : State) (h_s : MemWf s) {st' : State} : (execXUnpk o s) = .next st' →
    MemWf st' := by
  unfold execXUnpk
  repeat' (first
      | with_reducible assumption | with_reducible refine next_memWf ?_
      | (intro z; refine (fun hz : MemWf z => ?_) ?_; rotate_left; subst z; rotate_right; clear_value z)
      | (intro z; clear_value z) | lift_lets -underBinder | with_reducible apply shuffle_memWf | split | intro _)

theorem execXVtos_memWf (o : OpT) (s : State) (h_s : MemWf s) {st' : State} : (execXVtos o s) = .next st' →
    MemWf st' := by
  unfold execXVtos
  repeat' (first
      | with_reducible assumption | with_reducible refine next_memWf ?_
      | (intro z; refine (fun hz : MemWf z => ?_) ?_; rotate_left; subst z; rotate_right; clear_value z)
      | (intro z; clear_value z) | lift_lets -underBinder | with_reducible apply State.setMe_memWf | split)

theorem execXStov_memWf (o : OpT) (s : State) (h_s : MemWf s) {st' : State} : (execXStov o s) = .next st' →
    MemWf st' := by
  unfold execXStov
  repeat' (first
      | with_reducible assumption | with_reducible refine next_memWf ?_
      | (intro z; refine (fun hz : MemWf z => ?_) ?_; rotate_left; subst z; rotate_right; clear_value z)
      | (intro z; clear_value z) | lift_lets -underBinder | with_reducible apply State.resultVX_memWf | split)

/-! ### Scalar -/

theorem State.resultA_memWf (s : State) (ref : RegRef) (v : Vec) (lat : Nat) (h_s : MemWf s)
    : MemWf (State.resultA s ref v lat) := by
  unfold State.resultA
  repeat' (first | with_reducible assumption | with_reducible apply State.setMe_memWf | split)

theorem scalarOp_memWf (s : State) (o : OpT) (lat : Nat) (f : Word → Word → Word) (h_s : MemWf s)
    : MemWf (scalarOp s o lat f) := by
  unfold scalarOp
  repeat' (first | with_reducible assumption | with_reducible apply State.resultA_memWf | split)

theorem compareOp_memWf (s : State) (o : OpT) (f : Word → Word → Bool) (h_s : MemWf s)
    : MemWf (compareOp s o f) := by
  unfold compareOp
  repeat' (first | with_reducible assumption | with_reducible apply State.resultA_memWf | split)

theorem predOp_memWf (s : State) (o : OpT) (f : Bool → Bool → Bool) (h_s : MemWf s)
    : MemWf (predOp s o f) := by
  unfold predOp
  repeat' (first | with_reducible assumption | with_reducible apply State.resultA_memWf | split)

theorem immOp_memWf (s : State) (o : OpI) (f : Word → Word → Word) (h_s : MemWf s)
    : MemWf (immOp s o f) := by
  unfold immOp
  repeat' (first | with_reducible assumption | with_reducible apply State.resultA_memWf | split)

theorem immCompare_memWf (s : State) (o : OpI) (f : Word → Word → Bool) (h_s : MemWf s)
    : MemWf (immCompare s o f) := by
  unfold immCompare
  repeat' (first | with_reducible assumption | with_reducible apply State.resultA_memWf | split)

theorem execAAdd_memWf (o : OpT) (s : State) (h_s : MemWf s) {st' : State} : (execAAdd o s) = .next st' →
    MemWf st' := by
  unfold execAAdd
  repeat' (first
      | with_reducible assumption | with_reducible refine next_memWf ?_ | with_reducible apply scalarOp_memWf | split
      | intro _)

theorem execASub_memWf (o : OpT) (s : State) (h_s : MemWf s) {st' : State} : (execASub o s) = .next st' →
    MemWf st' := by
  unfold execASub
  repeat' (first
      | with_reducible assumption | with_reducible refine next_memWf ?_ | with_reducible apply scalarOp_memWf | split
      | intro _)

theorem execAAnd_memWf (o : OpT) (s : State) (h_s : MemWf s) {st' : State} : (execAAnd o s) = .next st' →
    MemWf st' := by
  unfold execAAnd
  repeat' (first
      | with_reducible assumption | with_reducible refine next_memWf ?_ | with_reducible apply scalarOp_memWf | split
      | intro _)

theorem execAOr_memWf (o : OpT) (s : State) (h_s : MemWf s) {st' : State} : (execAOr o s) = .next st' →
    MemWf st' := by
  unfold execAOr
  repeat' (first
      | with_reducible assumption | with_reducible refine next_memWf ?_ | with_reducible apply scalarOp_memWf | split
      | intro _)

theorem execAXor_memWf (o : OpT) (s : State) (h_s : MemWf s) {st' : State} : (execAXor o s) = .next st' →
    MemWf st' := by
  unfold execAXor
  repeat' (first
      | with_reducible assumption | with_reducible refine next_memWf ?_ | with_reducible apply scalarOp_memWf | split
      | intro _)

theorem execAAndn_memWf (o : OpT) (s : State) (h_s : MemWf s) {st' : State} : (execAAndn o s) = .next st' →
    MemWf st' := by
  unfold execAAndn
  repeat' (first
      | with_reducible assumption | with_reducible refine next_memWf ?_ | with_reducible apply scalarOp_memWf | split
      | intro _)

theorem execAOrn_memWf (o : OpT) (s : State) (h_s : MemWf s) {st' : State} : (execAOrn o s) = .next st' →
    MemWf st' := by
  unfold execAOrn
  repeat' (first
      | with_reducible assumption | with_reducible refine next_memWf ?_ | with_reducible apply scalarOp_memWf | split
      | intro _)

theorem execAXnor_memWf (o : OpT) (s : State) (h_s : MemWf s) {st' : State} : (execAXnor o s) = .next st' →
    MemWf st' := by
  unfold execAXnor
  repeat' (first
      | with_reducible assumption | with_reducible refine next_memWf ?_ | with_reducible apply scalarOp_memWf | split
      | intro _)

theorem execAShl_memWf (o : OpT) (s : State) (h_s : MemWf s) {st' : State} : (execAShl o s) = .next st' →
    MemWf st' := by
  unfold execAShl
  repeat' (first
      | with_reducible assumption | with_reducible refine next_memWf ?_ | with_reducible apply scalarOp_memWf | split
      | intro _)

theorem execAShr_memWf (o : OpT) (s : State) (h_s : MemWf s) {st' : State} : (execAShr o s) = .next st' →
    MemWf st' := by
  unfold execAShr
  repeat' (first
      | with_reducible assumption | with_reducible refine next_memWf ?_ | with_reducible apply scalarOp_memWf | split
      | intro _)

theorem execASra_memWf (o : OpT) (s : State) (h_s : MemWf s) {st' : State} : (execASra o s) = .next st' →
    MemWf st' := by
  unfold execASra
  repeat' (first
      | with_reducible assumption | with_reducible refine next_memWf ?_ | with_reducible apply scalarOp_memWf | split
      | intro _)

theorem execARor_memWf (o : OpT) (s : State) (h_s : MemWf s) {st' : State} : (execARor o s) = .next st' →
    MemWf st' := by
  unfold execARor
  repeat' (first
      | with_reducible assumption | with_reducible refine next_memWf ?_ | with_reducible apply scalarOp_memWf | split
      | intro _)

theorem execAMin_memWf (o : OpT) (s : State) (h_s : MemWf s) {st' : State} : (execAMin o s) = .next st' →
    MemWf st' := by
  unfold execAMin
  repeat' (first
      | with_reducible assumption | with_reducible refine next_memWf ?_ | with_reducible apply scalarOp_memWf | split
      | intro _)

theorem execAMax_memWf (o : OpT) (s : State) (h_s : MemWf s) {st' : State} : (execAMax o s) = .next st' →
    MemWf st' := by
  unfold execAMax
  repeat' (first
      | with_reducible assumption | with_reducible refine next_memWf ?_ | with_reducible apply scalarOp_memWf | split
      | intro _)

theorem execAMinu_memWf (o : OpT) (s : State) (h_s : MemWf s) {st' : State} : (execAMinu o s) = .next st' →
    MemWf st' := by
  unfold execAMinu
  repeat' (first
      | with_reducible assumption | with_reducible refine next_memWf ?_ | with_reducible apply scalarOp_memWf | split
      | intro _)

theorem execAMaxu_memWf (o : OpT) (s : State) (h_s : MemWf s) {st' : State} : (execAMaxu o s) = .next st' →
    MemWf st' := by
  unfold execAMaxu
  repeat' (first
      | with_reducible assumption | with_reducible refine next_memWf ?_ | with_reducible apply scalarOp_memWf | split
      | intro _)

theorem execAAdds_memWf (o : OpT) (sh : BitVec 3) (s : State) (h_s : MemWf s) {st' : State} : (execAAdds o sh s) =
    .next st' →
    MemWf st' := by
  unfold execAAdds
  repeat' (first
      | with_reducible assumption | with_reducible refine next_memWf ?_ | with_reducible apply scalarOp_memWf | split
      | intro _)

theorem execAMul_memWf (o : OpT) (s : State) (h_s : MemWf s) {st' : State} : (execAMul o s) = .next st' →
    MemWf st' := by
  unfold execAMul
  repeat' (first
      | with_reducible assumption | with_reducible refine next_memWf ?_ | with_reducible apply scalarOp_memWf | split
      | intro _)

theorem execAMulh_memWf (o : OpT) (s : State) (h_s : MemWf s) {st' : State} : (execAMulh o s) = .next st' →
    MemWf st' := by
  unfold execAMulh
  repeat' (first
      | with_reducible assumption | with_reducible refine next_memWf ?_ | with_reducible apply scalarOp_memWf | split
      | intro _)

theorem execAMulhu_memWf (o : OpT) (s : State) (h_s : MemWf s) {st' : State} : (execAMulhu o s) = .next st' →
    MemWf st' := by
  unfold execAMulhu
  repeat' (first
      | with_reducible assumption | with_reducible refine next_memWf ?_ | with_reducible apply scalarOp_memWf | split
      | intro _)

theorem execADiv_memWf (o : OpT) (s : State) (h_s : MemWf s) {st' : State} : (execADiv o s) = .next st' →
    MemWf st' := by
  unfold execADiv
  repeat' (first
      | with_reducible assumption | with_reducible refine next_memWf ?_ | with_reducible apply scalarOp_memWf | split
      | intro _)

theorem execADivu_memWf (o : OpT) (s : State) (h_s : MemWf s) {st' : State} : (execADivu o s) = .next st' →
    MemWf st' := by
  unfold execADivu
  repeat' (first
      | with_reducible assumption | with_reducible refine next_memWf ?_ | with_reducible apply scalarOp_memWf | split
      | intro _)

theorem execARem_memWf (o : OpT) (s : State) (h_s : MemWf s) {st' : State} : (execARem o s) = .next st' →
    MemWf st' := by
  unfold execARem
  repeat' (first
      | with_reducible assumption | with_reducible refine next_memWf ?_ | with_reducible apply scalarOp_memWf | split
      | intro _)

theorem execARemu_memWf (o : OpT) (s : State) (h_s : MemWf s) {st' : State} : (execARemu o s) = .next st' →
    MemWf st' := by
  unfold execARemu
  repeat' (first
      | with_reducible assumption | with_reducible refine next_memWf ?_ | with_reducible apply scalarOp_memWf | split
      | intro _)

theorem execACeq_memWf (o : OpT) (s : State) (h_s : MemWf s) {st' : State} : (execACeq o s) = .next st' →
    MemWf st' := by
  unfold execACeq
  repeat' (first
      | with_reducible assumption | with_reducible refine next_memWf ?_ | with_reducible apply compareOp_memWf | split
      | intro _)

theorem execACne_memWf (o : OpT) (s : State) (h_s : MemWf s) {st' : State} : (execACne o s) = .next st' →
    MemWf st' := by
  unfold execACne
  repeat' (first
      | with_reducible assumption | with_reducible refine next_memWf ?_ | with_reducible apply compareOp_memWf | split
      | intro _)

theorem execAClt_memWf (o : OpT) (s : State) (h_s : MemWf s) {st' : State} : (execAClt o s) = .next st' →
    MemWf st' := by
  unfold execAClt
  repeat' (first
      | with_reducible assumption | with_reducible refine next_memWf ?_ | with_reducible apply compareOp_memWf | split
      | intro _)

theorem execACge_memWf (o : OpT) (s : State) (h_s : MemWf s) {st' : State} : (execACge o s) = .next st' →
    MemWf st' := by
  unfold execACge
  repeat' (first
      | with_reducible assumption | with_reducible refine next_memWf ?_ | with_reducible apply compareOp_memWf | split
      | intro _)

theorem execACltu_memWf (o : OpT) (s : State) (h_s : MemWf s) {st' : State} : (execACltu o s) = .next st' →
    MemWf st' := by
  unfold execACltu
  repeat' (first
      | with_reducible assumption | with_reducible refine next_memWf ?_ | with_reducible apply compareOp_memWf | split
      | intro _)

theorem execACgeu_memWf (o : OpT) (s : State) (h_s : MemWf s) {st' : State} : (execACgeu o s) = .next st' →
    MemWf st' := by
  unfold execACgeu
  repeat' (first
      | with_reducible assumption | with_reducible refine next_memWf ?_ | with_reducible apply compareOp_memWf | split
      | intro _)

theorem execACtst_memWf (o : OpT) (s : State) (h_s : MemWf s) {st' : State} : (execACtst o s) = .next st' →
    MemWf st' := by
  unfold execACtst
  repeat' (first
      | with_reducible assumption | with_reducible refine next_memWf ?_ | with_reducible apply compareOp_memWf | split
      | intro _)

theorem execACntst_memWf (o : OpT) (s : State) (h_s : MemWf s) {st' : State} : (execACntst o s) = .next st' →
    MemWf st' := by
  unfold execACntst
  repeat' (first
      | with_reducible assumption | with_reducible refine next_memWf ?_ | with_reducible apply compareOp_memWf | split
      | intro _)

theorem execASel_memWf (o : OpT) (s : State) (h_s : MemWf s) {st' : State} : (execASel o s) = .next st' →
    MemWf st' := by
  unfold execASel
  repeat' (first
      | with_reducible assumption | with_reducible refine next_memWf ?_ | with_reducible apply State.resultA_memWf
      | split)

theorem execAClz_memWf (o : OpT) (s : State) (h_s : MemWf s) {st' : State} : (execAClz o s) = .next st' →
    MemWf st' := by
  unfold execAClz
  repeat' (first
      | with_reducible assumption | with_reducible refine next_memWf ?_ | with_reducible apply scalarOp_memWf | split
      | intro _)

theorem execACtz_memWf (o : OpT) (s : State) (h_s : MemWf s) {st' : State} : (execACtz o s) = .next st' →
    MemWf st' := by
  unfold execACtz
  repeat' (first
      | with_reducible assumption | with_reducible refine next_memWf ?_ | with_reducible apply scalarOp_memWf | split
      | intro _)

theorem execAPopc_memWf (o : OpT) (s : State) (h_s : MemWf s) {st' : State} : (execAPopc o s) = .next st' →
    MemWf st' := by
  unfold execAPopc
  repeat' (first
      | with_reducible assumption | with_reducible refine next_memWf ?_ | with_reducible apply scalarOp_memWf | split
      | intro _)

theorem execAPand_memWf (o : OpT) (s : State) (h_s : MemWf s) {st' : State} : (execAPand o s) = .next st' →
    MemWf st' := by
  unfold execAPand
  repeat' (first
      | with_reducible assumption | with_reducible refine next_memWf ?_ | with_reducible apply predOp_memWf | split
      | intro _)

theorem execAPor_memWf (o : OpT) (s : State) (h_s : MemWf s) {st' : State} : (execAPor o s) = .next st' →
    MemWf st' := by
  unfold execAPor
  repeat' (first
      | with_reducible assumption | with_reducible refine next_memWf ?_ | with_reducible apply predOp_memWf | split
      | intro _)

theorem execAPxor_memWf (o : OpT) (s : State) (h_s : MemWf s) {st' : State} : (execAPxor o s) = .next st' →
    MemWf st' := by
  unfold execAPxor
  repeat' (first
      | with_reducible assumption | with_reducible refine next_memWf ?_ | with_reducible apply predOp_memWf | split
      | intro _)

theorem execAPandn_memWf (o : OpT) (s : State) (h_s : MemWf s) {st' : State} : (execAPandn o s) = .next st' →
    MemWf st' := by
  unfold execAPandn
  repeat' (first
      | with_reducible assumption | with_reducible refine next_memWf ?_ | with_reducible apply predOp_memWf | split
      | intro _)

theorem execAAddi_memWf (o : OpI) (s : State) (h_s : MemWf s) {st' : State} : (execAAddi o s) = .next st' →
    MemWf st' := by
  unfold execAAddi
  repeat' (first
      | with_reducible assumption | with_reducible refine next_memWf ?_ | with_reducible apply immOp_memWf | split
      | intro _)

theorem execAAndi_memWf (o : OpI) (s : State) (h_s : MemWf s) {st' : State} : (execAAndi o s) = .next st' →
    MemWf st' := by
  unfold execAAndi
  repeat' (first
      | with_reducible assumption | with_reducible refine next_memWf ?_ | with_reducible apply immOp_memWf | split
      | intro _)

theorem execAOri_memWf (o : OpI) (s : State) (h_s : MemWf s) {st' : State} : (execAOri o s) = .next st' →
    MemWf st' := by
  unfold execAOri
  repeat' (first
      | with_reducible assumption | with_reducible refine next_memWf ?_ | with_reducible apply immOp_memWf | split
      | intro _)

theorem execAXori_memWf (o : OpI) (s : State) (h_s : MemWf s) {st' : State} : (execAXori o s) = .next st' →
    MemWf st' := by
  unfold execAXori
  repeat' (first
      | with_reducible assumption | with_reducible refine next_memWf ?_ | with_reducible apply immOp_memWf | split
      | intro _)

theorem execAShli_memWf (o : OpI) (s : State) (h_s : MemWf s) {st' : State} : (execAShli o s) = .next st' →
    MemWf st' := by
  unfold execAShli
  repeat' (first
      | with_reducible assumption | with_reducible refine next_memWf ?_ | with_reducible apply immOp_memWf | split
      | intro _)

theorem execAShri_memWf (o : OpI) (s : State) (h_s : MemWf s) {st' : State} : (execAShri o s) = .next st' →
    MemWf st' := by
  unfold execAShri
  repeat' (first
      | with_reducible assumption | with_reducible refine next_memWf ?_ | with_reducible apply immOp_memWf | split
      | intro _)

theorem execASrai_memWf (o : OpI) (s : State) (h_s : MemWf s) {st' : State} : (execASrai o s) = .next st' →
    MemWf st' := by
  unfold execASrai
  repeat' (first
      | with_reducible assumption | with_reducible refine next_memWf ?_ | with_reducible apply immOp_memWf | split
      | intro _)

theorem execACeqi_memWf (o : OpI) (s : State) (h_s : MemWf s) {st' : State} : (execACeqi o s) = .next st' →
    MemWf st' := by
  unfold execACeqi
  repeat' (first
      | with_reducible assumption | with_reducible refine next_memWf ?_ | with_reducible apply immCompare_memWf
      | split | intro _)

theorem execAClti_memWf (o : OpI) (s : State) (h_s : MemWf s) {st' : State} : (execAClti o s) = .next st' →
    MemWf st' := by
  unfold execAClti
  repeat' (first
      | with_reducible assumption | with_reducible refine next_memWf ?_ | with_reducible apply immCompare_memWf
      | split | intro _)

theorem execACltui_memWf (o : OpI) (s : State) (h_s : MemWf s) {st' : State} : (execACltui o s) = .next st' →
    MemWf st' := by
  unfold execACltui
  repeat' (first
      | with_reducible assumption | with_reducible refine next_memWf ?_ | with_reducible apply immCompare_memWf
      | split | intro _)

theorem execAMovi_memWf (o : OpJ) (s : State) (h_s : MemWf s) {st' : State} : (execAMovi o s) = .next st' →
    MemWf st' := by
  unfold execAMovi
  repeat' (first
      | with_reducible assumption | with_reducible refine next_memWf ?_ | with_reducible apply State.resultA_memWf
      | split)

theorem execACat_memWf (o : OpJ) (s : State) (h_s : MemWf s) {st' : State} : (execACat o s) = .next st' →
    MemWf st' := by
  unfold execACat
  repeat' (first
      | with_reducible assumption | with_reducible refine next_memWf ?_ | with_reducible apply State.resultA_memWf
      | split)

end Sys2Proof.Machine
end

