-- ==== Sys2Proof/Laws/FormUnits.lean ====
section
/-! SUPPORT. What the Rennets, the Churns, the curd units and the walkers keep of the form of memory. -/

namespace Sys2Proof.Machine

/-! ### RennetEvents -/

theorem State.mapArmed_memWf (s : State) (t : TowerId) (key : Nat) (f : Armed → Armed) (h_s : MemWf s)
    : MemWf (State.mapArmed s t key f) := by
  unfold State.mapArmed
  repeat' (first
      | with_reducible assumption
      | (intro z; refine (fun hz : MemWf z => ?_) ?_; rotate_left; subst z; rotate_right; clear_value z)
      | (intro z; clear_value z) | intro _ | lift_lets -underBinder | with_reducible apply State.setTower_memWf
      | split | simp -zeta only [MemWf.made, MemWf.form])

theorem rejectStore_memWf (s : State) (code : Code) (c : BitVec 16 × BitVec 8) (h_s : MemWf s)
    : MemWf (rejectStore s code c) := by
  unfold rejectStore
  repeat' (first
      | with_reducible assumption
      | (intro z; refine (fun hz : MemWf z => ?_) ?_; rotate_left; subst z; rotate_right; clear_value z)
      | (intro z; clear_value z) | lift_lets -underBinder | with_reducible apply faultRecord_memWf | split)

theorem blockedRecord_memWf (s : State) (offset : Nat) (h_s : MemWf s)
    : MemWf (blockedRecord s offset) := by
  unfold blockedRecord
  repeat' (first | with_reducible assumption | with_reducible apply hubRecord_memWf | split)

theorem storeHeader_memWf (s : State) (c : BitVec 16 × BitVec 8) (h_s : MemWf s)
    : MemWf (storeHeader s c).2 := by
  unfold storeHeader
  repeat' (first
      | with_reducible assumption
      | (intro z; refine (fun hz : MemWf z => ?_) ?_; rotate_left; subst z; rotate_right; clear_value z)
      | (intro z; refine (fun hz : MemWf z.2 => ?_) ?_; rotate_left; subst z; rotate_right; clear_value z)
      | (intro z; clear_value z) | lift_lets -underBinder | with_reducible apply rennetKey_memWf
      | (with_reducible refine of_second ‹_› ?_; first | with_reducible assumption | with_reducible apply rennetKey_memWf)
      | split)

theorem requestFusion_memWf (s : State) (d : BitVec 512) (h_s : MemWf s)
    : MemWf (requestFusion s d) := by
  unfold requestFusion
  repeat' (first
      | with_reducible assumption
      | (intro z; refine (fun hz : MemWf z => ?_) ?_; rotate_left; subst z; rotate_right; clear_value z)
      | (intro z; clear_value z) | intro _ | lift_lets -underBinder | with_reducible apply State.setCluster_memWf
      | with_reducible apply foldl_memWf | with_reducible apply foldlSnd_memWf | with_reducible apply foldlFst_memWf
      | split | simp -zeta only [MemWf.made, MemWf.form])

theorem cacheLaunch_memWf (s : State) (t : TowerId) (hdr : Word) (c : BitVec 16 × BitVec 8) (key : Nat) (h_s : MemWf
    s)
    : MemWf (cacheLaunch s t hdr c key) := by
  unfold cacheLaunch
  repeat' (first
      | with_reducible assumption
      | (intro z; refine (fun hz : MemWf z => ?_) ?_; rotate_left; subst z; rotate_right; clear_value z)
      | (intro z; clear_value z) | intro _ | lift_lets -underBinder | with_reducible apply State.setTower_memWf
      | split | simp -zeta only [MemWf.made, MemWf.form])

theorem unstage_memWf (s : State) (t : TowerId) (g : Staging) (h_s : MemWf s)
    : MemWf (unstage s t g) := by
  unfold unstage
  repeat' (first
      | with_reducible assumption
      | (intro z; refine (fun hz : MemWf z => ?_) ?_; rotate_left; subst z; rotate_right; clear_value z)
      | (intro z; clear_value z) | intro _ | lift_lets -underBinder | with_reducible apply State.setTower_memWf
      | split | simp -zeta only [MemWf.made, MemWf.form])

theorem unstageCore_memWf (s : State) (c : CoreId) (h_s : MemWf s)
    : MemWf (unstageCore s c) := by
  unfold unstageCore
  repeat' (first
      | with_reducible assumption
      | (intro z; refine (fun hz : MemWf z => ?_) ?_; rotate_left; subst z; rotate_right; clear_value z)
      | (intro z; clear_value z) | intro _ | lift_lets -underBinder | with_reducible apply unstage_memWf
      | with_reducible apply foldl_memWf | with_reducible apply foldlSnd_memWf | with_reducible apply foldlFst_memWf
      | split)

theorem armInstance_memWf (s : State) (t : TowerId) (c : BitVec 16 × BitVec 8) (key : Nat) (d : BitVec 512) (part :
    BitVec 128) (h_s : MemWf s)
    : MemWf (armInstance s t c key d part) := by
  unfold armInstance
  repeat' (first
      | with_reducible assumption
      | (intro z; refine (fun hz : MemWf z => ?_) ?_; rotate_left; subst z; rotate_right; clear_value z)
      | (intro z; refine (fun hz : MemWf z.2 => ?_) ?_; rotate_left; subst z; rotate_right; clear_value z)
      | (intro z; clear_value z) | intro _ | lift_lets -underBinder | with_reducible apply setHeaderRemain_memWf
      | with_reducible apply setHeaderState_memWf | with_reducible apply writeNat_memWf
      | with_reducible apply cacheLaunch_memWf | with_reducible apply requestFusion_memWf
      | with_reducible apply State.mapHub_memWf | with_reducible apply State.setTower_memWf
      | with_reducible apply forcedStop_memWf | with_reducible apply unstageCore_memWf
      | with_reducible apply rennetList_memWf | with_reducible apply faultInstance_memWf
      | with_reducible apply makeReady_memWf | with_reducible apply foldl_memWf | with_reducible apply foldlSnd_memWf
      | with_reducible apply foldlFst_memWf
      | (with_reducible refine of_second ‹_› ?_; first | with_reducible assumption | with_reducible apply rennetList_memWf)
      | split | simp -zeta only [MemWf.made, MemWf.form])

theorem execGarmStore_memWf (s : State) (h_s : MemWf s) {st' : State} : (execGarmStore s) = .next st' →
    MemWf st' := by
  unfold execGarmStore
  repeat' (first
      | with_reducible assumption | with_reducible refine next_memWf ?_
      | (intro z; refine (fun hz : MemWf z => ?_) ?_; rotate_left; subst z; rotate_right; clear_value z)
      | (intro z; refine (fun hz : MemWf z.2 => ?_) ?_; rotate_left; subst z; rotate_right; clear_value z)
      | (intro z; clear_value z) | lift_lets -underBinder | with_reducible apply blockedRecord_memWf
      | with_reducible apply rejectStore_memWf | with_reducible apply storeHeader_memWf
      | with_reducible apply armInstance_memWf
      | (with_reducible refine of_second ‹_› ?_; first | with_reducible assumption | with_reducible apply storeHeader_memWf)
      | split)

theorem execGprimeStore_memWf (s : State) (h_s : MemWf s) {st' : State} : (execGprimeStore s) = .next st' →
    MemWf st' := by
  unfold execGprimeStore
  repeat' (first
      | with_reducible assumption | with_reducible refine next_memWf ?_
      | (intro z; refine (fun hz : MemWf z => ?_) ?_; rotate_left; subst z; rotate_right; clear_value z)
      | (intro z; refine (fun hz : MemWf z.2 => ?_) ?_; rotate_left; subst z; rotate_right; clear_value z)
      | (intro z; clear_value z) | lift_lets -underBinder | with_reducible apply blockedRecord_memWf
      | with_reducible apply rejectStore_memWf | with_reducible apply storeHeader_memWf
      | with_reducible apply cacheLaunch_memWf
      | (with_reducible refine of_second ‹_› ?_; first | with_reducible assumption | with_reducible apply storeHeader_memWf)
      | split)

theorem pushedRecord_memWf (s : State) (t : TowerId) (ctx : BitVec 16) (gen : BitVec 8) (addr : Word) (h_s : MemWf s)
    : MemWf (pushedRecord s t ctx gen addr).2 := by
  unfold pushedRecord
  repeat' (first
      | with_reducible assumption
      | (intro z; refine (fun hz : MemWf z => ?_) ?_; rotate_left; subst z; rotate_right; clear_value z)
      | (intro z; refine (fun hz : MemWf z.2 => ?_) ?_; rotate_left; subst z; rotate_right; clear_value z)
      | (intro z; clear_value z) | lift_lets -underBinder | with_reducible apply rennetKey_memWf
      | (with_reducible refine of_second ‹_› ?_; first | with_reducible assumption | with_reducible apply rennetKey_memWf)
      | split)

theorem decrementRecord_memWf (s : State) (t : TowerId) (w : TowerId) (a : Armed) (key : Nat) (addr : Word) (h_s :
    MemWf s)
    : MemWf (decrementRecord s t w a key addr) := by
  unfold decrementRecord
  repeat' (first
      | with_reducible assumption
      | (intro z; refine (fun hz : MemWf z => ?_) ?_; rotate_left; subst z; rotate_right; clear_value z)
      | (intro z; clear_value z) | lift_lets -underBinder | with_reducible apply faultInstance_memWf
      | with_reducible apply writeNat_memWf | with_reducible apply makeReady_memWf | split)

theorem pushedDecrement_memWf (s : State) (h_s : MemWf s)
    : MemWf (pushedDecrement s) := by
  unfold pushedDecrement
  repeat' (first
      | with_reducible assumption
      | (intro z; refine (fun hz : MemWf z => ?_) ?_; rotate_left; subst z; rotate_right; clear_value z)
      | (intro z; refine (fun hz : MemWf z.2 => ?_) ?_; rotate_left; subst z; rotate_right; clear_value z)
      | (intro z; clear_value z) | intro _ | lift_lets -underBinder | with_reducible apply pushedRecord_memWf
      | with_reducible apply faultRecord_memWf | with_reducible apply decrementRecord_memWf
      | with_reducible apply State.mapArmed_memWf | with_reducible apply faultInstance_memWf
      | with_reducible apply writeNat_memWf
      | (with_reducible refine of_second ‹_› ?_; first | with_reducible assumption | with_reducible apply pushedRecord_memWf)
      | split | simp -zeta only [MemWf.made, MemWf.form])

theorem execSuccessorDecrement_memWf (s : State) (h_s : MemWf s) {st' : State} : (execSuccessorDecrement s) = .next
    st' →
    MemWf st' := by
  unfold execSuccessorDecrement
  repeat' (first
      | with_reducible assumption | with_reducible refine next_memWf ?_
      | (intro z; refine (fun hz : MemWf z => ?_) ?_; rotate_left; subst z; rotate_right; clear_value z)
      | (intro z; refine (fun hz : MemWf z.2 => ?_) ?_; rotate_left; subst z; rotate_right; clear_value z)
      | (intro z; clear_value z) | lift_lets -underBinder | with_reducible apply pushedDecrement_memWf
      | with_reducible apply rennetKey_memWf | with_reducible apply faultInstance_memWf
      | with_reducible apply decrementRecord_memWf | with_reducible apply finishNode_memWf
      | (with_reducible refine of_second ‹_› ?_; first | with_reducible assumption | with_reducible apply rennetKey_memWf)
      | split)

theorem execSpawnAtHomeRennet_memWf (s : State) (h_s : MemWf s) {st' : State} : (execSpawnAtHomeRennet s) = .next st'
    →
    MemWf st' := by
  unfold execSpawnAtHomeRennet
  repeat' (first
      | with_reducible assumption | with_reducible refine next_memWf ?_
      | (intro z; refine (fun hz : MemWf z => ?_) ?_; rotate_left; subst z; rotate_right; clear_value z)
      | (intro z; refine (fun hz : MemWf z.2 => ?_) ?_; rotate_left; subst z; rotate_right; clear_value z)
      | (intro z; clear_value z) | lift_lets -underBinder | with_reducible apply pushedRecord_memWf
      | with_reducible apply faultRecord_memWf | with_reducible apply faultInstance_memWf
      | with_reducible apply setHeaderRemain_memWf | with_reducible apply State.mapArmed_memWf
      | with_reducible apply makeReady_memWf
      | (with_reducible refine of_second ‹_› ?_; first | with_reducible assumption | with_reducible apply pushedRecord_memWf)
      | split | simp -zeta only [MemWf.made, MemWf.form] | intro _)

theorem releaseHolds_memWf (s : State) (c : CoreId) (h_s : MemWf s)
    : MemWf (releaseHolds s c) := by
  unfold releaseHolds
  repeat' (first
      | with_reducible assumption
      | (intro z; refine (fun hz : MemWf z => ?_) ?_; rotate_left; subst z; rotate_right; clear_value z)
      | (intro z; refine (fun hz : MemWf z.2 => ?_) ?_; rotate_left; subst z; rotate_right; clear_value z)
      | (intro z; clear_value z) | intro _ | lift_lets -underBinder | with_reducible apply flatKeyOf_memWf
      | with_reducible apply grantWaiters_memWf | with_reducible apply writeWord_memWf
      | with_reducible apply foldl_memWf | with_reducible apply foldlSnd_memWf | with_reducible apply foldlFst_memWf
      | (with_reducible refine of_second ‹_› ?_; first | with_reducible assumption | with_reducible apply flatKeyOf_memWf)
      | split)

theorem killCore_memWf (s : State) (c : CoreId) (h_s : MemWf s)
    : MemWf (killCore s c) := by
  unfold killCore
  repeat' (first
      | with_reducible assumption
      | (intro z; refine (fun hz : MemWf z => ?_) ?_; rotate_left; subst z; rotate_right; clear_value z)
      | (intro z; clear_value z) | lift_lets -underBinder | with_reducible apply undoBundle_memWf
      | with_reducible apply releaseHolds_memWf | with_reducible apply State.setCore_memWf
      | with_reducible apply goIdle_memWf | with_reducible apply leaveRecord_memWf | split)

theorem discardEntries_memWf (s : State) (es : List ReadyEntry) (h_s : MemWf s)
    : MemWf (discardEntries s es) := by
  unfold discardEntries
  repeat' (first
      | with_reducible assumption | intro _ | with_reducible apply leaveRecord_memWf
      | with_reducible apply foldl_memWf | with_reducible apply foldlSnd_memWf | with_reducible apply foldlFst_memWf
      | split)

theorem dropCopies_memWf (s : State) (p : CopyReq → Bool) (h_s : MemWf s)
    : MemWf (dropCopies s p) := by
  unfold dropCopies
  repeat' (first | with_reducible assumption | intro _ | simp -zeta only [MemWf.made, MemWf.form])

theorem stopTower_memWf (s : State) (t : TowerId) (p : Nat → BitVec 16 → BitVec 8 → Bool) (h_s : MemWf s)
    : MemWf (stopTower s t p) := by
  unfold stopTower
  repeat' (first
      | with_reducible assumption
      | (intro z; refine (fun hz : MemWf z => ?_) ?_; rotate_left; subst z; rotate_right; clear_value z)
      | (intro z; clear_value z) | intro _ | lift_lets -underBinder | with_reducible apply discardEntries_memWf
      | with_reducible apply leaveRecord_memWf | with_reducible apply State.setTower_memWf
      | with_reducible apply leaveWaiters_memWf | split)

theorem stopRecords_memWf (s : State) (p : Nat → BitVec 16 → BitVec 8 → Bool) (h_s : MemWf s)
    : MemWf (stopRecords s p) := by
  unfold stopRecords
  repeat' (first
      | with_reducible assumption
      | (intro z; refine (fun hz : MemWf z => ?_) ?_; rotate_left; subst z; rotate_right; clear_value z)
      | (intro z; clear_value z) | intro _ | lift_lets -underBinder | with_reducible apply killCore_memWf
      | with_reducible apply stopTower_memWf | with_reducible apply dropCopies_memWf
      | with_reducible apply discardEntries_memWf | with_reducible apply foldl_memWf
      | with_reducible apply foldlSnd_memWf | with_reducible apply foldlFst_memWf | split)

theorem refuseCommand_memWf (s : State) (c : BitVec 16 × BitVec 8) (h_s : MemWf s)
    : MemWf (refuseCommand s c) := by
  unfold refuseCommand
  repeat' (first | with_reducible assumption | with_reducible apply rejectStore_memWf | split)

theorem command_memWf (s : State) (op : Nat) (f : State → BitVec 16 × BitVec 8 → Nat → State) (h_s : MemWf s) (h_f :
    ∀ a0 a1 a2, MemWf a0 → MemWf (f a0 a1 a2))
    : MemWf (command s op f) := by
  unfold command
  repeat' (first
      | with_reducible assumption
      | (intro z; refine (fun hz : MemWf z => ?_) ?_; rotate_left; subst z; rotate_right; clear_value z)
      | (intro z; refine (fun hz : MemWf z.2 => ?_) ?_; rotate_left; subst z; rotate_right; clear_value z)
      | (intro z; clear_value z) | lift_lets -underBinder | with_reducible apply blockedRecord_memWf
      | with_reducible apply refuseCommand_memWf | with_reducible apply rennetKey_memWf
      | with_reducible apply rejectStore_memWf | with_reducible apply h_f
      | (with_reducible refine of_second ‹_› ?_; first | with_reducible assumption | with_reducible apply rennetKey_memWf)
      | split)

theorem settleInstance_memWf (s : State) (home : TowerId) (a : Armed) (h_s : MemWf s)
    : MemWf (settleInstance s home a) := by
  unfold settleInstance
  repeat' (first | with_reducible assumption | intro _ | with_reducible apply setHeaderState_memWf | split)

theorem execGctlResume_memWf (s : State) (h_s : MemWf s) {st' : State} : (execGctlResume s) = .next st' →
    MemWf st' := by
  unfold execGctlResume
  repeat' (first
      | with_reducible assumption | with_reducible refine next_memWf ?_
      | (intro z; refine (fun hz : MemWf z => ?_) ?_; rotate_left; subst z; rotate_right; clear_value z)
      | (intro z; refine (fun hz : MemWf z.2 => ?_) ?_; rotate_left; subst z; rotate_right; clear_value z)
      | (intro z; clear_value z) | lift_lets -underBinder | with_reducible apply command_memWf
      | with_reducible apply refuseCommand_memWf | with_reducible apply saveAreaKey_memWf
      | with_reducible apply settleInstance_memWf | with_reducible apply pushReady_memWf
      | with_reducible apply leaveRecord_memWf
      | (with_reducible refine of_second ‹_› ?_; first | with_reducible assumption | with_reducible apply saveAreaKey_memWf)
      | split | intro _)

theorem clearSave_memWf (s : State) (base : Nat) (h_s : MemWf s)
    : MemWf (clearSave s base) := by
  unfold clearSave
  repeat' (first
      | with_reducible assumption
      | (intro z; refine (fun hz : MemWf z => ?_) ?_; rotate_left; subst z; rotate_right; clear_value z)
      | (intro z; clear_value z) | lift_lets -underBinder | with_reducible apply writeWord_memWf | split)

theorem execGctlRestart_memWf (s : State) (h_s : MemWf s) {st' : State} : (execGctlRestart s) = .next st' →
    MemWf st' := by
  unfold execGctlRestart
  repeat' (first
      | with_reducible assumption | with_reducible refine next_memWf ?_
      | (intro z; refine (fun hz : MemWf z => ?_) ?_; rotate_left; subst z; rotate_right; clear_value z)
      | (intro z; refine (fun hz : MemWf z.2 => ?_) ?_; rotate_left; subst z; rotate_right; clear_value z)
      | (intro z; clear_value z) | lift_lets -underBinder | with_reducible apply command_memWf
      | with_reducible apply refuseCommand_memWf | with_reducible apply saveAreaKey_memWf
      | with_reducible apply clearSave_memWf | with_reducible apply leaveRecord_memWf
      | with_reducible apply State.due_memWf | with_reducible apply pushReady_memWf
      | with_reducible apply settleInstance_memWf
      | (with_reducible refine of_second ‹_› ?_; first | with_reducible assumption | with_reducible apply saveAreaKey_memWf)
      | split | simp -zeta only [MemWf.made, MemWf.form] | intro _)

theorem execGctlAbandon_memWf (s : State) (h_s : MemWf s) {st' : State} : (execGctlAbandon s) = .next st' →
    MemWf st' := by
  unfold execGctlAbandon
  repeat' (first
      | with_reducible assumption | with_reducible refine next_memWf ?_
      | (intro z; refine (fun hz : MemWf z => ?_) ?_; rotate_left; subst z; rotate_right; clear_value z)
      | (intro z; clear_value z) | lift_lets -underBinder | with_reducible apply command_memWf
      | with_reducible apply refuseCommand_memWf | with_reducible apply setHeaderState_memWf
      | with_reducible apply State.mapArmed_memWf | with_reducible apply stopRecords_memWf
      | with_reducible apply State.due_memWf | split | simp -zeta only [MemWf.made, MemWf.form] | intro _)

theorem execAbandonComplete_memWf (s : State) (h_s : MemWf s) {st' : State} : (execAbandonComplete s) = .next st' →
    MemWf st' := by
  unfold execAbandonComplete
  repeat' (first
      | with_reducible assumption | with_reducible refine next_memWf ?_
      | (intro z; refine (fun hz : MemWf z => ?_) ?_; rotate_left; subst z; rotate_right; clear_value z)
      | (intro z; clear_value z) | lift_lets -underBinder | with_reducible apply stopRecords_memWf
      | with_reducible apply offerInstance_memWf | with_reducible apply faultRecord_memWf
      | with_reducible apply disarm_memWf | split | intro _)

theorem stagingPlan_memWf (s : State) (c : CoreId) (e : ReadyEntry) (r : BitVec 512) (h_s : MemWf s)
    : MemWf (stagingPlan s c e r).2 := by
  unfold stagingPlan
  repeat' (first
      | with_reducible assumption
      | (intro z; refine (fun hz : MemWf z => ?_) ?_; rotate_left; subst z; rotate_right; clear_value z)
      | (intro z; refine (fun hz : MemWf z.2 => ?_) ?_; rotate_left; subst z; rotate_right; clear_value z)
      | (intro z; clear_value z) | intro _ | lift_lets -underBinder | with_reducible apply saveAreaKey_memWf
      | with_reducible apply rennetKey_memWf | with_reducible apply foldl_memWf | with_reducible apply foldlSnd_memWf
      | with_reducible apply foldlFst_memWf
      | (with_reducible refine of_second ‹_› ?_; first | with_reducible assumption | with_reducible apply saveAreaKey_memWf | with_reducible apply rennetKey_memWf)
      | split)

theorem pushCopy_memWf (s : State) (d : Dest4) (r : CopyReq) (h_s : MemWf s)
    : MemWf (pushCopy s d r) := by
  unfold pushCopy
  repeat' (first
      | with_reducible assumption
      | (intro z; refine (fun hz : MemWf z => ?_) ?_; rotate_left; subst z; rotate_right; clear_value z)
      | (intro z; clear_value z) | lift_lets -underBinder | with_reducible apply State.setChurnChan_memWf | split
      | simp -zeta only [MemWf.made, MemWf.form])

theorem stageCopy_memWf (s : State) (t : TowerId) (c : CoreId) (e : ReadyEntry) (ticket : Nat) (d : BitVec 128) (h_s
    : MemWf s)
    : MemWf (stageCopy s t c e ticket d) := by
  unfold stageCopy
  repeat' (first
      | with_reducible assumption
      | (intro z; refine (fun hz : MemWf z => ?_) ?_; rotate_left; subst z; rotate_right; clear_value z)
      | (intro z; clear_value z) | lift_lets -underBinder | with_reducible apply pushCopy_memWf | split)

theorem dispatchTo_memWf (s : State) (t : TowerId) (c : CoreId) (e : ReadyEntry) (h_s : MemWf s)
    : MemWf (dispatchTo s t c e) := by
  unfold dispatchTo
  repeat' (first
      | with_reducible assumption
      | (intro z; refine (fun hz : MemWf z => ?_) ?_; rotate_left; subst z; rotate_right; clear_value z)
      | (intro z; refine (fun hz : MemWf z.2 => ?_) ?_; rotate_left; subst z; rotate_right; clear_value z)
      | (intro z; clear_value z) | intro _ | lift_lets -underBinder | with_reducible apply leaveRecord_memWf
      | with_reducible apply discardNode_memWf | with_reducible apply refusePickup_memWf
      | with_reducible apply pickUp_memWf | with_reducible apply stagingPlan_memWf
      | with_reducible apply stageCopy_memWf | with_reducible apply State.setTower_memWf
      | (with_reducible refine of_second ‹_› ?_; first | with_reducible assumption | with_reducible apply stagingPlan_memWf)
      | split | simp -zeta only [MemWf.made, MemWf.form])

theorem stagingDone_memWf (s : State) (t : TowerId) (c : CoreId) (ticket : Nat) (status : Code) (h_s : MemWf s)
    : MemWf (stagingDone s t c ticket status) := by
  unfold stagingDone
  repeat' (first
      | with_reducible assumption
      | (intro z; refine (fun hz : MemWf z => ?_) ?_; rotate_left; subst z; rotate_right; clear_value z)
      | (intro z; refine (fun hfun : ∀ a0, MemWf (z a0) => ?_) ?_; rotate_left; subst z; rotate_right; clear_value z)
      | (intro z; clear_value z) | intro _ | lift_lets -underBinder | with_reducible apply State.setTower_memWf
      | with_reducible apply stageCopy_memWf | with_reducible apply hfun | intro _ | split
      | simp -zeta only [MemWf.made, MemWf.form])

theorem execStagedDispatch_memWf (s : State) (h_s : MemWf s) {st' : State} : (execStagedDispatch s) = .next st' →
    MemWf st' := by
  unfold execStagedDispatch
  repeat' (first
      | with_reducible assumption | with_reducible refine next_memWf ?_
      | (intro z; refine (fun hz : MemWf z => ?_) ?_; rotate_left; subst z; rotate_right; clear_value z)
      | (intro z; clear_value z) | lift_lets -underBinder | with_reducible apply State.setTower_memWf
      | with_reducible apply refusePickup_memWf | with_reducible apply leaveRecord_memWf
      | with_reducible apply pickUp_memWf | with_reducible apply unstage_memWf | split
      | simp -zeta only [MemWf.made, MemWf.form] | intro _)

theorem dispatchCopy_memWf (s : State) (t : TowerId) (kind : Nat) (unit : Nat) (chan : Nat) (e : ReadyEntry) (h_s :
    MemWf s)
    : MemWf (dispatchCopy s t kind unit chan e) := by
  unfold dispatchCopy
  repeat' (first
      | with_reducible assumption
      | (intro z; refine (fun hz : MemWf z => ?_) ?_; rotate_left; subst z; rotate_right; clear_value z)
      | (intro z; clear_value z) | lift_lets -underBinder | with_reducible apply dropReady_memWf
      | with_reducible apply leaveRecord_memWf | with_reducible apply discardNode_memWf
      | with_reducible apply refusePickup_memWf | with_reducible apply setRecordState_memWf
      | with_reducible apply pushCopy_memWf | split)

theorem dispatchCurd_memWf (s : State) (t : TowerId) (e : ReadyEntry) (h_s : MemWf s)
    : MemWf (dispatchCurd s t e) := by
  unfold dispatchCurd
  repeat' (first
      | with_reducible assumption
      | (intro z; refine (fun hz : MemWf z => ?_) ?_; rotate_left; subst z; rotate_right; clear_value z)
      | (intro z; clear_value z) | lift_lets -underBinder | with_reducible apply dropReady_memWf
      | with_reducible apply leaveRecord_memWf | with_reducible apply discardNode_memWf
      | with_reducible apply refusePickup_memWf | with_reducible apply setRecordState_memWf
      | with_reducible apply State.setTower_memWf | with_reducible apply State.due_memWf | split)

theorem execDispatch_memWf (s : State) (h_s : MemWf s) {st' : State} : (execDispatch s) = .next st' →
    MemWf st' := by
  unfold execDispatch
  repeat' (first
      | with_reducible assumption | with_reducible refine next_memWf ?_
      | (intro z; refine (fun hz : MemWf z => ?_) ?_; rotate_left; subst z; rotate_right; clear_value z)
      | (intro z; clear_value z) | lift_lets -underBinder | with_reducible apply dispatchTo_memWf
      | with_reducible apply dropReady_memWf | with_reducible apply dispatchCopy_memWf
      | with_reducible apply dispatchCurd_memWf | with_reducible apply unstage_memWf | split | intro _)

theorem execDisplacementRequest_memWf (s : State) (h_s : MemWf s) {st' : State} : (execDisplacementRequest s) = .next
    st' →
    MemWf st' := by
  unfold execDisplacementRequest
  repeat' (first
      | with_reducible assumption | with_reducible refine next_memWf ?_
      | (intro z; refine (fun hz : MemWf z => ?_) ?_; rotate_left; subst z; rotate_right; clear_value z)
      | (intro z; clear_value z) | lift_lets -underBinder | with_reducible apply State.setCore_memWf
      | with_reducible apply State.dueFirst_memWf | split | simp -zeta only [MemWf.made, MemWf.form])

theorem execYieldTimeout_memWf (s : State) (h_s : MemWf s) {st' : State} : (execYieldTimeout s) = .next st' →
    MemWf st' := by
  unfold execYieldTimeout
  repeat' (first
      | with_reducible assumption | with_reducible refine next_memWf ?_
      | (intro z; refine (fun hz : MemWf z => ?_) ?_; rotate_left; subst z; rotate_right; clear_value z)
      | (intro z; clear_value z) | lift_lets -underBinder | with_reducible apply undoBundle_memWf
      | with_reducible apply forcedStop_memWf | with_reducible apply State.setCore_memWf | split)

theorem execPreemptWritebackDone_memWf (s : State) (h_s : MemWf s) {st' : State} : (execPreemptWritebackDone s) =
    .next st' →
    MemWf st' := by
  unfold execPreemptWritebackDone
  repeat' (first
      | with_reducible assumption | with_reducible refine next_memWf ?_
      | (intro z; refine (fun hz : MemWf z => ?_) ?_; rotate_left; subst z; rotate_right; clear_value z)
      | (intro z; clear_value z) | lift_lets -underBinder | with_reducible apply fullRelease_memWf
      | with_reducible apply State.setTower_memWf | with_reducible apply leaveRecord_memWf
      | with_reducible apply pushReady_memWf | split)

theorem execFusionChange_memWf (s : State) (h_s : MemWf s) {st' : State} : (execFusionChange s) = .next st' →
    MemWf st' := by
  unfold execFusionChange
  repeat' (first
      | with_reducible assumption | with_reducible refine next_memWf ?_
      | (intro z; refine (fun hz : MemWf z => ?_) ?_; rotate_left; subst z; rotate_right; clear_value z)
      | (intro z; clear_value z) | lift_lets -underBinder | with_reducible apply dropLines_memWf
      | with_reducible apply writeBackLines_memWf | with_reducible apply State.setCluster_memWf
      | with_reducible apply foldl_memWf | with_reducible apply foldlSnd_memWf | with_reducible apply foldlFst_memWf
      | split | intro _)

theorem wakeRecord_memWf (s : State) (t : TowerId) (x : Suspended) (h_s : MemWf s)
    : MemWf (wakeRecord s t x) := by
  unfold wakeRecord
  repeat' (first
      | with_reducible assumption | with_reducible apply leaveRecord_memWf | with_reducible apply pushReady_memWf
      | split | simp -zeta only [MemWf.made, MemWf.form])

theorem execWake_memWf (s : State) (h_s : MemWf s) {st' : State} : (execWake s) = .next st' →
    MemWf st' := by
  unfold execWake
  repeat' (first
      | with_reducible assumption | with_reducible refine next_memWf ?_
      | (intro z; refine (fun hz : MemWf z => ?_) ?_; rotate_left; subst z; rotate_right; clear_value z)
      | (intro z; clear_value z) | lift_lets -underBinder | with_reducible apply wakeRecord_memWf
      | with_reducible apply State.setTower_memWf | split | simp -zeta only [MemWf.made, MemWf.form] | intro _)

theorem receiveRecord_memWf (s : State) (h_s : MemWf s)
    : MemWf (receiveRecord s) := by
  unfold receiveRecord
  repeat' (first
      | with_reducible assumption
      | (intro z; refine (fun hz : MemWf z => ?_) ?_; rotate_left; subst z; rotate_right; clear_value z)
      | (intro z; clear_value z) | lift_lets -underBinder | with_reducible apply writeNat_memWf
      | with_reducible apply State.setTower_memWf | with_reducible apply faultNode_memWf
      | with_reducible apply discardNode_memWf | with_reducible apply pushReady_memWf | split)

theorem placeRecord_memWf (s : State) (t : TowerId) (a : Armed) (key : Nat) (addr : Word) (h_s : MemWf s)
    : MemWf (placeRecord s t a key addr) := by
  unfold placeRecord
  repeat' (first
      | with_reducible assumption
      | (intro z; refine (fun hz : MemWf z => ?_) ?_; rotate_left; subst z; rotate_right; clear_value z)
      | (intro z; refine (fun hz : MemWf z.2 => ?_) ?_; rotate_left; subst z; rotate_right; clear_value z)
      | (intro z; refine (fun hfun : ∀ a0 a1, MemWf a0 → MemWf (z a0 a1) => ?_) ?_; rotate_left; subst z; rotate_right; clear_value z)
      | (intro z; clear_value z) | lift_lets -underBinder | with_reducible apply faultNode_memWf
      | with_reducible apply rennetKey_memWf | with_reducible apply State.setTower_memWf
      | with_reducible apply setRecordState_memWf | with_reducible apply pushReady_memWf
      | with_reducible apply newPacket_memWf | with_reducible apply sendPacket_memWf | with_reducible apply hfun
      | intro _
      | (with_reducible refine of_second ‹_› ?_; first | with_reducible assumption | with_reducible apply rennetKey_memWf | with_reducible apply newPacket_memWf)
      | split | simp -zeta only [MemWf.made, MemWf.form])

theorem execPodRecordForward_memWf (s : State) (h_s : MemWf s) {st' : State} : (execPodRecordForward s) = .next st' →
    MemWf st' := by
  unfold execPodRecordForward
  repeat' (first
      | with_reducible assumption | with_reducible refine next_memWf ?_
      | (intro z; refine (fun hz : MemWf z => ?_) ?_; rotate_left; subst z; rotate_right; clear_value z)
      | (intro z; clear_value z) | lift_lets -underBinder | with_reducible apply receiveRecord_memWf
      | with_reducible apply placeRecord_memWf | split)

theorem execPodRecordResponse_memWf (s : State) (h_s : MemWf s) {st' : State} : (execPodRecordResponse s) = .next st'
    →
    MemWf st' := by
  unfold execPodRecordResponse
  repeat' (first
      | with_reducible assumption | with_reducible refine next_memWf ?_
      | (intro z; refine (fun hz : MemWf z => ?_) ?_; rotate_left; subst z; rotate_right; clear_value z)
      | (intro z; refine (fun hz : MemWf z.2 => ?_) ?_; rotate_left; subst z; rotate_right; clear_value z)
      | (intro z; clear_value z) | lift_lets -underBinder | with_reducible apply disarm_memWf
      | with_reducible apply newPacket_memWf | with_reducible apply sendPacket_memWf
      | with_reducible apply State.setTower_memWf | with_reducible apply completeNode_memWf
      | with_reducible apply faultNode_memWf
      | (with_reducible refine of_second ‹_› ?_; first | with_reducible assumption | with_reducible apply newPacket_memWf)
      | split | simp -zeta only [MemWf.made, MemWf.form] | intro _)

/-! ### Windows -/

theorem acceptRennet_memWf (s : State) (c : CoreId) (e : ReplayEntry) (h_s : MemWf s)
    : MemWf (acceptRennet s c e) := by
  unfold acceptRennet
  repeat' (first
      | with_reducible assumption
      | (intro z; refine (fun hz : MemWf z => ?_) ?_; rotate_left; subst z; rotate_right; clear_value z)
      | (intro z; clear_value z) | lift_lets -underBinder | with_reducible apply State.due_memWf | split
      | simp -zeta only [MemWf.made, MemWf.form])

theorem acceptIndex_memWf (s : State) (c : CoreId) (e : ReplayEntry) (h_s : MemWf s)
    : MemWf (acceptIndex s c e) := by
  unfold acceptIndex
  repeat' (first
      | with_reducible assumption
      | (intro z; refine (fun hz : MemWf z => ?_) ?_; rotate_left; subst z; rotate_right; clear_value z)
      | (intro z; clear_value z) | intro _ | lift_lets -underBinder | with_reducible apply State.setCore_memWf
      | with_reducible apply statRecord_memWf | split | simp -zeta only [MemWf.made, MemWf.form])

theorem acceptCopy_memWf (s : State) (c : CoreId) (e : ReplayEntry) (h_s : MemWf s)
    : MemWf (acceptCopy s c e) := by
  unfold acceptCopy
  repeat' (first | with_reducible assumption | with_reducible apply pushCopy_memWf | split)

theorem acceptSend_memWf (s : State) (c : CoreId) (e : ReplayEntry) (h_s : MemWf s)
    : MemWf (acceptSend s c e) := by
  unfold acceptSend
  repeat' (first
      | with_reducible assumption
      | (intro z; refine (fun hz : MemWf z => ?_) ?_; rotate_left; subst z; rotate_right; clear_value z)
      | (intro z; refine (fun hz : MemWf z.2 => ?_) ?_; rotate_left; subst z; rotate_right; clear_value z)
      | (intro z; clear_value z) | intro _ | lift_lets -underBinder | with_reducible apply newPacket_memWf
      | with_reducible apply State.mapHub_memWf | with_reducible apply State.due_memWf
      | with_reducible apply sendPacket_memWf | with_reducible apply acceptSend.nextSlot_memWf
      | (with_reducible refine of_second ‹_› ?_; first | with_reducible assumption | with_reducible apply newPacket_memWf)
      | split | simp -zeta only [MemWf.made, MemWf.form])

theorem acceptEntry_memWf (s : State) (c : CoreId) (e : ReplayEntry) (h_s : MemWf s)
    : MemWf (acceptEntry s c e) := by
  unfold acceptEntry
  repeat' (first
      | with_reducible assumption | with_reducible apply acceptRennet_memWf | with_reducible apply acceptSend_memWf
      | with_reducible apply acceptIndex_memWf | with_reducible apply acceptCopy_memWf | split)

theorem execReplayAck_memWf (s : State) (h_s : MemWf s) {st' : State} : (execReplayAck s) = .next st' →
    MemWf st' := by
  unfold execReplayAck
  repeat' (first
      | with_reducible assumption | with_reducible refine next_memWf ?_
      | (intro z; refine (fun hz : MemWf z => ?_) ?_; rotate_left; subst z; rotate_right; clear_value z)
      | (intro z; clear_value z) | lift_lets -underBinder | with_reducible apply State.setCore_memWf
      | with_reducible apply acceptEntry_memWf | with_reducible apply emptyFreed_memWf
      | with_reducible apply offerWindow_memWf | split | simp -zeta only [MemWf.made, MemWf.form] | intro _)

theorem nakRecord_memWf (s : State) (c : CoreId) (e : ReplayEntry) (n : Nat) (code : Code) (h_s : MemWf s)
    : MemWf (nakRecord s c e n code) := by
  unfold nakRecord
  repeat' (first | with_reducible assumption | with_reducible apply statRecord_memWf | split)

theorem countNak_memWf (s : State) (q : Nat) (h_s : MemWf s)
    : MemWf (countNak s q) := by
  unfold countNak
  repeat' (first | with_reducible assumption | with_reducible apply writeNat_memWf | split)

theorem execReplayNak_memWf (s : State) (h_s : MemWf s) {st' : State} : (execReplayNak s) = .next st' →
    MemWf st' := by
  unfold execReplayNak
  repeat' (first
      | with_reducible assumption | with_reducible refine next_memWf ?_
      | (intro z; refine (fun hz : MemWf z => ?_) ?_; rotate_left; subst z; rotate_right; clear_value z)
      | (intro z; clear_value z) | lift_lets -underBinder | with_reducible apply nakRecord_memWf
      | with_reducible apply countNak_memWf | with_reducible apply State.setCore_memWf | split
      | simp -zeta only [MemWf.made, MemWf.form] | intro _)

theorem reoffer_memWf (s : State) (t : TowerId) (h_s : MemWf s)
    : MemWf (reoffer s t) := by
  unfold reoffer
  repeat' (first
      | with_reducible assumption
      | (intro z; refine (fun hz : MemWf z => ?_) ?_; rotate_left; subst z; rotate_right; clear_value z)
      | (intro z; clear_value z) | intro _ | lift_lets -underBinder | with_reducible apply offerRecord_memWf
      | with_reducible apply State.setTower_memWf | split | simp -zeta only [MemWf.made, MemWf.form])

theorem execRetryBackoffExpiry_memWf (s : State) (h_s : MemWf s) {st' : State} : (execRetryBackoffExpiry s) = .next
    st' →
    MemWf st' := by
  unfold execRetryBackoffExpiry
  repeat' (first
      | with_reducible assumption | with_reducible refine next_memWf ?_
      | (intro z; refine (fun hz : MemWf z => ?_) ?_; rotate_left; subst z; rotate_right; clear_value z)
      | (intro z; clear_value z) | lift_lets -underBinder | with_reducible apply reoffer_memWf
      | with_reducible apply offerWindow_memWf | with_reducible apply State.setCore_memWf | split
      | simp -zeta only [MemWf.made, MemWf.form] | intro _)

/-! ### Churn -/

theorem churnBlock_memWf (s : State) (v : View) (a : Word) (n : Nat) (h_s : MemWf s)
    : MemWf (churnBlock s v a n).2 := by
  unfold churnBlock
  repeat' (first
      | with_reducible assumption
      | (intro z; refine (fun hz : MemWf z => ?_) ?_; rotate_left; subst z; rotate_right; clear_value z)
      | (intro z; refine (fun hz : MemWf z.2 => ?_) ?_; rotate_left; subst z; rotate_right; clear_value z)
      | (intro z; clear_value z) | lift_lets -underBinder | with_reducible apply lookupFlat_memWf
      | with_reducible apply hostError_memWf
      | (with_reducible refine of_second ‹_› ?_; first | with_reducible assumption | with_reducible apply lookupFlat_memWf)
      | split)

theorem churnDescriptor_memWf (s : State) (v : View) (m : BitVec 1024) (a : Word) (f : State → BitVec 512 →
    TemplateRead × State) (h_s : MemWf s) (h_f : ∀ a0 a1, MemWf a0 → MemWf (f a0 a1).2)
    : MemWf (churnDescriptor s v m a f).2 := by
  unfold churnDescriptor
  repeat' (first
      | with_reducible assumption | with_reducible apply churnBlock_memWf | with_reducible apply h_f
      | (with_reducible refine of_second ‹_› ?_; first | with_reducible assumption | with_reducible apply churnBlock_memWf)
      | split)

theorem readTemplate_memWf (s : State) (v : View) (tmpl : BitVec 8) (gath : Bool) (h_s : MemWf s)
    : MemWf (readTemplate s v tmpl gath).2 := by
  unfold readTemplate
  repeat' (first
      | with_reducible assumption
      | (intro z; refine (fun hz : MemWf z => ?_) ?_; rotate_left; subst z; rotate_right; clear_value z)
      | (intro z; refine (fun hz : MemWf z.2 => ?_) ?_; rotate_left; subst z; rotate_right; clear_value z)
      | (intro z; clear_value z) | intro _ | lift_lets -underBinder | with_reducible apply churnBlock_memWf
      | with_reducible apply churnDescriptor_memWf
      | (with_reducible refine of_second ‹_› ?_; first | with_reducible assumption | with_reducible apply churnBlock_memWf | with_reducible apply churnDescriptor_memWf)
      | split)

theorem copyReach_memWf (s : State) (v : View) (acc : Nat) (desc : BitVec 512) (tile : Nat) (h_s : MemWf s)
    : MemWf (copyReach s v acc desc tile).2 := by
  unfold copyReach
  repeat' (first
      | with_reducible assumption
      | (intro z; refine (fun hz : MemWf z => ?_) ?_; rotate_left; subst z; rotate_right; clear_value z)
      | (intro z; refine (fun hz : MemWf z.2 => ?_) ?_; rotate_left; subst z; rotate_right; clear_value z)
      | (intro z; clear_value z) | lift_lets -underBinder | with_reducible apply lookupTensor_memWf
      | (with_reducible refine of_second ‹_› ?_; first | with_reducible assumption | with_reducible apply lookupTensor_memWf)
      | split)

theorem flushHome_memWf (s : State) (key : Nat) (dirty : Bool) (h_s : MemWf s)
    : MemWf (flushHome s key dirty) := by
  unfold flushHome
  repeat' (first | with_reducible assumption | with_reducible apply touchHome_memWf | split)

theorem readHomeBits_memWf (s : State) (e : BitVec 64) (b : Nat) (w : Nat) (h_s : MemWf s)
    : MemWf (readHomeBits s e b w).2 := by
  unfold readHomeBits
  repeat' (first
      | with_reducible assumption
      | (intro z; refine (fun hz : MemWf z => ?_) ?_; rotate_left; subst z; rotate_right; clear_value z)
      | (intro z; clear_value z) | lift_lets -underBinder | with_reducible apply flushHome_memWf | split)

theorem updateParity_memWf (s : State) (key : Nat) (n : Nat) (h_s : MemWf s)
    : MemWf (updateParity s key n) := by
  unfold updateParity
  repeat' (first
      | with_reducible assumption | intro _ | with_reducible apply writeByte_memWf | with_reducible apply upTo_memWf
      | split)

theorem putHomeBits_memWf (s : State) (key : Nat) (b : Nat) (w : Nat) (v : Nat) (h_s : MemWf s)
    : MemWf (putHomeBits s key b w v) := by
  unfold putHomeBits
  repeat' (first
      | with_reducible assumption
      | (intro z; refine (fun hz : MemWf z => ?_) ?_; rotate_left; subst z; rotate_right; clear_value z)
      | (intro z; clear_value z) | lift_lets -underBinder | with_reducible apply flushHome_memWf
      | with_reducible apply updateParity_memWf | with_reducible apply writeBytesRaw_memWf
      | with_reducible apply writeByte_memWf | split)

theorem writeElement_memWf (s : State) (cp : Copy) (es : BitVec 64) (bs : Nat) (ed : BitVec 64) (td : Nat) (bd : Nat)
    (dc : Nat → Nat) (h_s : MemWf s)
    : Element.Wf (writeElement s cp es bs ed td bd dc) := by
  unfold writeElement
  repeat' (first
      | with_reducible assumption
      | (intro z; refine (fun hz : MemWf z => ?_) ?_; rotate_left; subst z; rotate_right; clear_value z)
      | (intro z; refine (fun hz : MemWf z.2 => ?_) ?_; rotate_left; subst z; rotate_right; clear_value z)
      | (intro z; clear_value z) | intro _ | lift_lets -underBinder | with_reducible apply readHomeBits_memWf
      | with_reducible apply hostError_memWf | with_reducible apply putHomeBits_memWf
      | with_reducible apply Element.wf_wrote | with_reducible apply Element.wf_stop
      | with_reducible apply Element.wf_held | with_reducible apply Element.wf_wait
      | (with_reducible refine of_second ‹_› ?_; first | with_reducible assumption | with_reducible apply readHomeBits_memWf)
      | split | simp -zeta only [MemWf.made, MemWf.form])

theorem copyElement_memWf (s : State) (d : Dest4) (cp : Copy) (h_s : MemWf s)
    : Element.Wf (copyElement s d cp) := by
  unfold copyElement
  repeat' (first
      | with_reducible assumption
      | (intro z; refine (fun hz : MemWf z => ?_) ?_; rotate_left; subst z; rotate_right; clear_value z)
      | (intro z; refine (fun hz : MemWf z.2 => ?_) ?_; rotate_left; subst z; rotate_right; clear_value z)
      | (intro z; refine (fun hz : z.Wf => ?_) ?_; rotate_left; subst z; rotate_right; clear_value z) | exact hz
      | (intro z; clear_value z) | intro _ | lift_lets -underBinder | with_reducible apply copyReach_memWf
      | with_reducible apply writeElement_memWf | with_reducible refine Element.of_wrote ‹_› ?_
      | with_reducible refine Element.of_stop ‹_› ?_ | with_reducible refine Element.of_held ‹_› ?_
      | with_reducible refine Element.of_wait ‹_› ?_ | with_reducible apply Element.wf_wrote
      | with_reducible apply Element.wf_stop | with_reducible apply Element.wf_held
      | with_reducible apply Element.wf_wait
      | (with_reducible refine of_second ‹_› ?_; first | with_reducible assumption | with_reducible apply copyReach_memWf)
      | split | simp -zeta only [MemWf.made, MemWf.form])

theorem runCopy_memWf (d : Dest4) : ∀ (f n : Nat) (s : State) (cp : Copy), MemWf s → MemWf (runCopy d f n s cp).1
  | 0, _, _, _, h => h
  | f + 1, n, s, cp, h => by
    have hc := copyElement_memWf s d cp h
    unfold runCopy
    generalize copyElement s d cp = r at hc
    split
    · exact h
    · cases r with
      | wrote s1 cp1 =>
        dsimp only
        split
        · exact runCopy_memWf d f _ _ _ hc
        · exact hc
      | stop s1 a b => exact hc
      | held s1 => exact hc
      | wait s1 => exact hc

theorem continueCopy_memWf (s : State) (d : Dest4) (cp : Copy) (h_s : MemWf s)
    : MemWf (continueCopy s d cp) := by
  unfold continueCopy
  repeat' (first
      | with_reducible assumption
      | (intro z; refine (fun hz : MemWf z => ?_) ?_; rotate_left; subst z; rotate_right; clear_value z)
      | (intro z; refine (fun hz : MemWf z.1 => ?_) ?_; rotate_left; subst z; rotate_right; clear_value z)
      | (intro z; clear_value z) | lift_lets -underBinder | with_reducible apply runCopy_memWf
      | with_reducible apply State.setChurnChan_memWf
      | (with_reducible refine of_first ‹_› ?_; first | with_reducible assumption | with_reducible apply runCopy_memWf)
      | split)

theorem openRows_memWf (s : State) (v : View) (tmpl : BitVec 8) (h_s : MemWf s)
    : MemWf (openRows s v tmpl).2 := by
  unfold openRows
  repeat' (first
      | with_reducible assumption | with_reducible apply readTemplate_memWf
      | (with_reducible refine of_second ‹_› ?_; first | with_reducible assumption | with_reducible apply readTemplate_memWf)
      | split)

theorem setOpening_memWf (s : State) (c : CoreId) (key : Nat) (o : GatherOpen) (h_s : MemWf s)
    : MemWf (setOpening s c key o) := by
  unfold setOpening
  repeat' (first
      | with_reducible assumption
      | (intro z; refine (fun hz : MemWf z => ?_) ?_; rotate_left; subst z; rotate_right; clear_value z)
      | (intro z; clear_value z) | intro _ | lift_lets -underBinder | with_reducible apply State.setCore_memWf | split
      | simp -zeta only [MemWf.made, MemWf.form])

theorem startGather_memWf (s : State) (d : Dest4) (r : CopyReq) (key : Nat) (rest : List CopyReq) (h_s : MemWf s)
    : MemWf (startGather s d r key rest) := by
  unfold startGather
  repeat' (first
      | with_reducible assumption
      | (intro z; refine (fun hz : MemWf z => ?_) ?_; rotate_left; subst z; rotate_right; clear_value z)
      | (intro z; refine (fun hz : MemWf z.2 => ?_) ?_; rotate_left; subst z; rotate_right; clear_value z)
      | (intro z; refine (fun hfun : ∀ a0, MemWf a0 → MemWf (z a0) => ?_) ?_; rotate_left; subst z; rotate_right; clear_value z)
      | (intro z; clear_value z) | intro _ | lift_lets -underBinder | with_reducible apply State.setChurnChan_memWf
      | with_reducible apply openRows_memWf | with_reducible apply setOpening_memWf | with_reducible apply hfun
      | intro _
      | (with_reducible refine of_second ‹_› ?_; first | with_reducible assumption | with_reducible apply openRows_memWf)
      | split)

theorem execCopyStart_memWf (s : State) (h_s : MemWf s) {st' : State} : (execCopyStart s) = .next st' →
    MemWf st' := by
  unfold execCopyStart
  repeat' (first
      | with_reducible assumption | with_reducible refine next_memWf ?_
      | (intro z; refine (fun hz : MemWf z => ?_) ?_; rotate_left; subst z; rotate_right; clear_value z)
      | (intro z; refine (fun hz : MemWf z.2 => ?_) ?_; rotate_left; subst z; rotate_right; clear_value z)
      | (intro z; refine (fun hfun : ∀ a0 a1, MemWf a0 → MemWf (z a0 a1) => ?_) ?_; rotate_left; subst z; rotate_right; clear_value z)
      | (intro z; clear_value z) | lift_lets -underBinder | with_reducible apply continueCopy_memWf
      | with_reducible apply State.setChurnChan_memWf | with_reducible apply startGather_memWf
      | with_reducible apply readTemplate_memWf | with_reducible apply hfun
      | (with_reducible refine of_second ‹_› ?_; first | with_reducible assumption | with_reducible apply readTemplate_memWf)
      | split | simp -zeta only [MemWf.made, MemWf.form] | intro _)

theorem copyRecord_memWf (s : State) (d : Dest4) (cp : Copy) (code : Code) (addr : Word) (info : Word) (h_s : MemWf s)
    : MemWf (copyRecord s d cp code addr info) := by
  unfold copyRecord
  repeat' (first | with_reducible assumption | with_reducible apply faultRecord_memWf | split)

theorem copyObject_memWf (s : State) (d : Dest4) (cp : Copy) (a : Word) (n : Nat) (h_s : MemWf s)
    : MemWf (copyObject s d cp a n).2 := by
  unfold copyObject
  repeat' (first
      | with_reducible assumption
      | (intro z; refine (fun hz : MemWf z => ?_) ?_; rotate_left; subst z; rotate_right; clear_value z)
      | (intro z; refine (fun hz : MemWf z.2 => ?_) ?_; rotate_left; subst z; rotate_right; clear_value z)
      | (intro z; clear_value z) | lift_lets -underBinder | with_reducible apply lookupFlat_memWf
      | (with_reducible refine of_second ‹_› ?_; first | with_reducible assumption | with_reducible apply lookupFlat_memWf)
      | split)

theorem copyTargets_memWf (s : State) (d : Dest4) (cp : Copy) (h_s : MemWf s)
    : MemWf (copyTargets s d cp).2 := by
  unfold copyTargets
  repeat' (first
      | with_reducible assumption
      | (intro z; refine (fun hz : MemWf z => ?_) ?_; rotate_left; subst z; rotate_right; clear_value z)
      | (intro z; refine (fun hz : MemWf z.2 => ?_) ?_; rotate_left; subst z; rotate_right; clear_value z)
      | (intro z; clear_value z) | lift_lets -underBinder | with_reducible apply copyObject_memWf
      | (with_reducible refine of_second ‹_› ?_; first | with_reducible assumption | with_reducible apply copyObject_memWf)
      | split)

theorem unusable_memWf (s : State) (d : Dest4) (cp : Copy) (a : Word) (h_s : MemWf s)
    : MemWf (unusable s d cp a) := by
  unfold unusable
  repeat' (first | with_reducible assumption | with_reducible apply copyRecord_memWf | split)

theorem completeBarrier_memWf (s : State) (d : Dest4) (cp : Copy) (bara : Option Nat) (h_s : MemWf s)
    : MemWf (completeBarrier s d cp bara) := by
  unfold completeBarrier
  repeat' (first
      | with_reducible assumption
      | (intro z; refine (fun hz : MemWf z => ?_) ?_; rotate_left; subst z; rotate_right; clear_value z)
      | (intro z; clear_value z) | intro _ | lift_lets -underBinder | with_reducible apply unusable_memWf
      | with_reducible apply barrierApply_memWf | with_reducible apply flushHome_memWf | split)

theorem completeSource_memWf (s : State) (d : Dest4) (cp : Copy) (h_s : MemWf s)
    : MemWf (completeSource s d cp) := by
  unfold completeSource
  repeat' (first
      | with_reducible assumption | with_reducible apply leaveRecord_memWf | with_reducible apply completeNode_memWf
      | with_reducible apply faultNode_memWf | with_reducible apply stagingDone_memWf | split)

theorem afterRecord_memWf (s : State) (d : Dest4) (cp : Copy) (bara : Option Nat) (h_s : MemWf s)
    : MemWf (afterRecord s d cp bara) := by
  unfold afterRecord
  repeat' (first
      | with_reducible assumption | with_reducible apply completeSource_memWf
      | with_reducible apply completeBarrier_memWf | with_reducible apply dropWalked_memWf
      | with_reducible apply State.setChurnChan_memWf | split)

theorem execCopyComplete_memWf (s : State) (h_s : MemWf s) {st' : State} : (execCopyComplete s) = .next st' →
    MemWf st' := by
  unfold execCopyComplete
  repeat' (first
      | with_reducible assumption | with_reducible refine next_memWf ?_
      | (intro z; refine (fun hz : MemWf z => ?_) ?_; rotate_left; subst z; rotate_right; clear_value z)
      | (intro z; refine (fun hz : MemWf z.2 => ?_) ?_; rotate_left; subst z; rotate_right; clear_value z)
      | (intro z; refine (fun hz : z.Wf => ?_) ?_; rotate_left; subst z; rotate_right; clear_value z) | exact hz
      | (intro z; refine (fun hfun : ∀ a0, MemWf a0 → MemWf (z a0) => ?_) ?_; rotate_left; subst z; rotate_right; clear_value z)
      | (intro z; clear_value z) | lift_lets -underBinder | with_reducible apply copyTargets_memWf
      | with_reducible apply afterRecord_memWf | with_reducible apply copyRecord_memWf
      | with_reducible apply unusable_memWf | with_reducible apply ringPut_memWf | with_reducible apply raise_memWf
      | with_reducible apply State.setChurnChan_memWf | with_reducible apply hfun | with_reducible apply foldl_memWf
      | with_reducible apply foldlSnd_memWf | with_reducible apply foldlFst_memWf
      | with_reducible refine RingResult.of_taken ‹_› ?_ | with_reducible refine RingResult.of_full ‹_› ?_
      | (with_reducible refine of_second ‹_› ?_; first | with_reducible assumption | with_reducible apply copyTargets_memWf)
      | split | simp -zeta only [MemWf.made, MemWf.form] | intro _)

theorem holdRecord_memWf (s : State) (d : Dest4) (cp : Copy) (h_s : MemWf s)
    : MemWf (holdRecord s d cp) := by
  unfold holdRecord
  repeat' (first
      | with_reducible assumption | with_reducible apply statRecord_memWf | with_reducible apply copyRecord_memWf
      | split)

theorem execGranuleHoldRelease_memWf (s : State) (h_s : MemWf s) {st' : State} : (execGranuleHoldRelease s) = .next
    st' →
    MemWf st' := by
  unfold execGranuleHoldRelease
  repeat' (first
      | with_reducible assumption | with_reducible refine next_memWf ?_
      | (intro z; refine (fun hz : MemWf z => ?_) ?_; rotate_left; subst z; rotate_right; clear_value z)
      | (intro z; refine (fun hz : z.Wf => ?_) ?_; rotate_left; subst z; rotate_right; clear_value z) | exact hz
      | (intro z; clear_value z) | lift_lets -underBinder | with_reducible apply copyElement_memWf
      | with_reducible apply continueCopy_memWf | with_reducible apply holdRecord_memWf
      | with_reducible refine Element.of_wrote ‹_› ?_ | with_reducible refine Element.of_stop ‹_› ?_
      | with_reducible refine Element.of_held ‹_› ?_ | with_reducible refine Element.of_wait ‹_› ?_ | split
      | simp -zeta only [MemWf.made, MemWf.form])

theorem rowElements_memWf (v : View) (o : GatherOpen) (index : Nat) (x1 : Nat) (x2 : State) (h_x2 : MemWf x2)
    : MemWf (rowElements v o index x1 x2).2 := by
  revert h_x2
  fun_induction rowElements v o index x1 x2 <;> intros
  all_goals
    repeat' (first
      | with_reducible assumption | (with_reducible apply_assumption)
      | (intro z; refine (fun hz : MemWf z => ?_) ?_; rotate_left; subst z; rotate_right; clear_value z)
      | (intro z; refine (fun hz : MemWf z.2 => ?_) ?_; rotate_left; subst z; rotate_right; clear_value z)
      | (intro z; clear_value z) | intro _ | lift_lets -underBinder | with_reducible apply copyReach_memWf
      | with_reducible apply readHomeBits_memWf | with_reducible apply hostError_memWf
      | (with_reducible refine of_second ‹_› ?_; first | with_reducible assumption | with_reducible apply_assumption | with_reducible apply copyReach_memWf | with_reducible apply readHomeBits_memWf)
      | split | dsimp only)

theorem gatherOpening_memWf (s : State) (v : View) (k : Core) (g : Gather) (h_s : MemWf s)
    : MemWf (gatherOpening s v k g).2 := by
  unfold gatherOpening
  repeat' (first
      | with_reducible assumption | intro _ | with_reducible apply openRows_memWf
      | (with_reducible refine of_second ‹_› ?_; first | with_reducible assumption | with_reducible apply openRows_memWf)
      | split)

theorem gatherRow_memWf (s : State) (c : CoreId) (i : GatherIndex) (h_s : MemWf s)
    : MemWf (gatherRow s c i).2 := by
  unfold gatherRow
  repeat' (first
      | with_reducible assumption
      | (intro z; refine (fun hz : MemWf z => ?_) ?_; rotate_left; subst z; rotate_right; clear_value z)
      | (intro z; refine (fun hz : MemWf z.2 => ?_) ?_; rotate_left; subst z; rotate_right; clear_value z)
      | (intro z; clear_value z) | lift_lets -underBinder | with_reducible apply gatherOpening_memWf
      | with_reducible apply rowElements_memWf
      | (with_reducible refine of_second ‹_› ?_; first | with_reducible assumption | with_reducible apply gatherOpening_memWf | with_reducible apply rowElements_memWf)
      | split)

theorem execGatherRowDeliver_memWf (s : State) (h_s : MemWf s) {st' : State} : (execGatherRowDeliver s) = .next st' →
    MemWf st' := by
  unfold execGatherRowDeliver
  repeat' (first
      | with_reducible assumption | with_reducible refine next_memWf ?_
      | (intro z; refine (fun hz : MemWf z => ?_) ?_; rotate_left; subst z; rotate_right; clear_value z)
      | (intro z; refine (fun hz : MemWf z.2 => ?_) ?_; rotate_left; subst z; rotate_right; clear_value z)
      | (intro z; clear_value z) | lift_lets -underBinder | with_reducible apply gatherRow_memWf
      | with_reducible apply statRecord_memWf | with_reducible apply setOpening_memWf
      | with_reducible apply State.setCore_memWf
      | (with_reducible refine of_second ‹_› ?_; first | with_reducible assumption | with_reducible apply gatherRow_memWf)
      | split | simp -zeta only [MemWf.made, MemWf.form])

theorem apertureWrite_memWf (s : State) (reg : Nat) (f : State → Dest4 → Channel → State) (h_s : MemWf s) (h_f : ∀ a0
    a1 a2, MemWf a0 → MemWf (f a0 a1 a2))
    : MemWf (apertureWrite s reg f) := by
  unfold apertureWrite
  repeat' (first
      | with_reducible assumption
      | (intro z; refine (fun hz : MemWf z => ?_) ?_; rotate_left; subst z; rotate_right; clear_value z)
      | (intro z; clear_value z) | lift_lets -underBinder | with_reducible apply hubRecord_memWf
      | with_reducible apply h_f | split)

theorem execChurnParamWrite_memWf (s : State) (h_s : MemWf s) {st' : State} : (execChurnParamWrite s) = .next st' →
    MemWf st' := by
  unfold execChurnParamWrite
  repeat' (first
      | with_reducible assumption | with_reducible refine next_memWf ?_ | with_reducible apply apertureWrite_memWf
      | with_reducible apply State.setChurnChan_memWf | split | simp -zeta only [MemWf.made, MemWf.form] | intro _)

theorem execChurnGoWrite_memWf (s : State) (h_s : MemWf s) {st' : State} : (execChurnGoWrite s) = .next st' →
    MemWf st' := by
  unfold execChurnGoWrite
  repeat' (first
      | with_reducible assumption | with_reducible refine next_memWf ?_
      | (intro z; refine (fun hz : MemWf z => ?_) ?_; rotate_left; subst z; rotate_right; clear_value z)
      | (intro z; clear_value z) | lift_lets -underBinder | with_reducible apply apertureWrite_memWf
      | with_reducible apply pushCopy_memWf | split | intro _)

/-! ### Curd -/

theorem State.replaceQuery_memWf (s : State) (t : TowerId) (q : Query) (q' : Query) (h_s : MemWf s)
    : MemWf (State.replaceQuery s t q q') := by
  unfold State.replaceQuery
  repeat' (first | with_reducible assumption | intro _ | with_reducible apply State.setTower_memWf | split)

theorem refuseQuery_memWf (s : State) (t : TowerId) (q : Query) (h_s : MemWf s)
    : MemWf (refuseQuery s t q) := by
  unfold refuseQuery
  repeat' (first
      | with_reducible assumption
      | (intro z; refine (fun hz : MemWf z => ?_) ?_; rotate_left; subst z; rotate_right; clear_value z)
      | (intro z; clear_value z) | lift_lets -underBinder | with_reducible apply statRecord_memWf
      | with_reducible apply State.replaceQuery_memWf | split | simp -zeta only [MemWf.made, MemWf.form])

theorem execCurdQueryAccept_memWf (s : State) (h_s : MemWf s) {st' : State} : (execCurdQueryAccept s) = .next st' →
    MemWf st' := by
  unfold execCurdQueryAccept
  repeat' (first
      | with_reducible assumption | with_reducible refine next_memWf ?_
      | (intro z; refine (fun hz : MemWf z => ?_) ?_; rotate_left; subst z; rotate_right; clear_value z)
      | (intro z; refine (fun hz : MemWf z.2 => ?_) ?_; rotate_left; subst z; rotate_right; clear_value z)
      | (intro z; clear_value z) | lift_lets -underBinder | with_reducible apply refuseQuery_memWf
      | with_reducible apply fillDirectory_memWf | with_reducible apply useDirectory_memWf
      | with_reducible apply answerQuery_memWf | with_reducible apply takePort_memWf
      | with_reducible apply State.replaceQuery_memWf
      | (with_reducible refine of_second ‹_› ?_; first | with_reducible assumption | with_reducible apply answerQuery_memWf)
      | split | simp -zeta only [MemWf.made, MemWf.form])

theorem execCurdResultDeliver_memWf (s : State) (h_s : MemWf s) {st' : State} : (execCurdResultDeliver s) = .next st'
    →
    MemWf st' := by
  unfold execCurdResultDeliver
  repeat' (first
      | with_reducible assumption | with_reducible refine next_memWf ?_
      | (intro z; refine (fun hz : MemWf z => ?_) ?_; rotate_left; subst z; rotate_right; clear_value z)
      | (intro z; clear_value z) | lift_lets -underBinder | with_reducible apply deliverAnswers_memWf | split)

theorem windowPages_memWf (v : View) : ∀ (p n : Nat) (s : State), MemWf s → MemWf (windowPages v p n s).2
  | _, 0, _, h => h
  | p, n + 1, s, h => by
    have hr := resolveFlat_memWf s v p h
    have hw := windowPages_memWf v (p + 1) n _ hr
    unfold windowPages
    dsimp only
    split
    · exact hr
    · exact hr
    · exact hr
    · split
      · exact hr
      · split
        · exact of_second ‹_› hw
        · exact hw

theorem performRows_memWf (s : State) (p : CurdProgram) (clock : Nat) (h_s : MemWf s)
    : MemWf (performRows s p clock) := by
  unfold performRows
  repeat' (first
      | with_reducible assumption
      | (intro z; refine (fun hz : MemWf z => ?_) ?_; rotate_left; subst z; rotate_right; clear_value z)
      | (intro z; clear_value z) | intro _ | lift_lets -underBinder | with_reducible apply writeBytes_memWf
      | with_reducible apply foldl_memWf | with_reducible apply foldlSnd_memWf | with_reducible apply foldlFst_memWf
      | split | simp -zeta only [MemWf.made, MemWf.form])

theorem curdSettle_memWf (s : State) (p : CurdProgram) (h_s : MemWf s)
    : MemWf (curdSettle s p).1 := by
  unfold curdSettle
  repeat' (first
      | with_reducible assumption | intro _ | with_reducible apply performRows_memWf | split
      | simp -zeta only [MemWf.made, MemWf.form])

theorem curdFault_memWf (s : State) (t : TowerId) (p : CurdProgram) (code : Code) (h_s : MemWf s)
    : MemWf (curdFault s t p code) := by
  unfold curdFault
  repeat' (first
      | with_reducible assumption
      | (intro z; refine (fun hz : MemWf z => ?_) ?_; rotate_left; subst z; rotate_right; clear_value z)
      | (intro z; clear_value z) | lift_lets -underBinder | with_reducible apply performRows_memWf
      | with_reducible apply State.setTower_memWf | with_reducible apply leaveRecord_memWf
      | with_reducible apply faultNode_memWf | split)

theorem curdAdvance_memWf (s : State) (t : TowerId) (p : CurdProgram) (w : BitVec 4) (pc : Nat) (h_s : MemWf s)
    : MemWf (curdAdvance s t p w pc) := by
  unfold curdAdvance
  repeat' (first
      | with_reducible assumption | (intro z; clear_value z) | intro _ | lift_lets -underBinder
      | with_reducible apply curdFault_memWf | with_reducible apply State.setTower_memWf | split)

theorem curdStep_memWf (s : State) (w : BitVec 4) (f : State → TowerId → CurdProgram → Except Code CurdProgram) (h_s
    : MemWf s) {st' : State} : (curdStep s w f) = .next st' →
    MemWf st' := by
  unfold curdStep
  repeat' (first
      | with_reducible assumption | with_reducible refine next_memWf ?_
      | (intro z; refine (fun hz : MemWf z => ?_) ?_; rotate_left; subst z; rotate_right; clear_value z)
      | (intro z; refine (fun hz : MemWf z.1 => ?_) ?_; rotate_left; subst z; rotate_right; clear_value z)
      | (intro z; clear_value z) | lift_lets -underBinder | with_reducible apply curdSettle_memWf
      | with_reducible apply curdFault_memWf | with_reducible apply curdAdvance_memWf | with_reducible apply h_f
      | (with_reducible refine of_first ‹_› ?_; first | with_reducible assumption | with_reducible apply curdSettle_memWf)
      | split)

theorem execCurdProgramStart_memWf (s : State) (h_s : MemWf s) {st' : State} : (execCurdProgramStart s) = .next st' →
    MemWf st' := by
  unfold execCurdProgramStart
  repeat' (first
      | with_reducible assumption | with_reducible refine next_memWf ?_
      | (intro z; refine (fun hz : MemWf z => ?_) ?_; rotate_left; subst z; rotate_right; clear_value z)
      | (intro z; refine (fun hz : MemWf z.2 => ?_) ?_; rotate_left; subst z; rotate_right; clear_value z)
      | (intro z; clear_value z) | lift_lets -underBinder | with_reducible apply curdFault_memWf
      | with_reducible apply windowPages_memWf | with_reducible apply flushCombined_memWf
      | with_reducible apply State.setTower_memWf
      | (with_reducible refine of_second ‹_› ?_; first | with_reducible assumption | with_reducible apply windowPages_memWf)
      | split | simp -zeta only [MemWf.made, MemWf.form] | intro _)

theorem execCurdRefreshWindow_memWf (s : State) (h_s : MemWf s) {st' : State} : (execCurdRefreshWindow s) = .next st'
    →
    MemWf st' := by
  unfold execCurdRefreshWindow
  repeat' (first
      | with_reducible assumption | with_reducible refine next_memWf ?_
      | (intro z; refine (fun hz : MemWf z => ?_) ?_; rotate_left; subst z; rotate_right; clear_value z)
      | (intro z; clear_value z) | lift_lets -underBinder | with_reducible apply State.setTower_memWf | split
      | simp -zeta only [MemWf.made, MemWf.form])

theorem execQNop_memWf (w : BitVec 4) (s : State) (h_s : MemWf s) {st' : State} : (execQNop w s) = .next st' →
    MemWf st' := by
  unfold execQNop
  repeat' (first
      | with_reducible assumption | with_reducible refine next_memWf ?_
      | with_reducible refine curdStep_memWf _ _ _ ?_ | intro _)

theorem execQArg_memWf (w : BitVec 4) (d : BitVec 3) (imm : BitVec 12) (s : State) (h_s : MemWf s) {st' : State} :
    (execQArg w d imm s) = .next st' →
    MemWf st' := by
  unfold execQArg
  repeat' (first
      | with_reducible assumption | with_reducible refine next_memWf ?_
      | with_reducible refine curdStep_memWf _ _ _ ?_ | intro _)

theorem execQAddi_memWf (w : BitVec 4) (d : BitVec 3) (a : BitVec 3) (imm : BitVec 12) (s : State) (h_s : MemWf s)
    {st' : State} : (execQAddi w d a imm s) = .next st' →
    MemWf st' := by
  unfold execQAddi
  repeat' (first
      | with_reducible assumption | with_reducible refine next_memWf ?_
      | with_reducible refine curdStep_memWf _ _ _ ?_ | intro _)

theorem execQRd_memWf (w : BitVec 4) (d : BitVec 3) (a : BitVec 3) (f : BitVec 3) (s : State) (h_s : MemWf s) {st' :
    State} : (execQRd w d a f s) = .next st' →
    MemWf st' := by
  unfold execQRd
  repeat' (first
      | with_reducible assumption | with_reducible refine next_memWf ?_
      | (intro z; refine (fun hz : MemWf z => ?_) ?_; rotate_left; subst z; rotate_right; clear_value z)
      | (intro z; clear_value z) | lift_lets -underBinder | with_reducible refine curdStep_memWf _ _ _ ?_ | split
      | intro _)

theorem execQWr_memWf (w : BitVec 4) (a : BitVec 3) (b : BitVec 3) (f : BitVec 3) (s : State) (h_s : MemWf s) {st' :
    State} : (execQWr w a b f s) = .next st' →
    MemWf st' := by
  unfold execQWr
  repeat' (first
      | with_reducible assumption | with_reducible refine next_memWf ?_
      | (intro z; refine (fun hz : MemWf z => ?_) ?_; rotate_left; subst z; rotate_right; clear_value z)
      | (intro z; clear_value z) | lift_lets -underBinder | with_reducible refine curdStep_memWf _ _ _ ?_
      | with_reducible apply foldl_memWf | with_reducible apply foldlSnd_memWf | with_reducible apply foldlFst_memWf
      | split | simp -zeta only [MemWf.made, MemWf.form] | intro _)

theorem execQLook_memWf (w : BitVec 4) (d : BitVec 3) (a : BitVec 3) (b : BitVec 3) (s : State) (h_s : MemWf s) {st'
    : State} : (execQLook w d a b s) = .next st' →
    MemWf st' := by
  unfold execQLook
  repeat' (first
      | with_reducible assumption | with_reducible refine next_memWf ?_
      | (intro z; refine (fun hz : MemWf z => ?_) ?_; rotate_left; subst z; rotate_right; clear_value z)
      | (intro z; clear_value z) | lift_lets -underBinder | with_reducible refine curdStep_memWf _ _ _ ?_ | split
      | intro _)

theorem execQLerp_memWf (w : BitVec 4) (d : BitVec 3) (a : BitVec 3) (b : BitVec 3) (s : State) (h_s : MemWf s) {st'
    : State} : (execQLerp w d a b s) = .next st' →
    MemWf st' := by
  unfold execQLerp
  repeat' (first
      | with_reducible assumption | with_reducible refine next_memWf ?_
      | (intro z; refine (fun hz : MemWf z => ?_) ?_; rotate_left; subst z; rotate_right; clear_value z)
      | (intro z; clear_value z) | lift_lets -underBinder | with_reducible refine curdStep_memWf _ _ _ ?_ | split
      | simp -zeta only [MemWf.made, MemWf.form] | intro _)

theorem execQTld_memWf (w : BitVec 4) (a : BitVec 3) (b : BitVec 3) (imm : BitVec 12) (s : State) (h_s : MemWf s)
    {st' : State} : (execQTld w a b imm s) = .next st' →
    MemWf st' := by
  unfold execQTld
  repeat' (first
      | with_reducible assumption | with_reducible refine next_memWf ?_
      | (intro z; refine (fun hz : MemWf z => ?_) ?_; rotate_left; subst z; rotate_right; clear_value z)
      | (intro z; clear_value z) | lift_lets -underBinder | with_reducible refine curdStep_memWf _ _ _ ?_
      | with_reducible apply foldl_memWf | with_reducible apply foldlSnd_memWf | with_reducible apply foldlFst_memWf
      | split | simp -zeta only [MemWf.made, MemWf.form] | intro _)

theorem execQAdd_memWf (w : BitVec 4) (d : BitVec 3) (a : BitVec 3) (b : BitVec 3) (s : State) (h_s : MemWf s) {st' :
    State} : (execQAdd w d a b s) = .next st' →
    MemWf st' := by
  unfold execQAdd
  repeat' (first
      | with_reducible assumption | with_reducible refine next_memWf ?_
      | with_reducible refine curdStep_memWf _ _ _ ?_ | intro _)

theorem execQAdds_memWf (w : BitVec 4) (d : BitVec 3) (a : BitVec 3) (b : BitVec 3) (s : State) (h_s : MemWf s) {st'
    : State} : (execQAdds w d a b s) = .next st' →
    MemWf st' := by
  unfold execQAdds
  repeat' (first
      | with_reducible assumption | with_reducible refine next_memWf ?_
      | with_reducible refine curdStep_memWf _ _ _ ?_ | intro _)

theorem execQSub_memWf (w : BitVec 4) (d : BitVec 3) (a : BitVec 3) (b : BitVec 3) (s : State) (h_s : MemWf s) {st' :
    State} : (execQSub w d a b s) = .next st' →
    MemWf st' := by
  unfold execQSub
  repeat' (first
      | with_reducible assumption | with_reducible refine next_memWf ?_
      | with_reducible refine curdStep_memWf _ _ _ ?_ | intro _)

theorem execQSubs_memWf (w : BitVec 4) (d : BitVec 3) (a : BitVec 3) (b : BitVec 3) (s : State) (h_s : MemWf s) {st'
    : State} : (execQSubs w d a b s) = .next st' →
    MemWf st' := by
  unfold execQSubs
  repeat' (first
      | with_reducible assumption | with_reducible refine next_memWf ?_
      | with_reducible refine curdStep_memWf _ _ _ ?_ | intro _)

theorem execQExt_memWf (w : BitVec 4) (d : BitVec 3) (a : BitVec 3) (imm : BitVec 12) (s : State) (h_s : MemWf s)
    {st' : State} : (execQExt w d a imm s) = .next st' →
    MemWf st' := by
  unfold execQExt
  repeat' (first
      | with_reducible assumption | with_reducible refine next_memWf ?_
      | with_reducible refine curdStep_memWf _ _ _ ?_ | intro _)

theorem execQExts_memWf (w : BitVec 4) (d : BitVec 3) (a : BitVec 3) (imm : BitVec 12) (s : State) (h_s : MemWf s)
    {st' : State} : (execQExts w d a imm s) = .next st' →
    MemWf st' := by
  unfold execQExts
  repeat' (first
      | with_reducible assumption | with_reducible refine next_memWf ?_
      | with_reducible refine curdStep_memWf _ _ _ ?_ | intro _)

theorem execQIns_memWf (w : BitVec 4) (d : BitVec 3) (a : BitVec 3) (b : BitVec 3) (imm : BitVec 12) (s : State) (h_s
    : MemWf s) {st' : State} : (execQIns w d a b imm s) = .next st' →
    MemWf st' := by
  unfold execQIns
  repeat' (first
      | with_reducible assumption | with_reducible refine next_memWf ?_
      | with_reducible refine curdStep_memWf _ _ _ ?_ | intro _)

theorem execQLoop_memWf (w : BitVec 4) (a : BitVec 3) (imm : BitVec 12) (s : State) (h_s : MemWf s) {st' : State} :
    (execQLoop w a imm s) = .next st' →
    MemWf st' := by
  unfold execQLoop
  repeat' (first
      | with_reducible assumption | with_reducible refine next_memWf ?_
      | (intro z; refine (fun hz : MemWf z => ?_) ?_; rotate_left; subst z; rotate_right; clear_value z)
      | (intro z; refine (fun hz : MemWf z.1 => ?_) ?_; rotate_left; subst z; rotate_right; clear_value z)
      | (intro z; clear_value z) | lift_lets -underBinder | with_reducible apply curdSettle_memWf
      | with_reducible apply curdAdvance_memWf
      | (with_reducible refine of_first ‹_› ?_; first | with_reducible assumption | with_reducible apply curdSettle_memWf)
      | split | intro _)

theorem execQEnd_memWf (x0 : BitVec 4) (s : State) (h_s : MemWf s) {st' : State} : (execQEnd x0 s) = .next st' →
    MemWf st' := by
  unfold execQEnd
  repeat' (first
      | with_reducible assumption
      | (intro z; refine (fun hz : MemWf z => ?_) ?_; rotate_left; subst z; rotate_right; clear_value z)
      | with_reducible refine next_memWf ?_ | (intro z; clear_value z) | lift_lets -underBinder
      | with_reducible apply performRows_memWf | with_reducible apply State.setTower_memWf
      | with_reducible apply leaveRecord_memWf | with_reducible apply completeNode_memWf
      | with_reducible apply writeByte_memWf | split)

/-! ### Walker -/

theorem settleCore_memWf (s : State) (c : CoreId) (ctx : BitVec 16) (gen : BitVec 8) (p : BitVec 16 → Nat → Bool)
    (h_s : MemWf s)
    : MemWf (settleCore s c ctx gen p) := by
  unfold settleCore
  repeat' (first
      | with_reducible assumption
      | (intro z; refine (fun hz : MemWf z => ?_) ?_; rotate_left; subst z; rotate_right; clear_value z)
      | (intro z; refine (fun hz : MemWf z.1 => ?_) ?_; rotate_left; subst z; rotate_right; clear_value z)
      | (intro z; clear_value z) | intro _ | lift_lets -underBinder | with_reducible apply leaveAll_memWf
      | with_reducible apply leaveGate_memWf | with_reducible apply flushQuantum_memWf
      | with_reducible apply rollback_memWf | with_reducible apply State.setCore_memWf
      | with_reducible apply foldl_memWf | with_reducible apply foldlSnd_memWf | with_reducible apply foldlFst_memWf
      | (with_reducible refine of_first ‹_› ?_; first | with_reducible assumption | with_reducible apply leaveAll_memWf)
      | split | simp -zeta only [MemWf.made, MemWf.form])

theorem settleSuspended_memWf (s : State) (t : TowerId) (ctx : BitVec 16) (gen : BitVec 8) (p : BitVec 16 → Nat →
    Bool) (h_s : MemWf s)
    : MemWf (settleSuspended s t ctx gen p) := by
  unfold settleSuspended
  repeat' (first
      | with_reducible assumption
      | (intro z; refine (fun hz : MemWf z => ?_) ?_; rotate_left; subst z; rotate_right; clear_value z)
      | (intro z; clear_value z) | intro _ | lift_lets -underBinder | with_reducible apply leaveWaiters_memWf
      | with_reducible apply State.setTower_memWf | with_reducible apply wakeRecord_memWf
      | with_reducible apply foldl_memWf | with_reducible apply foldlSnd_memWf | with_reducible apply foldlFst_memWf
      | split | simp -zeta only [MemWf.made, MemWf.form])

theorem settleCurd_memWf (s : State) (t : TowerId) (ctx : BitVec 16) (gen : BitVec 8) (p : BitVec 16 → Nat → Bool)
    (h_s : MemWf s)
    : MemWf (settleCurd s t ctx gen p) := by
  unfold settleCurd
  repeat' (first | with_reducible assumption | intro _ | with_reducible apply curdFault_memWf | split)

theorem settleCopy_memWf (s : State) (d : Dest4) (ctx : BitVec 16) (gen : BitVec 8) (p : BitVec 16 → Nat → Bool) (h_s
    : MemWf s)
    : MemWf (settleCopy s d ctx gen p) := by
  unfold settleCopy
  repeat' (first
      | with_reducible assumption
      | (intro z; refine (fun hz : MemWf z => ?_) ?_; rotate_left; subst z; rotate_right; clear_value z)
      | (intro z; clear_value z) | lift_lets -underBinder | with_reducible apply State.setChurnChan_memWf | split
      | simp -zeta only [MemWf.made, MemWf.form])

theorem invalidate_memWf (s : State) (ctx : BitVec 16) (gen : BitVec 8) (p : BitVec 16 → Nat → Bool) (h_s : MemWf s)
    : MemWf (invalidate s ctx gen p) := by
  unfold invalidate
  repeat' (first
      | with_reducible assumption
      | (intro z; refine (fun hz : MemWf z => ?_) ?_; rotate_left; subst z; rotate_right; clear_value z)
      | (intro z; clear_value z) | intro _ | lift_lets -underBinder | with_reducible apply settleSuspended_memWf
      | with_reducible apply flushCombined_memWf | with_reducible apply settleCore_memWf
      | with_reducible apply dropLines_memWf | with_reducible apply writeBackLines_memWf
      | with_reducible apply settleCurd_memWf | with_reducible apply State.setTower_memWf
      | with_reducible apply settleCopy_memWf | with_reducible apply foldl_memWf | with_reducible apply foldlSnd_memWf
      | with_reducible apply foldlFst_memWf | split | simp -zeta only [MemWf.made, MemWf.form])

theorem markMigrated_memWf (s : State) (t : TowerId) (f : Nat) (b : Bool) (h_s : MemWf s)
    : MemWf (markMigrated s t f b) := by
  unfold markMigrated
  repeat' (first | with_reducible assumption | simp -zeta only [MemWf.made, MemWf.form])

theorem poolTake_memWf {s : State} {t : TowerId} {f : Nat} {s1 : State} (e : poolTake s t = some (f, s1)) (h : MemWf s) :
    MemWf s1 := by
  unfold poolTake at e
  dsimp only at e
  split at e
  · contradiction
  · rw [← (Prod.mk.inj (Option.some.inj e)).2]
    exact writeWord_memWf _ _ h

theorem poolGive_memWf (s0 : State) (t : TowerId) (f : Nat) (h_s0 : MemWf s0)
    : MemWf (poolGive s0 t f) := by
  unfold poolGive
  repeat' (first
      | with_reducible assumption
      | (intro z; refine (fun hz : MemWf z => ?_) ?_; rotate_left; subst z; rotate_right; clear_value z)
      | (intro z; clear_value z) | lift_lets -underBinder | with_reducible apply markMigrated_memWf
      | with_reducible apply writeWord_memWf | split)

theorem copyBytes_memWf (s0 : State) (src : Nat) (dst : Nat) (h_s0 : MemWf s0)
    : MemWf (copyBytes s0 src dst).2 := by
  unfold copyBytes
  repeat' (first
      | with_reducible assumption
      | (intro z; refine (fun hz : MemWf z => ?_) ?_; rotate_left; subst z; rotate_right; clear_value z)
      | (intro z; clear_value z) | intro _ | lift_lets -underBinder | with_reducible apply flushRange_memWf
      | with_reducible apply writeBytes_memWf | split)

theorem copyChunk_memWf (s : State) (t : TowerId) (a : Word) (b : Word) (h_s : MemWf s)
    : MemWf (copyChunk s t a b).2 := by
  unfold copyChunk
  repeat' (first
      | with_reducible assumption | with_reducible apply copyBytes_memWf
      | (with_reducible refine of_second ‹_› ?_; first | with_reducible assumption | with_reducible apply copyBytes_memWf)
      | split)

theorem emptyLevel_memWf (s : State) (key : Nat) (h_s : MemWf s)
    : MemWf (emptyLevel s key) := by
  unfold emptyLevel
  repeat' (first | with_reducible assumption | with_reducible apply writeBytes_memWf | split)

theorem leafKey_memWf (t : TowerId) (a : Word) : ∀ (l : List Nat) (pa : Nat) (s : State), MemWf s →
    MemWf (leafKey s t a l pa).2
  | [], _, _, h => h
  | lo :: los, pa, s, h => by
    rw [leafKey]
    split
    · exact leafKey_memWf t a los _ s h
    · split
      · exact h
      · exact leafKey_memWf t a los _ _ (writeWord_memWf _ _ (emptyLevel_memWf _ _ (poolTake_memWf ‹_› h)))

theorem writeLeaves_memWf (a : Word) (leaf : BitVec 64) (flatb : Word) (x1 : List TowerId) (x2 : Moved) (x3 : State)
    (h_x3 : MemWf x3)
    : MemWf (writeLeaves a leaf flatb x1 x2 x3).2.2 := by
  revert h_x3
  fun_induction writeLeaves a leaf flatb x1 x2 x3 <;> intros
  all_goals
    repeat' (first
      | with_reducible assumption | (with_reducible apply_assumption) | with_reducible apply leafKey_memWf
      | with_reducible apply writeWord_memWf
      | (with_reducible refine of_second ‹_› ?_; first | with_reducible assumption | with_reducible apply_assumption | with_reducible apply leafKey_memWf)
      | (with_reducible refine of_third ‹_› ?_; first | with_reducible assumption | with_reducible apply_assumption)
      | split | simp -zeta only [MemWf.made, MemWf.form] | dsimp only)

theorem movePage_memWf (t : TowerId) (v : View) (a : Word) (h : BitVec 64) (f : Nat) (m : Moved) (c : Code × State)
    (h_c : MemWf c.2)
    : MemWf (movePage t v a h f m c).2.2 := by
  unfold movePage
  repeat' (first
      | with_reducible assumption | with_reducible apply writeLeaves_memWf
      | (with_reducible refine of_third ‹_› ?_; first | with_reducible assumption | with_reducible apply writeLeaves_memWf)
      | split)

theorem answerRange_memWf (s : State) (t : TowerId) (r : WalkReq) (status : Code) (h_s : MemWf s)
    : MemWf (answerRange s t r status) := by
  unfold answerRange
  repeat' (first
      | with_reducible assumption
      | (intro z; refine (fun hz : MemWf z => ?_) ?_; rotate_left; subst z; rotate_right; clear_value z)
      | (intro z; clear_value z) | lift_lets -underBinder | with_reducible apply State.setTower_memWf
      | with_reducible apply completeRange_memWf | split)

theorem setOwner_memWf (s : State) (v : View) (i : Nat) (own : Nat) (h_s : MemWf s)
    : MemWf (setOwner s v i own) := by
  unfold setOwner
  repeat' (first
      | with_reducible assumption
      | (intro z; refine (fun hz : MemWf z => ?_) ?_; rotate_left; subst z; rotate_right; clear_value z)
      | (intro z; clear_value z) | lift_lets -underBinder | with_reducible apply writeWord_memWf | split)

theorem endHandover_memWf (s : State) (t : TowerId) (h : Handover) (own : Nat) (status : Code) (h_s : MemWf s)
    : MemWf (endHandover s t h own status) := by
  unfold endHandover
  repeat' (first
      | with_reducible assumption
      | (intro z; refine (fun hz : MemWf z => ?_) ?_; rotate_left; subst z; rotate_right; clear_value z)
      | (intro z; clear_value z) | lift_lets -underBinder | with_reducible apply setOwner_memWf
      | with_reducible apply answerRange_memWf | with_reducible apply State.setTower_memWf | split)

theorem reportInvalidation_memWf (s : State) (t : TowerId) (h_s : MemWf s)
    : MemWf (reportInvalidation s t) := by
  unfold reportInvalidation
  repeat' (first
      | with_reducible assumption
      | (intro z; refine (fun hz : MemWf z => ?_) ?_; rotate_left; subst z; rotate_right; clear_value z)
      | (intro z; clear_value z) | intro _ | lift_lets -underBinder | with_reducible apply State.mapHub_memWf | split
      | simp -zeta only [MemWf.made, MemWf.form])

theorem endRequest_memWf (s : State) (t : TowerId) (h_s : MemWf s)
    : MemWf (endRequest s t) := by
  unfold endRequest
  repeat' (first | with_reducible assumption | with_reducible apply State.setWalker_memWf | split)

theorem answerTile_memWf (s : State) (t : TowerId) (r : WalkReq) (code : Code) (e : BitVec 64) (h_s : MemWf s)
    : MemWf (answerTile s t r code e) := by
  unfold answerTile
  repeat' (first
      | with_reducible assumption
      | (intro z; refine (fun hz : MemWf z => ?_) ?_; rotate_left; subst z; rotate_right; clear_value z)
      | (intro z; clear_value z) | lift_lets -underBinder | with_reducible apply installTile_memWf
      | with_reducible apply State.setTower_memWf | split | simp -zeta only [MemWf.made, MemWf.form])

theorem failRequest_memWf (s : State) (t : TowerId) (code : Code) (h_s : MemWf s)
    : MemWf (failRequest s t code) := by
  unfold failRequest
  repeat' (first
      | with_reducible assumption
      | (intro z; refine (fun hz : MemWf z => ?_) ?_; rotate_left; subst z; rotate_right; clear_value z)
      | (intro z; clear_value z) | lift_lets -underBinder | with_reducible apply endRequest_memWf
      | with_reducible apply answerRange_memWf | with_reducible apply reportInvalidation_memWf
      | with_reducible apply answerTile_memWf | split)

theorem walkerResult_memWf (s : State) (t : TowerId) (d : BitVec 5) (v : Word) (h_s : MemWf s)
    : MemWf (walkerResult s t d v) := by
  unfold walkerResult
  repeat' (first
      | with_reducible assumption
      | (intro z; refine (fun hz : MemWf z => ?_) ?_; rotate_left; subst z; rotate_right; clear_value z)
      | (intro z; clear_value z) | lift_lets -underBinder | with_reducible apply State.setWalker_memWf | split)

theorem walkerTrap_memWf (s : State) (t : TowerId) (cause : Nat) (val : Word) (h_s : MemWf s)
    : MemWf (walkerTrap s t cause val) := by
  unfold walkerTrap
  repeat' (first
      | with_reducible assumption
      | (intro z; refine (fun hz : MemWf z => ?_) ?_; rotate_left; subst z; rotate_right; clear_value z)
      | (intro z; clear_value z) | lift_lets -underBinder | with_reducible apply State.setWalker_memWf | split
      | simp -zeta only [MemWf.made, MemWf.form])

theorem execWkLdp_memWf (u0 : BitVec 5) (sr : BitVec 5) (d : BitVec 5) (s : State) (h_s : MemWf s) {st' : State} :
    (execWkLdp u0 sr d s) = .next st' →
    MemWf st' := by
  unfold execWkLdp
  repeat' (first
      | with_reducible assumption | with_reducible refine next_memWf ?_ | with_reducible exact fault_memWf
      | (intro z; refine (fun hz : MemWf z => ?_) ?_; rotate_left; subst z; rotate_right; clear_value z)
      | (intro z; clear_value z) | lift_lets -underBinder | with_reducible apply walkerTrap_memWf
      | with_reducible apply touchHome_memWf | with_reducible apply failRequest_memWf
      | with_reducible apply walkerResult_memWf | split)

theorem execWkLdh_memWf (x0 : BitVec 5) (sr : BitVec 5) (d : BitVec 5) (s : State) (h_s : MemWf s) {st' : State} :
    (execWkLdh x0 sr d s) = .next st' →
    MemWf st' := by
  unfold execWkLdh
  repeat' (first
      | with_reducible assumption | with_reducible refine next_memWf ?_ | (intro z; clear_value z)
      | lift_lets -underBinder | with_reducible apply walkerTrap_memWf | with_reducible apply failRequest_memWf
      | with_reducible apply hubRecord_memWf
      | with_reducible apply walkerResult_memWf | split)

theorem execWkDone_memWf (tr : BitVec 5) (sr : BitVec 5) (u2 : BitVec 5) (s : State) (h_s : MemWf s) {st' : State} :
    (execWkDone tr sr u2 s) = .next st' →
    MemWf st' := by
  unfold execWkDone
  repeat' (first
      | with_reducible assumption | with_reducible refine next_memWf ?_
      | (intro z; refine (fun hz : MemWf z => ?_) ?_; rotate_left; subst z; rotate_right; clear_value z)
      | (intro z; clear_value z) | lift_lets -underBinder | with_reducible apply State.setWalker_memWf
      | with_reducible apply failRequest_memWf | with_reducible apply answerRange_memWf
      | with_reducible apply endRequest_memWf | with_reducible apply reportInvalidation_memWf
      | with_reducible apply answerTile_memWf | split | simp -zeta only [MemWf.made, MemWf.form])

theorem execWkFail_memWf (tr : BitVec 5) (sr : BitVec 5) (x2 : BitVec 5) (s : State) (h_s : MemWf s) {st' : State} :
    (execWkFail tr sr x2 s) = .next st' →
    MemWf st' := by
  unfold execWkFail
  repeat' (first
      | with_reducible assumption
      | (intro z; refine (fun hz : MemWf z => ?_) ?_; rotate_left; subst z; rotate_right; clear_value z)
      | with_reducible refine next_memWf ?_ | (intro z; clear_value z) | lift_lets -underBinder
      | with_reducible apply State.setWalker_memWf | with_reducible apply failRequest_memWf | split)

theorem execWkInv_memWf (tr : BitVec 5) (sr : BitVec 5) (d : BitVec 5) (s : State) (h_s : MemWf s) {st' : State} :
    (execWkInv tr sr d s) = .next st' →
    MemWf st' := by
  unfold execWkInv
  repeat' (first
      | with_reducible assumption | with_reducible refine next_memWf ?_
      | (intro z; refine (fun hz : MemWf z => ?_) ?_; rotate_left; subst z; rotate_right; clear_value z)
      | (intro z; clear_value z) | lift_lets -underBinder | with_reducible apply walkerResult_memWf
      | with_reducible apply invalidate_memWf | split | intro _)

theorem execWkChn_memWf (tr : BitVec 5) (sr : BitVec 5) (d : BitVec 5) (s : State) (h_s : MemWf s) {st' : State} :
    (execWkChn tr sr d s) = .next st' →
    MemWf st' := by
  unfold execWkChn
  repeat' (first
      | with_reducible assumption | with_reducible refine next_memWf ?_
      | (intro z; refine (fun hz : MemWf z => ?_) ?_; rotate_left; subst z; rotate_right; clear_value z)
      | (intro z; refine (fun hz : MemWf z.2 => ?_) ?_; rotate_left; subst z; rotate_right; clear_value z)
      | (intro z; clear_value z) | lift_lets -underBinder | with_reducible apply copyChunk_memWf
      | with_reducible apply walkerResult_memWf
      | (with_reducible refine of_second ‹_› ?_; first | with_reducible assumption | with_reducible apply copyChunk_memWf)
      | split)

theorem rvStep_memWf (s : State) (t : TowerId) (h_s : MemWf s) {st' : State} : (rvStep s t) = .next st' →
    MemWf st' := by
  unfold rvStep
  repeat' (first
      | with_reducible assumption | with_reducible refine next_memWf ?_ | with_reducible exact fault_memWf
      | (intro z; refine (fun hz : MemWf z => ?_) ?_; rotate_left; subst z; rotate_right; clear_value z)
      | (intro z; clear_value z) | lift_lets -underBinder | with_reducible apply failRequest_memWf
      | with_reducible apply walkerTrap_memWf | with_reducible apply State.setWalker_memWf
      | with_reducible apply touchHome_memWf | with_reducible apply writeNat_memWf | split
      | simp -zeta only [MemWf.made, MemWf.form] | intro _)

theorem walkerStep_memWf (s : State) (t : TowerId) (h_s : MemWf s) {st' : State} : (walkerStep s t) = .next st' →
    MemWf st' := by
  unfold walkerStep
  repeat' (first
      | with_reducible assumption | with_reducible refine next_memWf ?_
      | (intro z; refine (fun hz : MemWf z => ?_) ?_; rotate_left; subst z; rotate_right; clear_value z)
      | (intro z; clear_value z) | lift_lets -underBinder | with_reducible refine execWkLdp_memWf _ _ _ _ ?_
      | with_reducible refine execWkLdh_memWf _ _ _ _ ?_ | with_reducible refine execWkDone_memWf _ _ _ _ ?_
      | with_reducible refine execWkFail_memWf _ _ _ _ ?_ | with_reducible refine execWkInv_memWf _ _ _ _ ?_
      | with_reducible refine execWkChn_memWf _ _ _ _ ?_ | with_reducible refine rvStep_memWf _ _ ?_ | split
      | simp -zeta only [MemWf.made, MemWf.form])

theorem runRoutine_memWf (t : TowerId) : ∀ (n : Nat) (s : State), MemWf s → MemWf (runRoutine t n s)
  | 0, s, h => failRequest_memWf s t _ h
  | n + 1, s, h => by
    rw [runRoutine]
    split
    · split
      · exact runRoutine_memWf t n _ (walkerStep_memWf s t h ‹_›)
      · exact failRequest_memWf s t _ h
    · exact h

theorem startRoutine_memWf (s : State) (t : TowerId) (r : WalkReq) (entry : Nat) (h_s : MemWf s)
    : MemWf (startRoutine s t r entry) := by
  unfold startRoutine
  repeat' (first
      | with_reducible assumption
      | (intro z; refine (fun hz : MemWf z => ?_) ?_; rotate_left; subst z; rotate_right; clear_value z)
      | (intro z; clear_value z) | lift_lets -underBinder | with_reducible apply State.setWalker_memWf | split
      | simp -zeta only [MemWf.made, MemWf.form])

theorem hostPage_memWf (s : State) (t : TowerId) (ctx : BitVec 16) (gen : BitVec 8) (rout : BitVec 8) (root va : Word)
    (h_s : MemWf s)
    : MemWf (hostPage s t ctx gen rout root va).2 := by
  unfold hostPage
  repeat' (first
      | with_reducible assumption
      | (intro z; refine (fun hz : MemWf z => ?_) ?_; rotate_left; subst z; rotate_right; clear_value z)
      | (intro z; clear_value z) | intro _ | lift_lets -underBinder | with_reducible apply runRoutine_memWf
      | with_reducible apply startRoutine_memWf | with_reducible apply dropWalked_memWf
      | with_reducible apply State.setWalker_memWf | split | simp -zeta only [MemWf.made, MemWf.form])

theorem acquirePage_memWf (t : TowerId) (v : View) (e : BitVec 128) (a : Word) (m : Moved) (s : State) (h_s : MemWf s)
    : MemWf (acquirePage t v e a m s).2.2 := by
  unfold acquirePage
  repeat' (first
      | with_reducible assumption
      | (intro z; refine (fun hz : MemWf z => ?_) ?_; rotate_left; subst z; rotate_right; clear_value z)
      | (intro z; refine (fun hz : MemWf z.2 => ?_) ?_; rotate_left; subst z; rotate_right; clear_value z)
      | (intro z; refine (fun hz : MemWf z.2.2 => ?_) ?_; rotate_left; subst z; rotate_right; clear_value z)
      | (intro z; clear_value z) | lift_lets -underBinder | with_reducible apply hostPage_memWf
      | with_reducible apply movePage_memWf | with_reducible apply copyChunk_memWf
      | with_reducible apply writeLeaves_memWf | with_reducible refine poolTake_memWf ‹_› ?_
      | (with_reducible refine of_second ‹_› ?_; first | with_reducible assumption | with_reducible apply hostPage_memWf | with_reducible apply copyChunk_memWf)
      | (with_reducible refine of_third ‹_› ?_; first | with_reducible assumption | with_reducible apply movePage_memWf | with_reducible apply writeLeaves_memWf)
      | split | simp -zeta only [MemWf.made, MemWf.form])

theorem acquirePages_memWf (t : TowerId) (v : View) (e : BitVec 128) (x1 : Nat) (x2 : Nat) (x3 : Moved) (x4 : State)
    (h_x4 : MemWf x4)
    : MemWf (acquirePages t v e x1 x2 x3 x4).2.2 := by
  revert h_x4
  fun_induction acquirePages t v e x1 x2 x3 x4 <;> intros
  all_goals
    repeat' (first
      | with_reducible assumption | (with_reducible apply_assumption) | with_reducible apply acquirePage_memWf
      | (with_reducible refine of_third ‹_› ?_; first | with_reducible assumption | with_reducible apply_assumption | with_reducible apply acquirePage_memWf)
      | split | dsimp only)

theorem releasePage_memWf (t : TowerId) (v : View) (e : BitVec 128) (p : Nat) (s : State) (h_s : MemWf s)
    : MemWf (releasePage t v e p s) := by
  unfold releasePage
  repeat' (first
      | with_reducible assumption
      | (intro z; refine (fun hz : MemWf z => ?_) ?_; rotate_left; subst z; rotate_right; clear_value z)
      | (intro z; refine (fun hz : MemWf z.2 => ?_) ?_; rotate_left; subst z; rotate_right; clear_value z)
      | (intro z; refine (fun hz : MemWf z.2.2 => ?_) ?_; rotate_left; subst z; rotate_right; clear_value z)
      | (intro z; clear_value z) | lift_lets -underBinder | with_reducible apply hostPage_memWf
      | with_reducible apply copyChunk_memWf | with_reducible apply poolGive_memWf
      | with_reducible apply writeLeaves_memWf
      | (with_reducible refine of_second ‹_› ?_; first | with_reducible assumption | with_reducible apply hostPage_memWf | with_reducible apply copyChunk_memWf)
      | (with_reducible refine of_third ‹_› ?_; first | with_reducible assumption | with_reducible apply writeLeaves_memWf)
      | split)

theorem releasePages_memWf (t : TowerId) (v : View) (e : BitVec 128) : ∀ (n p : Nat) (s : State), MemWf s →
    MemWf (releasePages t v e n p s)
  | 0, _, _, h => h
  | n + 1, p, s, h => releasePages_memWf t v e n (p + 1) _ (releasePage_memWf t v e p s h)

theorem startHandover_memWf (s : State) (t : TowerId) (r : WalkReq) (h_s : MemWf s)
    : MemWf (startHandover s t r) := by
  unfold startHandover
  repeat' (first
      | with_reducible assumption
      | (intro z; refine (fun hz : MemWf z => ?_) ?_; rotate_left; subst z; rotate_right; clear_value z)
      | (intro z; clear_value z) | intro _ | lift_lets -underBinder | with_reducible apply answerRange_memWf
      | with_reducible apply State.setTower_memWf | with_reducible apply setOwner_memWf
      | with_reducible apply writeBackLines_memWf | with_reducible apply invalidate_memWf
      | with_reducible apply foldl_memWf | with_reducible apply foldlSnd_memWf | with_reducible apply foldlFst_memWf
      | split)

theorem serveTile_memWf (s : State) (t : TowerId) (r : WalkReq) (h_s : MemWf s)
    : MemWf (serveTile s t r) := by
  unfold serveTile
  repeat' (first
      | with_reducible assumption
      | (intro z; refine (fun hz : MemWf z => ?_) ?_; rotate_left; subst z; rotate_right; clear_value z)
      | (intro z; clear_value z) | lift_lets -underBinder | with_reducible apply answerTile_memWf
      | with_reducible apply startRoutine_memWf | split | simp -zeta only [MemWf.made, MemWf.form])

theorem serveRequest_memWf (s : State) (t : TowerId) (r : WalkReq) (h_s : MemWf s)
    : MemWf (serveRequest s t r) := by
  unfold serveRequest
  repeat' (first
      | with_reducible assumption | intro _ | with_reducible apply startHandover_memWf
      | with_reducible apply reportInvalidation_memWf | with_reducible apply invalidate_memWf
      | with_reducible apply serveTile_memWf | split)

theorem execWalkerRequest_memWf (s : State) (h_s : MemWf s) {st' : State} : (execWalkerRequest s) = .next st' →
    MemWf st' := by
  unfold execWalkerRequest
  repeat' (first
      | with_reducible assumption | with_reducible refine next_memWf ?_
      | (intro z; refine (fun hz : MemWf z => ?_) ?_; rotate_left; subst z; rotate_right; clear_value z)
      | (intro z; clear_value z) | lift_lets -underBinder | with_reducible refine rvStep_memWf _ _ ?_
      | with_reducible apply State.setWalker_memWf | with_reducible apply startRoutine_memWf
      | with_reducible apply serveRequest_memWf | split | simp -zeta only [MemWf.made, MemWf.form])

theorem execRoutineTimeout_memWf (s : State) (h_s : MemWf s) {st' : State} : (execRoutineTimeout s) = .next st' →
    MemWf st' := by
  unfold execRoutineTimeout
  repeat' (first
      | with_reducible assumption | with_reducible refine next_memWf ?_
      | (intro z; refine (fun hz : MemWf z => ?_) ?_; rotate_left; subst z; rotate_right; clear_value z)
      | (intro z; clear_value z) | lift_lets -underBinder | with_reducible apply failRequest_memWf | split)

theorem execHostHandoverAnswer_memWf (s : State) (h_s : MemWf s) {st' : State} : (execHostHandoverAnswer s) = .next
    st' →
    MemWf st' := by
  unfold execHostHandoverAnswer
  repeat' (first
      | with_reducible assumption | with_reducible refine next_memWf ?_
      | (intro z; refine (fun hz : MemWf z => ?_) ?_; rotate_left; subst z; rotate_right; clear_value z)
      | (intro z; refine (fun hz : MemWf z.2.2 => ?_) ?_; rotate_left; subst z; rotate_right; clear_value z)
      | (intro z; clear_value z) | lift_lets -underBinder | with_reducible apply endHandover_memWf
      | with_reducible apply acquirePages_memWf | with_reducible apply markMigrated_memWf
      | with_reducible apply writeWord_memWf | with_reducible apply poolGive_memWf
      | with_reducible apply invalidate_memWf | with_reducible apply releasePages_memWf
      | with_reducible apply foldl_memWf | with_reducible apply foldlSnd_memWf | with_reducible apply foldlFst_memWf
      | (with_reducible refine of_third ‹_› ?_; first | with_reducible assumption | with_reducible apply acquirePages_memWf)
      | split | intro _)

theorem execHandoverTimeout_memWf (s : State) (h_s : MemWf s) {st' : State} : (execHandoverTimeout s) = .next st' →
    MemWf st' := by
  unfold execHandoverTimeout
  repeat' (first
      | with_reducible assumption | with_reducible refine next_memWf ?_
      | (intro z; refine (fun hz : MemWf z => ?_) ?_; rotate_left; subst z; rotate_right; clear_value z)
      | (intro z; clear_value z) | lift_lets -underBinder | with_reducible apply endHandover_memWf | split)

end Sys2Proof.Machine
end

