-- ==== Sys2Proof/Laws/FormDevice.lean ====
section
/-! SUPPORT. What the matrix and engine instructions, the device, its links and its management keep of the form of memory, and with them every row. -/

namespace Sys2Proof.Machine

/-! ### Tiers -/

theorem towerRecord_memWf (s : State) (t : TowerId) (code : Code) (info : Word) (h_s : MemWf s)
    : MemWf (towerRecord s t code info) := by
  unfold towerRecord
  repeat' (first | with_reducible assumption | with_reducible apply faultRecord_memWf | split)

theorem passFault_memWf (s : State) (c : CoreId) (p : Pass) (code : Code) (h_s : MemWf s)
    : MemWf (passFault s c p code) := by
  unfold passFault
  repeat' (first
      | with_reducible assumption
      | (intro z; refine (fun hz : MemWf z => ?_) ?_; rotate_left; subst z; rotate_right; clear_value z)
      | (intro z; clear_value z) | intro _ | lift_lets -underBinder | with_reducible apply State.setCore_memWf
      | with_reducible apply takeEngine_memWf | split | simp -zeta only [MemWf.made, MemWf.form])

theorem detTierFault_memWf (s : State) (c : CoreId) (h_s : MemWf s)
    : MemWf (detTierFault s c) := by
  unfold detTierFault
  repeat' (first
      | with_reducible assumption
      | (intro z; refine (fun hz : MemWf z => ?_) ?_; rotate_left; subst z; rotate_right; clear_value z)
      | (intro z; clear_value z) | lift_lets -underBinder | with_reducible apply undoBundle_memWf
      | with_reducible apply endWithFault_memWf | split | simp -zeta only [MemWf.made, MemWf.form])

theorem stopDeterministic_memWf (s : State) (t : TowerId) (h_s : MemWf s)
    : MemWf (stopDeterministic s t) := by
  unfold stopDeterministic
  repeat' (first
      | with_reducible assumption
      | (intro z; refine (fun hz : MemWf z => ?_) ?_; rotate_left; subst z; rotate_right; clear_value z)
      | (intro z; clear_value z) | intro _ | lift_lets -underBinder | with_reducible apply partitionStop_memWf
      | with_reducible apply detTierFault_memWf | with_reducible apply foldl_memWf
      | with_reducible apply foldlSnd_memWf | with_reducible apply foldlFst_memWf | split)

theorem losePositions_memWf (s : State) (t : TowerId) (p : BitVec 3) (m : BitVec 4) (h_s : MemWf s)
    : MemWf (losePositions s t p m) := by
  unfold losePositions
  repeat' (first
      | with_reducible assumption
      | (intro z; refine (fun hz : MemWf z => ?_) ?_; rotate_left; subst z; rotate_right; clear_value z)
      | (intro z; clear_value z) | intro _ | lift_lets -underBinder | with_reducible apply State.mapTiers_memWf
      | with_reducible apply towerRecord_memWf | split | simp -zeta only [MemWf.made, MemWf.form])

theorem tierFail_memWf (s : State) (t : TowerId) (p : BitVec 3) (code : Code) (src : Nat) (h_s : MemWf s)
    : MemWf (tierFail s t p code src) := by
  unfold tierFail
  repeat' (first
      | with_reducible assumption
      | (intro z; refine (fun hz : MemWf z => ?_) ?_; rotate_left; subst z; rotate_right; clear_value z)
      | (intro z; clear_value z) | intro _ | lift_lets -underBinder | with_reducible apply faultRecord_memWf
      | with_reducible apply State.mapTiers_memWf | with_reducible apply State.setReady_memWf
      | with_reducible apply losePositions_memWf | with_reducible apply towerRecord_memWf
      | with_reducible apply stopDeterministic_memWf | with_reducible apply towerStat_memWf | split
      | simp -zeta only [MemWf.made, MemWf.form])

theorem lowerCap_memWf (s : State) (c : CoreId) (bundle : Word) (p : Nat) (h_s : MemWf s)
    : MemWf (lowerCap s c bundle p) := by
  unfold lowerCap
  repeat' (first
      | with_reducible assumption
      | (intro z; refine (fun hz : MemWf z => ?_) ?_; rotate_left; subst z; rotate_right; clear_value z)
      | (intro z; clear_value z) | intro _ | lift_lets -underBinder | with_reducible apply State.mapTiers_memWf
      | with_reducible apply statRecord_memWf | split | simp -zeta only [MemWf.made, MemWf.form])

theorem restartPass_memWf (s : State) (c : CoreId) (p : Pass) (cl : List ClipNote) (cause : Nat) (q : Nat) (h_s :
    MemWf s)
    : MemWf (restartPass s c p cl cause q) := by
  unfold restartPass
  repeat' (first
      | with_reducible assumption
      | (intro z; refine (fun hz : MemWf z => ?_) ?_; rotate_left; subst z; rotate_right; clear_value z)
      | (intro z; clear_value z) | intro _ | lift_lets -underBinder | with_reducible apply passFault_memWf
      | with_reducible apply statRecord_memWf | with_reducible apply State.setCore_memWf | split
      | simp -zeta only [MemWf.made, MemWf.form])

theorem restartPasses_memWf (s : State) (t : TowerId) (found : Option (CoreId × Nat)) (h_s : MemWf s)
    : MemWf (restartPasses s t found) := by
  unfold restartPasses
  repeat' (first
      | with_reducible assumption
      | (intro z; refine (fun hz : MemWf z => ?_) ?_; rotate_left; subst z; rotate_right; clear_value z)
      | (intro z; clear_value z) | intro _ | lift_lets -underBinder | with_reducible apply restartPass_memWf
      | with_reducible apply foldl_memWf | with_reducible apply foldlSnd_memWf | with_reducible apply foldlFst_memWf
      | split)

/-! ### Matrix -/

theorem State.mSelectorFault_memWf (s : State) (h_s : MemWf s)
    : MemWf (State.mSelectorFault s) := by
  unfold State.mSelectorFault
  repeat' (first | with_reducible assumption | with_reducible apply State.slotFault_memWf | split)

theorem State.earlyPromotion_memWf (s : State) (h_s : MemWf s)
    : MemWf (State.earlyPromotion s) := by
  unfold State.earlyPromotion
  repeat' (first | with_reducible assumption | with_reducible apply promoteEarly_memWf | split)

theorem State.afterPasses_memWf (s : State) (f : State → State) (h_s : MemWf s) (h_f : ∀ a0, MemWf a0 → MemWf (f a0))
    : MemWf (State.afterPasses s f) := by
  unfold State.afterPasses
  repeat' (first
      | with_reducible assumption | with_reducible apply State.reissue_memWf | with_reducible apply h_f | split)

theorem execMWin_memWf (o : OpT) (s : State) (h_s : MemWf s) {st' : State} : (execMWin o s) = .next st' →
    MemWf st' := by
  unfold execMWin
  repeat' (first
      | with_reducible assumption | with_reducible refine next_memWf ?_
      | (intro z; refine (fun hz : MemWf z => ?_) ?_; rotate_left; subst z; rotate_right; clear_value z)
      | (intro z; clear_value z) | lift_lets -underBinder | with_reducible apply State.mSelectorFault_memWf
      | with_reducible apply State.afterPasses_memWf | with_reducible apply State.earlyPromotion_memWf
      | with_reducible apply State.mapRegs_memWf | split | simp -zeta only [MemWf.made, MemWf.form] | intro _)

theorem execMWsc_memWf (o : OpT) (s : State) (h_s : MemWf s) {st' : State} : (execMWsc o s) = .next st' →
    MemWf st' := by
  unfold execMWsc
  repeat' (first
      | with_reducible assumption | with_reducible refine next_memWf ?_
      | (intro z; refine (fun hz : MemWf z => ?_) ?_; rotate_left; subst z; rotate_right; clear_value z)
      | (intro z; clear_value z) | lift_lets -underBinder | with_reducible apply State.mSelectorFault_memWf
      | with_reducible apply State.afterPasses_memWf | with_reducible apply State.earlyPromotion_memWf
      | with_reducible apply State.mapRegs_memWf | split | simp -zeta only [MemWf.made, MemWf.form] | intro _)

theorem runTile_memWf (s : State) (d : BitVec 512) (h : BitVec 5) (tile : Nat) (fmt : Option Nat) (ok : BitVec 64 →
    Bool) (h_s : MemWf s)
    : RunRead.Wf (runTile s d h tile fmt ok) := by
  unfold runTile
  repeat' (first
      | with_reducible assumption
      | (intro z; refine (fun hz : MemWf z => ?_) ?_; rotate_left; subst z; rotate_right; clear_value z)
      | (intro z; refine (fun hz : MemWf z.2 => ?_) ?_; rotate_left; subst z; rotate_right; clear_value z)
      | (intro z; clear_value z) | lift_lets -underBinder | with_reducible apply reachTile_memWf
      | with_reducible apply RunRead.wf_ok | with_reducible apply RunRead.wf_fault
      | with_reducible apply RunRead.wf_transit | with_reducible apply RunRead.wf_miss
      | (with_reducible refine of_second ‹_› ?_; first | with_reducible assumption | with_reducible apply reachTile_memWf)
      | split)

theorem runElement_memWf (s : State) (d : BitVec 512) (h : BitVec 5) (width : Nat) (c : Nat → Nat) (h_s : MemWf s)
    : RunRead.Wf (runElement s d h width c) := by
  unfold runElement
  repeat' (first
      | with_reducible assumption
      | (intro z; refine (fun hz : MemWf z => ?_) ?_; rotate_left; subst z; rotate_right; clear_value z)
      | (intro z; refine (fun hz : MemWf z.2.2 => ?_) ?_; rotate_left; subst z; rotate_right; clear_value z)
      | (intro z; refine (fun hz : z.Wf => ?_) ?_; rotate_left; subst z; rotate_right; clear_value z) | exact hz
      | (intro z; clear_value z) | intro _ | lift_lets -underBinder | with_reducible apply runTile_memWf
      | with_reducible apply readElement_memWf | with_reducible refine RunRead.of_ok ‹_› ?_
      | with_reducible refine RunRead.of_fault ‹_› ?_ | with_reducible refine RunRead.of_transit ‹_› ?_
      | with_reducible refine RunRead.of_miss ‹_› ?_ | with_reducible apply RunRead.wf_ok
      | with_reducible apply RunRead.wf_fault | with_reducible apply RunRead.wf_transit
      | with_reducible apply RunRead.wf_miss
      | (with_reducible refine of_third ‹_› ?_; first | with_reducible assumption | with_reducible apply readElement_memWf)
      | split)

theorem runElements_memWf (f : State → Nat → RunRead Nat) (h_f : ∀ a0 a1, MemWf a0 → RunRead.Wf (f a0 a1)) :
    ∀ (is : List Nat) (s : State), MemWf s → RunRead.Wf (runElements f is s)
  | [], _, h => h
  | i :: is, s, h => by
    have hf := h_f s i h
    rw [runElements]
    split
    · have hr := runElements_memWf f h_f is _ (RunRead.of_ok ‹_› hf)
      split
      · exact RunRead.of_ok ‹_› hr
      · exact RunRead.of_fault ‹_› hr
      · exact RunRead.of_transit ‹_› hr
      · exact RunRead.of_miss ‹_› hr
    · exact RunRead.of_fault ‹_› hf
    · exact RunRead.of_transit ‹_› hf
    · exact RunRead.of_miss ‹_› hf

theorem rowPlanes_memWf (s : State) (d : BitVec 704) (h : BitVec 5) (pa : Nat) (m : Nat) (h_s : MemWf s)
    : RunRead.Wf (rowPlanes s d h pa m) := by
  unfold rowPlanes
  repeat' (first
      | with_reducible assumption
      | (intro z; refine (fun hz : MemWf z => ?_) ?_; rotate_left; subst z; rotate_right; clear_value z)
      | (intro z; refine (fun hz : MemWf z.2.2 => ?_) ?_; rotate_left; subst z; rotate_right; clear_value z)
      | (intro z; refine (fun hz : z.Wf => ?_) ?_; rotate_left; subst z; rotate_right; clear_value z) | exact hz
      | (intro z; clear_value z) | intro _ | lift_lets -underBinder | with_reducible apply runElements_memWf
      | with_reducible apply runTile_memWf | with_reducible apply readElement_memWf
      | with_reducible refine RunRead.of_ok ‹_› ?_ | with_reducible refine RunRead.of_fault ‹_› ?_
      | with_reducible refine RunRead.of_transit ‹_› ?_ | with_reducible refine RunRead.of_miss ‹_› ?_
      | with_reducible apply RunRead.wf_ok | with_reducible apply RunRead.wf_fault
      | with_reducible apply RunRead.wf_transit | with_reducible apply RunRead.wf_miss
      | (with_reducible refine of_third ‹_› ?_; first | with_reducible assumption | with_reducible apply readElement_memWf)
      | split)

theorem runPlanes_memWf (d : BitVec 704) (h : BitVec 5) (pa : Nat) (x1 : List Nat) (x2 : State) (h_x2 : MemWf x2)
    : RunRead.Wf (runPlanes d h pa x1 x2) := by
  revert h_x2
  fun_induction runPlanes d h pa x1 x2 <;> intros
  all_goals
    repeat' (first
      | with_reducible assumption | (with_reducible apply_assumption) | with_reducible apply rowPlanes_memWf
      | with_reducible refine RunRead.of_ok ‹_› ?_ | with_reducible refine RunRead.of_fault ‹_› ?_
      | with_reducible refine RunRead.of_transit ‹_› ?_ | with_reducible refine RunRead.of_miss ‹_› ?_
      | with_reducible apply RunRead.wf_ok | with_reducible apply RunRead.wf_fault
      | with_reducible apply RunRead.wf_transit | with_reducible apply RunRead.wf_miss | split | dsimp only)

theorem issuePass_memWf (s : State) (o : OpMR) (u : RunSetup) (g : Group) (early : Bool) (bad : Bool) (planes : List
    (BitVec 2048)) (h_s : MemWf s)
    : MemWf (issuePass s o u g early bad planes) := by
  unfold issuePass
  repeat' (first
      | with_reducible assumption
      | (intro z; refine (fun hz : MemWf z => ?_) ?_; rotate_left; subst z; rotate_right; clear_value z)
      | (intro z; clear_value z) | lift_lets -underBinder | with_reducible apply State.setMe_memWf | split
      | simp -zeta only [MemWf.made, MemWf.form])

theorem decideGroup.openGroup_memWf (o : OpMR) (u : RunSetup) (bad : Bool) (planes : List (BitVec 2048)) (s : State)
    (early : Bool) (h_s : MemWf s)
    : MemWf (decideGroup.openGroup o u bad planes s early) := by
  unfold decideGroup.openGroup
  repeat' (first
      | with_reducible assumption | exact hz
      | (intro z; refine (fun hz : z.Wf => ?_) ?_; rotate_left; subst z; rotate_right; clear_value z)
      | (intro z; clear_value z) | intro _ | lift_lets -underBinder | with_reducible apply runElements_memWf
      | with_reducible apply runElement_memWf | with_reducible apply State.refuse_memWf
      | with_reducible apply State.inTransit_memWf | with_reducible apply State.reissue_memWf
      | with_reducible apply issuePass_memWf | with_reducible apply promoteEarly_memWf
      | with_reducible apply RunRead.wf_ok | with_reducible apply RunRead.wf_fault | split)

theorem decideGroup_memWf (s : State) (o : OpMR) (u : RunSetup) (bad : Bool) (planes : List (BitVec 2048)) (h_s :
    MemWf s)
    : MemWf (decideGroup s o u bad planes) := by
  unfold decideGroup
  repeat' (first
      | with_reducible assumption
      | (intro z; refine (fun hz : MemWf z => ?_) ?_; rotate_left; subst z; rotate_right; clear_value z)
      | (intro z; refine (fun hz : z.Wf => ?_) ?_; rotate_left; subst z; rotate_right; clear_value z) | exact hz
      | (intro z; clear_value z) | intro _ | lift_lets -underBinder | with_reducible apply issuePass_memWf
      | with_reducible apply runElements_memWf | with_reducible apply runElement_memWf
      | with_reducible apply promoteEarly_memWf | with_reducible apply State.refuse_memWf
      | with_reducible apply State.inTransit_memWf | with_reducible apply State.reissue_memWf
      | with_reducible apply decideGroup.openGroup_memWf | with_reducible refine RunRead.of_ok ‹_› ?_
      | with_reducible refine RunRead.of_fault ‹_› ?_ | with_reducible refine RunRead.of_transit ‹_› ?_
      | with_reducible refine RunRead.of_miss ‹_› ?_ | with_reducible apply RunRead.wf_ok
      | with_reducible apply RunRead.wf_fault | with_reducible apply RunRead.wf_transit
      | with_reducible apply RunRead.wf_miss | split)

theorem run_memWf (wfmt : Nat) (o : OpMR) (s : State) (h_s : MemWf s)
    : MemWf (run wfmt o s) := by
  unfold run
  repeat' (first
      | with_reducible assumption
      | (intro z; refine (fun hz : MemWf z => ?_) ?_; rotate_left; subst z; rotate_right; clear_value z)
      | (intro z; refine (fun hz : z.Wf => ?_) ?_; rotate_left; subst z; rotate_right; clear_value z) | exact hz
      | (intro z; clear_value z) | intro _ | lift_lets -underBinder | with_reducible apply State.reissue_memWf
      | with_reducible apply State.slotFault_memWf | with_reducible apply State.refuse_memWf
      | with_reducible apply runPlanes_memWf | with_reducible apply State.inTransit_memWf
      | with_reducible apply runElements_memWf | with_reducible apply runElement_memWf
      | with_reducible apply decideGroup_memWf | with_reducible refine RunRead.of_ok ‹_› ?_
      | with_reducible refine RunRead.of_fault ‹_› ?_ | with_reducible refine RunRead.of_transit ‹_› ?_
      | with_reducible refine RunRead.of_miss ‹_› ?_ | with_reducible apply RunRead.wf_ok
      | with_reducible apply RunRead.wf_fault | with_reducible apply RunRead.wf_transit
      | with_reducible apply RunRead.wf_miss | split)

theorem execMRun8_memWf (o : OpMR) (s : State) (h_s : MemWf s) {st' : State} : (execMRun8 o s) = .next st' →
    MemWf st' := by
  unfold execMRun8
  repeat' (first
      | with_reducible assumption | with_reducible refine next_memWf ?_ | with_reducible apply run_memWf | split)

theorem execMRun4_memWf (o : OpMR) (s : State) (h_s : MemWf s) {st' : State} : (execMRun4 o s) = .next st' →
    MemWf st' := by
  unfold execMRun4
  repeat' (first
      | with_reducible assumption | with_reducible refine next_memWf ?_ | with_reducible apply run_memWf | split)

theorem execMRunt_memWf (o : OpMR) (s : State) (h_s : MemWf s) {st' : State} : (execMRunt o s) = .next st' →
    MemWf st' := by
  unfold execMRunt
  repeat' (first
      | with_reducible assumption | with_reducible refine next_memWf ?_ | with_reducible apply run_memWf | split)

theorem execMSwap_memWf (o : OpT) (s : State) (h_s : MemWf s) {st' : State} : (execMSwap o s) = .next st' →
    MemWf st' := by
  unfold execMSwap
  repeat' (first
      | with_reducible assumption | with_reducible refine next_memWf ?_ | with_reducible apply State.layoutFault_memWf
      | with_reducible apply State.setMe_memWf | split | simp -zeta only [MemWf.made, MemWf.form])

theorem execMProm_memWf (o : OpT) (s : State) (h_s : MemWf s) {st' : State} : (execMProm o s) = .next st' →
    MemWf st' := by
  unfold execMProm
  repeat' (first
      | with_reducible assumption | with_reducible refine next_memWf ?_ | with_reducible apply State.afterPasses_memWf
      | with_reducible apply startPromo_memWf | split | intro _)

theorem execMDrain_memWf (o : OpT) (s : State) (h_s : MemWf s) {st' : State} : (execMDrain o s) = .next st' →
    MemWf st' := by
  unfold execMDrain
  repeat' (first
      | with_reducible assumption | with_reducible refine next_memWf ?_
      | (intro z; refine (fun hz : MemWf z => ?_) ?_; rotate_left; subst z; rotate_right; clear_value z)
      | (intro z; clear_value z) | lift_lets -underBinder | with_reducible apply State.mSelectorFault_memWf
      | with_reducible apply State.afterPasses_memWf | with_reducible apply State.resultV_memWf
      | with_reducible apply State.setMe_memWf | split | simp -zeta only [MemWf.made, MemWf.form] | intro _)

theorem State.onZ.waited_memWf (s : State) (a : BitVec 6) (f : State → Nat → State) (h_s : MemWf s)
    (h_f : ∀ a0 a1, MemWf a0 → MemWf (f a0 a1))
    : MemWf (State.onZ.waited s a f) := by
  unfold State.onZ.waited
  repeat' (first
      | with_reducible assumption | with_reducible apply h_f | with_reducible apply State.reissue_memWf | split)

theorem State.onZ_memWf (s : State) (a : BitVec 6) (f : State → Nat → State) (h_s : MemWf s) (h_f : ∀ a0 a1, MemWf a0
    → MemWf (f a0 a1))
    : MemWf (State.onZ s a f) := by
  unfold State.onZ
  repeat' (first
      | with_reducible assumption
      | (intro z; refine (fun hz : MemWf z => ?_) ?_; rotate_left; subst z; rotate_right; clear_value z)
      | (intro z; clear_value z) | lift_lets -underBinder | with_reducible apply State.earlyPromotion_memWf
      | with_reducible apply State.reissue_memWf | with_reducible apply State.onZ.waited_memWf
      | with_reducible apply h_f | split)

theorem accumulatorRow_memWf (o : OpT) (s : State) (f : Matrix → Nat → Vec) (h_s : MemWf s)
    : MemWf (accumulatorRow o s f) := by
  unfold accumulatorRow
  repeat' (first
      | with_reducible assumption | intro _ | with_reducible apply State.mSelectorFault_memWf
      | with_reducible apply State.onZ_memWf | with_reducible apply State.resultV_memWf | split)

theorem execMZrd_memWf (o : OpT) (s : State) (h_s : MemWf s) {st' : State} : (execMZrd o s) = .next st' →
    MemWf st' := by
  unfold execMZrd
  repeat' (first
      | with_reducible assumption | with_reducible refine next_memWf ?_ | with_reducible apply accumulatorRow_memWf
      | split | intro _)

theorem execMBrd_memWf (o : OpT) (s : State) (h_s : MemWf s) {st' : State} : (execMBrd o s) = .next st' →
    MemWf st' := by
  unfold execMBrd
  repeat' (first
      | with_reducible assumption | with_reducible refine next_memWf ?_ | with_reducible apply accumulatorRow_memWf
      | split | intro _)

theorem execMZclr_memWf (o : OpT) (s : State) (h_s : MemWf s) {st' : State} : (execMZclr o s) = .next st' →
    MemWf st' := by
  unfold execMZclr
  repeat' (first
      | with_reducible assumption | with_reducible refine next_memWf ?_
      | (intro z; refine (fun hz : MemWf z => ?_) ?_; rotate_left; subst z; rotate_right; clear_value z)
      | (intro z; clear_value z) | lift_lets -underBinder | with_reducible apply State.mSelectorFault_memWf
      | with_reducible apply State.onZ_memWf | with_reducible apply State.setMe_memWf
      | with_reducible apply foldl_memWf | with_reducible apply foldlSnd_memWf | with_reducible apply foldlFst_memWf
      | split | simp -zeta only [MemWf.made, MemWf.form] | intro _)

theorem execMFold_memWf (o : OpT) (s : State) (h_s : MemWf s) {st' : State} : (execMFold o s) = .next st' →
    MemWf st' := by
  unfold execMFold
  repeat' (first
      | with_reducible assumption | with_reducible refine next_memWf ?_ | with_reducible apply State.afterPasses_memWf
      | with_reducible apply State.resultS_memWf | split | intro _)

theorem execMClip_memWf (o : OpT) (s : State) (h_s : MemWf s) {st' : State} : (execMClip o s) = .next st' →
    MemWf st' := by
  unfold execMClip
  repeat' (first
      | with_reducible assumption | with_reducible refine next_memWf ?_
      | (intro z; refine (fun hz : MemWf z => ?_) ?_; rotate_left; subst z; rotate_right; clear_value z)
      | (intro z; clear_value z) | lift_lets -underBinder | with_reducible apply State.mSelectorFault_memWf
      | with_reducible apply State.afterPasses_memWf | with_reducible apply State.resultS_memWf
      | with_reducible apply State.setMe_memWf | split | simp -zeta only [MemWf.made, MemWf.form] | intro _)

theorem execMCal_memWf (o : OpT) (s : State) (h_s : MemWf s) {st' : State} : (execMCal o s) = .next st' →
    MemWf st' := by
  unfold execMCal
  repeat' (first
      | with_reducible assumption | with_reducible refine next_memWf ?_
      | (intro z; refine (fun hz : MemWf z => ?_) ?_; rotate_left; subst z; rotate_right; clear_value z)
      | (intro z; clear_value z) | lift_lets -underBinder | with_reducible apply State.mSelectorFault_memWf
      | with_reducible apply State.resultS_memWf | with_reducible apply State.setMe_memWf | split
      | simp -zeta only [MemWf.made, MemWf.form])

theorem execMPin_memWf (o : OpT) (s : State) (h_s : MemWf s) {st' : State} : (execMPin o s) = .next st' →
    MemWf st' := by
  unfold execMPin
  repeat' (first
      | with_reducible assumption | with_reducible refine next_memWf ?_
      | (intro z; refine (fun hz : MemWf z => ?_) ?_; rotate_left; subst z; rotate_right; clear_value z)
      | (intro z; clear_value z) | lift_lets -underBinder | with_reducible apply State.mSelectorFault_memWf
      | with_reducible apply State.resultS_memWf | with_reducible apply State.mapRegs_memWf | split
      | simp -zeta only [MemWf.made, MemWf.form] | intro _)

theorem execSwapExchange_memWf (s : State) (h_s : MemWf s) {st' : State} : (execSwapExchange s) = .next st' →
    MemWf st' := by
  unfold execSwapExchange
  repeat' (first
      | with_reducible assumption | with_reducible refine next_memWf ?_
      | (intro z; refine (fun hz : MemWf z => ?_) ?_; rotate_left; subst z; rotate_right; clear_value z)
      | (intro z; clear_value z) | lift_lets -underBinder | with_reducible apply State.setMe_memWf | split
      | simp -zeta only [MemWf.made, MemWf.form])

theorem execPromotion_memWf (s : State) (h_s : MemWf s) {st' : State} : (execPromotion s) = .next st' →
    MemWf st' := by
  unfold execPromotion
  repeat' (first
      | with_reducible assumption | with_reducible refine next_memWf ?_ | with_reducible apply performPromos_memWf
      | split)

theorem passObserved_memWf (s : State) (c : CoreId) (p : Pass) (r : PassSums) (h_s : MemWf s)
    : MemWf (passObserved s c p r) := by
  unfold passObserved
  repeat' (first
      | with_reducible assumption
      | (intro z; refine (fun hz : MemWf z => ?_) ?_; rotate_left; subst z; rotate_right; clear_value z)
      | (intro z; clear_value z) | intro _ | lift_lets -underBinder | with_reducible apply tierFail_memWf
      | with_reducible apply restartPasses_memWf | with_reducible apply restartPass_memWf
      | with_reducible apply State.mapTiers_memWf | with_reducible apply lowerCap_memWf
      | with_reducible apply statRecord_memWf | with_reducible apply finishPass_memWf | split
      | simp -zeta only [MemWf.made, MemWf.form])

theorem execPassEnd_memWf (s : State) (h_s : MemWf s) {st' : State} : (execPassEnd s) = .next st' →
    MemWf st' := by
  unfold execPassEnd
  repeat' (first
      | with_reducible assumption | with_reducible refine next_memWf ?_ | with_reducible apply passFault_memWf
      | with_reducible apply passObserved_memWf | split)

theorem execDriftCapRise_memWf (s : State) (h_s : MemWf s) {st' : State} : (execDriftCapRise s) = .next st' →
    MemWf st' := by
  unfold execDriftCapRise
  repeat' (first
      | with_reducible assumption | with_reducible refine next_memWf ?_
      | (intro z; refine (fun hz : MemWf z => ?_) ?_; rotate_left; subst z; rotate_right; clear_value z)
      | (intro z; clear_value z) | lift_lets -underBinder | with_reducible apply State.mapTiers_memWf
      | with_reducible apply statRecord_memWf | with_reducible apply foldl_memWf | with_reducible apply foldlSnd_memWf
      | with_reducible apply foldlFst_memWf | split | simp -zeta only [MemWf.made, MemWf.form] | intro _)

theorem execColumnRetrim_memWf (s : State) (h_s : MemWf s) {st' : State} : (execColumnRetrim s) = .next st' →
    MemWf st' := by
  unfold execColumnRetrim
  repeat' (first
      | with_reducible assumption | with_reducible refine next_memWf ?_
      | (intro z; refine (fun hz : MemWf z => ?_) ?_; rotate_left; subst z; rotate_right; clear_value z)
      | (intro z; clear_value z) | lift_lets -underBinder | with_reducible apply State.setMe_memWf
      | with_reducible apply towerRecord_memWf | with_reducible apply statRecord_memWf | split
      | simp -zeta only [MemWf.made, MemWf.form])

theorem execBackgroundCalibration_memWf (s : State) (h_s : MemWf s) {st' : State} : (execBackgroundCalibration s) =
    .next st' →
    MemWf st' := by
  unfold execBackgroundCalibration
  repeat' (first
      | with_reducible assumption | with_reducible refine next_memWf ?_
      | (intro z; refine (fun hz : MemWf z => ?_) ?_; rotate_left; subst z; rotate_right; clear_value z)
      | (intro z; clear_value z) | lift_lets -underBinder | with_reducible apply calibrate_memWf | split)

theorem execRebuildComplete_memWf (s : State) (h_s : MemWf s) {st' : State} : (execRebuildComplete s) = .next st' →
    MemWf st' := by
  unfold execRebuildComplete
  repeat' (first
      | with_reducible assumption | with_reducible refine next_memWf ?_
      | (intro z; refine (fun hz : MemWf z => ?_) ?_; rotate_left; subst z; rotate_right; clear_value z)
      | (intro z; clear_value z) | lift_lets -underBinder | with_reducible apply State.mapTiers_memWf | split
      | simp -zeta only [MemWf.made, MemWf.form] | intro _)

theorem execChangeOfRoles_memWf (s : State) (h_s : MemWf s) {st' : State} : (execChangeOfRoles s) = .next st' →
    MemWf st' := by
  unfold execChangeOfRoles
  repeat' (first
      | with_reducible assumption | with_reducible refine next_memWf ?_
      | (intro z; refine (fun hz : MemWf z => ?_) ?_; rotate_left; subst z; rotate_right; clear_value z)
      | (intro z; clear_value z) | lift_lets -underBinder | with_reducible apply towerRecord_memWf
      | with_reducible apply State.mapTiers_memWf | split | simp -zeta only [MemWf.made, MemWf.form] | intro _)

/-! ### System -/

theorem changeSlice_memWf (s : State) (t : TowerId) (x : Nat) (retired : Bool) (h_s : MemWf s)
    : MemWf (changeSlice s t x retired) := by
  unfold changeSlice
  repeat' (first
      | with_reducible assumption
      | (intro z; refine (fun hz : MemWf z => ?_) ?_; rotate_left; subst z; rotate_right; clear_value z)
      | (intro z; clear_value z) | intro _ | lift_lets -underBinder | with_reducible apply towerRecord_memWf
      | with_reducible apply State.setTower_memWf | split | simp -zeta only [MemWf.made, MemWf.form])

theorem execSliceRetire_memWf (s : State) (h_s : MemWf s) {st' : State} : (execSliceRetire s) = .next st' →
    MemWf st' := by
  unfold execSliceRetire
  repeat' (first
      | with_reducible assumption | with_reducible refine next_memWf ?_ | with_reducible apply changeSlice_memWf
      | split)

theorem execSliceRestore_memWf (s : State) (h_s : MemWf s) {st' : State} : (execSliceRestore s) = .next st' →
    MemWf st' := by
  unfold execSliceRestore
  repeat' (first
      | with_reducible assumption | with_reducible refine next_memWf ?_ | with_reducible apply changeSlice_memWf
      | split)

theorem softRecord_memWf (s : State) (code : Code) (h_s : MemWf s)
    : MemWf (softRecord s code) := by
  unfold softRecord
  repeat' (first | with_reducible assumption | with_reducible apply statRecord_memWf | split)

theorem mapLine_memWf (s : State) (home : Nat) (f : L1Line → Option L1Line) (h_s : MemWf s)
    : MemWf (mapLine s home f) := by
  unfold mapLine
  repeat' (first
      | with_reducible assumption | intro _ | with_reducible apply State.setMe_memWf | split
      | simp -zeta only [MemWf.made, MemWf.form])

theorem badRow_memWf (s : State) (second : Bool) (h_s : MemWf s)
    : MemWf (badRow s second) := by
  unfold badRow
  repeat' (first
      | with_reducible assumption
      | (intro z; refine (fun hz : MemWf z => ?_) ?_; rotate_left; subst z; rotate_right; clear_value z)
      | (intro z; clear_value z) | lift_lets -underBinder | with_reducible apply towerRecord_memWf
      | with_reducible apply poisonRange_memWf | with_reducible apply softRecord_memWf | split)

theorem execEccError_memWf (s : State) (h_s : MemWf s) {st' : State} : (execEccError s) = .next st' →
    MemWf st' := by
  unfold execEccError
  repeat' (first
      | with_reducible assumption | with_reducible refine next_memWf ?_
      | (intro z; refine (fun hz : MemWf z => ?_) ?_; rotate_left; subst z; rotate_right; clear_value z)
      | (intro z; clear_value z) | lift_lets -underBinder | with_reducible apply softRecord_memWf
      | with_reducible apply mapLine_memWf | with_reducible apply poisonRange_memWf
      | with_reducible apply State.setTower_memWf | with_reducible apply badRow_memWf | split
      | simp -zeta only [MemWf.made, MemWf.form] | intro _)

theorem execSramScrub_memWf (s : State) (h_s : MemWf s) {st' : State} : (execSramScrub s) = .next st' →
    MemWf st' := by
  unfold execSramScrub
  repeat' (first
      | with_reducible assumption | with_reducible refine next_memWf ?_ | with_reducible apply softRecord_memWf
      | split)

theorem execDramPatrolScrub_memWf (s : State) (h_s : MemWf s) {st' : State} : (execDramPatrolScrub s) = .next st' →
    MemWf st' := by
  unfold execDramPatrolScrub
  repeat' (first | with_reducible assumption | with_reducible refine next_memWf ?_)

theorem execDramRefresh_memWf (s : State) (h_s : MemWf s) {st' : State} : (execDramRefresh s) = .next st' →
    MemWf st' := by
  unfold execDramRefresh
  repeat' (first | with_reducible assumption | with_reducible refine next_memWf ?_)

theorem execTelemetry_memWf (s : State) (h_s : MemWf s) {st' : State} : (execTelemetry s) = .next st' →
    MemWf st' := by
  unfold execTelemetry
  repeat' (first
      | with_reducible assumption | with_reducible refine next_memWf ?_ | with_reducible apply State.mapHub_memWf
      | split | simp -zeta only [MemWf.made, MemWf.form] | intro _)

theorem execParityRotationCopy_memWf (s : State) (h_s : MemWf s) {st' : State} : (execParityRotationCopy s) = .next
    st' →
    MemWf st' := by
  unfold execParityRotationCopy
  repeat' (first
      | with_reducible assumption | with_reducible refine next_memWf ?_ | with_reducible apply State.mapTiers_memWf
      | split | simp -zeta only [MemWf.made, MemWf.form] | intro _)

theorem execParityRotationSwitch_memWf (s : State) (h_s : MemWf s) {st' : State} : (execParityRotationSwitch s) =
    .next st' →
    MemWf st' := by
  unfold execParityRotationSwitch
  repeat' (first
      | with_reducible assumption | with_reducible refine next_memWf ?_
      | (intro z; refine (fun hz : MemWf z => ?_) ?_; rotate_left; subst z; rotate_right; clear_value z)
      | (intro z; clear_value z) | lift_lets -underBinder | with_reducible apply State.mapTiers_memWf | split
      | simp -zeta only [MemWf.made, MemWf.form] | intro _)

theorem shutDown_memWf (s : State) (t : TowerId) (p : BitVec 3) (h_s : MemWf s)
    : MemWf (shutDown s t p) := by
  unfold shutDown
  repeat' (first
      | with_reducible assumption
      | (intro z; refine (fun hz : MemWf z => ?_) ?_; rotate_left; subst z; rotate_right; clear_value z)
      | (intro z; clear_value z) | lift_lets -underBinder | with_reducible apply tierFail_memWf
      | with_reducible apply restartPasses_memWf | with_reducible apply towerRecord_memWf | split)

theorem pinnedCrossings_memWf (s : State) (t : TowerId) (old : Nat → Nat) (new : Nat → Nat) (h_s : MemWf s)
    : MemWf (pinnedCrossings s t old new) := by
  unfold pinnedCrossings
  repeat' (first
      | with_reducible assumption | intro _ | with_reducible apply towerRecord_memWf
      | with_reducible apply foldl_memWf | with_reducible apply foldlSnd_memWf | with_reducible apply foldlFst_memWf
      | split)

theorem settleSkip_memWf (s : State) (t : TowerId) (new : Nat → Nat) (h_s : MemWf s)
    : MemWf (settleSkip s t new) := by
  unfold settleSkip
  repeat' (first
      | with_reducible assumption
      | (intro z; refine (fun hz : MemWf z => ?_) ?_; rotate_left; subst z; rotate_right; clear_value z)
      | (intro z; clear_value z) | intro _ | lift_lets -underBinder | with_reducible apply towerStat_memWf
      | with_reducible apply State.mapTiers_memWf | split | simp -zeta only [MemWf.made, MemWf.form])

theorem setPacing_memWf (s : State) (t : TowerId) (f : Tiers → Tiers) (h_s : MemWf s)
    : MemWf (setPacing s t f) := by
  unfold setPacing
  repeat' (first
      | with_reducible assumption
      | (intro z; refine (fun hz : MemWf z => ?_) ?_; rotate_left; subst z; rotate_right; clear_value z)
      | (intro z; clear_value z) | intro _ | lift_lets -underBinder | with_reducible apply State.mapTiers_memWf
      | with_reducible apply towerStat_memWf | split)

theorem readTower_memWf (s : State) (t : TowerId) (new : Nat → Nat) (h_s : MemWf s)
    : MemWf (readTower s t new) := by
  unfold readTower
  repeat' (first
      | with_reducible assumption
      | (intro z; refine (fun hz : MemWf z => ?_) ?_; rotate_left; subst z; rotate_right; clear_value z)
      | (intro z; clear_value z) | intro _ | lift_lets -underBinder | with_reducible apply State.mapTiers_memWf
      | with_reducible apply shutDown_memWf | with_reducible apply settleSkip_memWf
      | with_reducible apply pinnedCrossings_memWf | with_reducible apply setPacing_memWf
      | with_reducible apply foldl_memWf | with_reducible apply foldlSnd_memWf | with_reducible apply foldlFst_memWf
      | split | simp -zeta only [MemWf.made, MemWf.form])

theorem execThermalReading_memWf (s : State) (h_s : MemWf s) {st' : State} : (execThermalReading s) = .next st' →
    MemWf st' := by
  unfold execThermalReading
  repeat' (first
      | with_reducible assumption | with_reducible refine next_memWf ?_ | with_reducible apply readTower_memWf
      | with_reducible apply foldl_memWf | with_reducible apply foldlSnd_memWf | with_reducible apply foldlFst_memWf
      | split | intro _)

theorem execPowerPacing_memWf (s : State) (h_s : MemWf s) {st' : State} : (execPowerPacing s) = .next st' →
    MemWf st' := by
  unfold execPowerPacing
  repeat' (first
      | with_reducible assumption | with_reducible refine next_memWf ?_
      | (intro z; refine (fun hz : MemWf z => ?_) ?_; rotate_left; subst z; rotate_right; clear_value z)
      | (intro z; clear_value z) | lift_lets -underBinder | with_reducible apply setPacing_memWf
      | with_reducible apply foldl_memWf | with_reducible apply foldlSnd_memWf | with_reducible apply foldlFst_memWf
      | split | simp -zeta only [MemWf.made, MemWf.form] | intro _)

theorem flushTag_memWf (s : State) (ctx : BitVec 16) (h_s : MemWf s)
    : MemWf (flushTag s ctx) := by
  unfold flushTag
  repeat' (first
      | with_reducible assumption
      | (intro z; refine (fun hz : MemWf z => ?_) ?_; rotate_left; subst z; rotate_right; clear_value z)
      | (intro z; clear_value z) | intro _ | lift_lets -underBinder | with_reducible apply dropLines_memWf
      | with_reducible apply writeBackLines_memWf | with_reducible apply State.setTower_memWf
      | with_reducible apply foldl_memWf | with_reducible apply foldlSnd_memWf | with_reducible apply foldlFst_memWf
      | split)

theorem linkUp_memWf (s : State) (h_s : MemWf s)
    : MemWf (linkUp s) := by
  unfold linkUp
  repeat' (first
      | with_reducible assumption
      | (intro z; refine (fun hz : MemWf z => ?_) ?_; rotate_left; subst z; rotate_right; clear_value z)
      | (intro z; clear_value z) | intro _ | lift_lets -underBinder | with_reducible apply State.mapHub_memWf
      | with_reducible apply writeBackLines_memWf | with_reducible apply flushTag_memWf
      | with_reducible apply foldl_memWf | with_reducible apply foldlSnd_memWf | with_reducible apply foldlFst_memWf
      | split | simp -zeta only [MemWf.made, MemWf.form])

theorem firmwareBrings_memWf (s : State) (n : Nat) (h_s : MemWf s)
    : MemWf (firmwareBrings s n) := by
  unfold firmwareBrings
  repeat' (first
      | with_reducible assumption
      | (intro z; refine (fun hz : MemWf z => ?_) ?_; rotate_left; subst z; rotate_right; clear_value z)
      | (intro z; clear_value z) | intro _ | lift_lets -underBinder | with_reducible apply State.mapHub_memWf
      | with_reducible apply State.mapTiers_memWf | with_reducible apply State.setTower_memWf
      | with_reducible apply linkUp_memWf | with_reducible apply calibrate_memWf
      | with_reducible apply State.setPort_memWf | with_reducible apply foldl_memWf
      | with_reducible apply foldlSnd_memWf | with_reducible apply foldlFst_memWf | split
      | simp -zeta only [MemWf.made, MemWf.form])

theorem execReadyBitSet_memWf (s : State) (h_s : MemWf s) {st' : State} : (execReadyBitSet s) = .next st' →
    MemWf st' := by
  unfold execReadyBitSet
  repeat' (first
      | with_reducible assumption | with_reducible refine next_memWf ?_
      | (intro z; refine (fun hz : MemWf z => ?_) ?_; rotate_left; subst z; rotate_right; clear_value z)
      | (intro z; clear_value z) | lift_lets -underBinder | with_reducible apply firmwareBrings_memWf
      | with_reducible apply State.setReady_memWf | split)

theorem execReset_memWf (s : State) (h : MemWf s) {t : State} : execReset s = .next t → MemWf t := by
  unfold execReset
  intro e
  rw [← Host.Outcome.next.inj e]
  exact swf_filter _ _ h

/-! ### Engines -/

theorem State.push_memWf (s : State) (maj : BitVec 6) (o : OpT) (v : Vec) (key : Nat) (h_s : MemWf s)
    : MemWf (State.push s maj o v key) := by
  unfold State.push
  repeat' (first | with_reducible assumption | with_reducible apply State.enterGate_memWf | split)

theorem State.eSelectorFault_memWf (s : State) (h_s : MemWf s)
    : MemWf (State.eSelectorFault s) := by
  unfold State.eSelectorFault
  repeat' (first | with_reducible assumption | with_reducible apply State.slotFault_memWf | split)

theorem openGather_memWf (s : State) (o : OpT) (tmpl : Nat) (chan : Nat) (h_s : MemWf s)
    : MemWf (openGather s o tmpl chan) := by
  unfold openGather
  repeat' (first
      | with_reducible assumption
      | (intro z; refine (fun hz : MemWf z => ?_) ?_; rotate_left; subst z; rotate_right; clear_value z)
      | (intro z; clear_value z) | lift_lets -underBinder | with_reducible apply State.setCore_memWf
      | with_reducible apply State.push_memWf | split | simp -zeta only [MemWf.made, MemWf.form])

theorem execECpush_memWf (o : OpT) (s : State) (h_s : MemWf s) {st' : State} : (execECpush o s) = .next st' →
    MemWf st' := by
  unfold execECpush
  repeat' (first
      | with_reducible assumption | with_reducible refine next_memWf ?_
      | (intro z; refine (fun hz : MemWf z => ?_) ?_; rotate_left; subst z; rotate_right; clear_value z)
      | (intro z; clear_value z) | lift_lets -underBinder | with_reducible apply State.eSelectorFault_memWf
      | with_reducible apply openGather_memWf | with_reducible apply State.push_memWf | split)

theorem execEGidx_memWf (o : OpT) (s : State) (h_s : MemWf s) {st' : State} : (execEGidx o s) = .next st' →
    MemWf st' := by
  unfold execEGidx
  repeat' (first
      | with_reducible assumption | with_reducible refine next_memWf ?_
      | (intro z; refine (fun hz : MemWf z => ?_) ?_; rotate_left; subst z; rotate_right; clear_value z)
      | (intro z; clear_value z) | lift_lets -underBinder | with_reducible apply State.slotFault_memWf
      | with_reducible apply State.eSelectorFault_memWf | with_reducible apply State.reissue_memWf
      | with_reducible apply State.push_memWf | with_reducible apply State.mapRegs_memWf | split
      | simp -zeta only [MemWf.made, MemWf.form] | intro _)

theorem execECpop_memWf (o : OpT) (s : State) (h_s : MemWf s) {st' : State} : (execECpop o s) = .next st' →
    MemWf st' := by
  unfold execECpop
  repeat' (first
      | with_reducible assumption | with_reducible refine next_memWf ?_
      | (intro z; refine (fun hz : MemWf z => ?_) ?_; rotate_left; subst z; rotate_right; clear_value z)
      | (intro z; clear_value z) | lift_lets -underBinder | with_reducible apply State.notDet_memWf
      | with_reducible apply State.atHome_memWf | with_reducible apply State.reissue_memWf
      | with_reducible apply State.resultQuad_memWf | with_reducible apply State.setTower_memWf
      | with_reducible apply State.notePop_memWf | split | intro _)

theorem barrier_memWf (o : OpT) (s : State) (broken : Bool) (f : State → Nat → State) (h_s : MemWf s) (h_f : ∀ a0 a1,
    MemWf a0 → MemWf (f a0 a1))
    : MemWf (barrier o s broken f) := by
  unfold barrier
  repeat' (first
      | with_reducible assumption
      | (intro z; refine (fun hz : MemWf z => ?_) ?_; rotate_left; subst z; rotate_right; clear_value z)
      | (intro z; clear_value z) | intro _ | lift_lets -underBinder | with_reducible apply State.notDet_memWf
      | with_reducible apply State.slotFault_memWf | with_reducible apply State.eSelectorFault_memWf
      | with_reducible apply State.atHome_memWf | with_reducible apply h_f | split)

theorem execEBarm_memWf (o : OpT) (s : State) (h_s : MemWf s) {st' : State} : (execEBarm o s) = .next st' →
    MemWf st' := by
  unfold execEBarm
  repeat' (first
      | with_reducible assumption | with_reducible refine next_memWf ?_
      | (intro z; refine (fun hz : MemWf z => ?_) ?_; rotate_left; subst z; rotate_right; clear_value z)
      | (intro z; clear_value z) | lift_lets -underBinder | with_reducible apply barrier_memWf
      | with_reducible apply State.dueFirst_memWf | split | intro _)

theorem execEBexp_memWf (o : OpT) (s : State) (h_s : MemWf s) {st' : State} : (execEBexp o s) = .next st' →
    MemWf st' := by
  unfold execEBexp
  repeat' (first
      | with_reducible assumption | with_reducible refine next_memWf ?_
      | (intro z; refine (fun hz : MemWf z => ?_) ?_; rotate_left; subst z; rotate_right; clear_value z)
      | (intro z; clear_value z) | lift_lets -underBinder | with_reducible apply barrier_memWf
      | with_reducible apply State.push_memWf | split | intro _)

theorem execEBarv_memWf (o : OpT) (s : State) (h_s : MemWf s) {st' : State} : (execEBarv o s) = .next st' →
    MemWf st' := by
  unfold execEBarv
  repeat' (first
      | with_reducible assumption | with_reducible refine next_memWf ?_ | with_reducible apply barrier_memWf
      | with_reducible apply State.push_memWf | split | intro _)

theorem execBarrierArm_memWf (s : State) (h_s : MemWf s) {st' : State} : (execBarrierArm s) = .next st' →
    MemWf st' := by
  unfold execBarrierArm
  repeat' (first
      | with_reducible assumption | with_reducible refine next_memWf ?_
      | (intro z; refine (fun hz : MemWf z => ?_) ?_; rotate_left; subst z; rotate_right; clear_value z)
      | (intro z; clear_value z) | lift_lets -underBinder | with_reducible apply homeWord_memWf
      | with_reducible apply State.slotFault_memWf | with_reducible apply writeWord_memWf
      | with_reducible apply State.resultS_memWf | split)

theorem barrierEvent_memWf (s : State) (f : Word → Option Word) (h_s : MemWf s)
    : MemWf (barrierEvent s f) := by
  unfold barrierEvent
  repeat' (first
      | with_reducible assumption
      | (intro z; refine (fun hz : MemWf z => ?_) ?_; rotate_left; subst z; rotate_right; clear_value z)
      | (intro z; clear_value z) | intro _ | lift_lets -underBinder | with_reducible apply barrierApply_memWf
      | with_reducible apply homeWord_memWf | split)

theorem execBarrierExpect_memWf (s : State) (h_s : MemWf s) {st' : State} : (execBarrierExpect s) = .next st' →
    MemWf st' := by
  unfold execBarrierExpect
  repeat' (first
      | with_reducible assumption | with_reducible refine next_memWf ?_ | with_reducible apply barrierEvent_memWf
      | split | intro _)

theorem execBarrierArrival_memWf (s : State) (h_s : MemWf s) {st' : State} : (execBarrierArrival s) = .next st' →
    MemWf st' := by
  unfold execBarrierArrival
  repeat' (first
      | with_reducible assumption | with_reducible refine next_memWf ?_ | with_reducible apply barrierEvent_memWf
      | split | intro _)

theorem query_memWf (maj : BitVec 6) (o : OpT) (s : State) (frac : Nat) (h_s : MemWf s)
    : MemWf (query maj o s frac) := by
  unfold query
  repeat' (first
      | with_reducible assumption | with_reducible apply State.eSelectorFault_memWf
      | with_reducible apply State.reissue_memWf | with_reducible apply State.push_memWf | split)

theorem execECq_memWf (o : OpT) (s : State) (h_s : MemWf s) {st' : State} : (execECq o s) = .next st' →
    MemWf st' := by
  unfold execECq
  repeat' (first
      | with_reducible assumption | with_reducible refine next_memWf ?_ | with_reducible apply query_memWf | split)

theorem execECqi_memWf (o : OpT) (s : State) (h_s : MemWf s) {st' : State} : (execECqi o s) = .next st' →
    MemWf st' := by
  unfold execECqi
  repeat' (first
      | with_reducible assumption | with_reducible refine next_memWf ?_ | with_reducible apply query_memWf | split)

theorem execECqpop_memWf (o : OpT) (s : State) (h_s : MemWf s) {st' : State} : (execECqpop o s) = .next st' →
    MemWf st' := by
  unfold execECqpop
  repeat' (first
      | with_reducible assumption | with_reducible refine next_memWf ?_ | with_reducible apply State.setMe_memWf
      | with_reducible apply State.notePop_memWf | with_reducible apply State.resultV_memWf
      | with_reducible apply State.awaitQueue_memWf | split | simp -zeta only [MemWf.made, MemWf.form])

theorem State.sendFault_memWf (s : State) (h_s : MemWf s)
    : MemWf (State.sendFault s) := by
  unfold State.sendFault
  repeat' (first | with_reducible assumption | with_reducible apply State.slotFault_memWf | split)

theorem execEOsend_memWf (o : OpT) (s : State) (h_s : MemWf s) {st' : State} : (execEOsend o s) = .next st' →
    MemWf st' := by
  unfold execEOsend
  repeat' (first
      | with_reducible assumption | with_reducible refine next_memWf ?_
      | (intro z; refine (fun hz : MemWf z => ?_) ?_; rotate_left; subst z; rotate_right; clear_value z)
      | (intro z; clear_value z) | lift_lets -underBinder | with_reducible apply State.eSelectorFault_memWf
      | with_reducible apply State.sendFault_memWf | with_reducible apply State.push_memWf | split)

theorem State.payloadReached_memWf (s : State) (a : Word) (f : State → State) (h_s : MemWf s) (h_f : ∀ a0, MemWf a0 →
    MemWf (f a0))
    : MemWf (State.payloadReached s a f) := by
  unfold State.payloadReached
  repeat' (first
      | with_reducible assumption | with_reducible apply reachTile_memWf | with_reducible apply hostError_memWf
      | with_reducible apply State.slotFault_memWf | with_reducible apply State.refuse_memWf
      | with_reducible apply State.inTransit_memWf | with_reducible apply State.reissue_memWf
      | with_reducible apply h_f
      | (with_reducible refine of_second ‹_› ?_; first | with_reducible assumption | with_reducible apply reachTile_memWf)
      | split)

theorem execEUsend_memWf (o : OpT) (s : State) (h_s : MemWf s) {st' : State} : (execEUsend o s) = .next st' →
    MemWf st' := by
  unfold execEUsend
  repeat' (first
      | with_reducible assumption | with_reducible refine next_memWf ?_
      | (intro z; refine (fun hz : MemWf z => ?_) ?_; rotate_left; subst z; rotate_right; clear_value z)
      | (intro z; clear_value z) | lift_lets -underBinder | with_reducible apply State.eSelectorFault_memWf
      | with_reducible apply State.sendFault_memWf | with_reducible apply State.slotFault_memWf
      | with_reducible apply State.push_memWf | with_reducible apply State.payloadReached_memWf | split | intro _)

theorem execECsend_memWf (o : OpT) (s : State) (h_s : MemWf s) {st' : State} : (execECsend o s) = .next st' →
    MemWf st' := by
  unfold execECsend
  repeat' (first
      | with_reducible assumption | with_reducible refine next_memWf ?_
      | (intro z; refine (fun hz : MemWf z => ?_) ?_; rotate_left; subst z; rotate_right; clear_value z)
      | (intro z; clear_value z) | lift_lets -underBinder | with_reducible apply State.eSelectorFault_memWf
      | with_reducible apply State.refuse_memWf | with_reducible apply State.sendFault_memWf
      | with_reducible apply State.push_memWf | split)

theorem execERecv_memWf (o : OpT) (s : State) (h_s : MemWf s) {st' : State} : (execERecv o s) = .next st' →
    MemWf st' := by
  unfold execERecv
  repeat' (first
      | with_reducible assumption | with_reducible refine next_memWf ?_
      | (intro z; refine (fun hz : MemWf z => ?_) ?_; rotate_left; subst z; rotate_right; clear_value z)
      | (intro z; clear_value z) | lift_lets -underBinder | with_reducible apply State.eSelectorFault_memWf
      | with_reducible apply State.layoutFault_memWf | with_reducible apply State.reissue_memWf
      | with_reducible apply State.resultS_memWf | with_reducible apply State.notePop_memWf
      | with_reducible apply State.mapHub_memWf | split | simp -zeta only [MemWf.made, MemWf.form] | intro _)

theorem recordPush_memWf (maj : BitVec 6) (o : OpT) (s : State) (h_s : MemWf s)
    : MemWf (recordPush maj o s) := by
  unfold recordPush
  repeat' (first
      | with_reducible assumption | with_reducible apply State.slotFault_memWf | with_reducible apply State.push_memWf
      | split)

theorem execESpawn_memWf (o : OpT) (s : State) (h_s : MemWf s) {st' : State} : (execESpawn o s) = .next st' →
    MemWf st' := by
  unfold execESpawn
  repeat' (first
      | with_reducible assumption | with_reducible refine next_memWf ?_ | with_reducible apply recordPush_memWf
      | split)

theorem execEDec_memWf (o : OpT) (s : State) (h_s : MemWf s) {st' : State} : (execEDec o s) = .next st' →
    MemWf st' := by
  unfold execEDec
  repeat' (first
      | with_reducible assumption | with_reducible refine next_memWf ?_ | with_reducible apply recordPush_memWf
      | split)

theorem armPush_memWf (maj : BitVec 6) (o : OpT) (s : State) (h_s : MemWf s)
    : MemWf (armPush maj o s) := by
  unfold armPush
  repeat' (first
      | with_reducible assumption | with_reducible apply State.eSelectorFault_memWf
      | with_reducible apply State.push_memWf | split)

theorem execEArm_memWf (o : OpT) (s : State) (h_s : MemWf s) {st' : State} : (execEArm o s) = .next st' →
    MemWf st' := by
  unfold execEArm
  repeat' (first
      | with_reducible assumption | with_reducible refine next_memWf ?_ | with_reducible apply armPush_memWf | split)

theorem execEPrime_memWf (o : OpT) (s : State) (h_s : MemWf s) {st' : State} : (execEPrime o s) = .next st' →
    MemWf st' := by
  unfold execEPrime
  repeat' (first
      | with_reducible assumption | with_reducible refine next_memWf ?_ | with_reducible apply armPush_memWf | split)

theorem execEDone_memWf (o : OpT) (s : State) (h_s : MemWf s) {st' : State} : (execEDone o s) = .next st' →
    MemWf st' := by
  unfold execEDone
  repeat' (first
      | with_reducible assumption | with_reducible refine next_memWf ?_
      | (intro z; refine (fun hz : MemWf z => ?_) ?_; rotate_left; subst z; rotate_right; clear_value z)
      | (intro z; clear_value z) | lift_lets -underBinder | with_reducible apply State.layoutFault_memWf
      | with_reducible apply State.reissue_memWf | with_reducible apply fullRelease_memWf
      | with_reducible apply emptyGate_memWf | with_reducible apply closeGather_memWf
      | with_reducible apply performPromos_memWf | with_reducible apply promoteEarly_memWf
      | with_reducible apply State.setEnding_memWf | split)

/-! ### Links -/

theorem writeUnits_memWf (v : View) : ∀ (us : List (List Byte)) (a : Word) (s : State), MemWf s → ∀ {t : State},
    writeUnits v a us s = some t → MemWf t
  | [], _, _, h, _, e => by rw [writeUnits] at e; rw [← Option.some.inj e]; exact h
  | u :: us, a, s, h, t, e => by
    rw [writeUnits] at e
    split at e
    · exact writeUnits_memWf v us _ _ (writeBytes_memWf _ _ (of_second ‹_› (flatKeyOf_memWf _ _ _ h))) e
    · contradiction

theorem ringWrite_memWf (s : State) (p : Packet) (h : MemWf s) : (ringWrite s p).Wf := by
  unfold ringWrite
  dsimp only
  split
  · exact hubRecord_memWf _ _ _ h
  · split
    · exact countNak_memWf _ _ h
    · split
      · exact writeNat_memWf _ _ _ (writeUnits_memWf _ _ _ _ h ‹_›)
      · exact hubRecord_memWf _ _ _ h

theorem ownRefusal_memWf (s : State) (p : Packet) (code : Code) (h_s : MemWf s)
    : MemWf (ownRefusal s p code) := by
  unfold ownRefusal
  repeat' (first | with_reducible assumption | with_reducible apply statRecord_memWf | split)

theorem lockstepEvent_memWf (s : State) (l : Lockstep) (code : Code) (f : Nat) (h_s : MemWf s)
    : MemWf (lockstepEvent s l code f) := by
  unfold lockstepEvent
  repeat' (first
      | with_reducible assumption
      | (intro z; refine (fun hz : MemWf z => ?_) ?_; rotate_left; subst z; rotate_right; clear_value z)
      | (intro z; clear_value z) | intro _ | lift_lets -underBinder | with_reducible apply faultRecord_memWf
      | with_reducible apply undoBundle_memWf | with_reducible apply endWithFault_memWf
      | with_reducible apply foldl_memWf | with_reducible apply foldlSnd_memWf | with_reducible apply foldlFst_memWf
      | split)

theorem setLockstep_memWf (s : State) (l : Lockstep) (l1 : Lockstep) (h_s : MemWf s)
    : MemWf (setLockstep s l l1) := by
  unfold setLockstep
  repeat' (first
      | with_reducible assumption
      | (intro z; refine (fun hz : MemWf z => ?_) ?_; rotate_left; subst z; rotate_right; clear_value z)
      | (intro z; clear_value z) | intro _ | lift_lets -underBinder | with_reducible apply State.mapHub_memWf | split
      | simp -zeta only [MemWf.made, MemWf.form])

theorem compareFrame_memWf (s : State) (l : Lockstep) (l1 : Lockstep) (f : Nat) (h_s : MemWf s)
    : MemWf (compareFrame s l l1 f) := by
  unfold compareFrame
  repeat' (first
      | with_reducible assumption
      | (intro z; refine (fun hz : MemWf z => ?_) ?_; rotate_left; subst z; rotate_right; clear_value z)
      | (intro z; clear_value z) | intro _ | lift_lets -underBinder | with_reducible apply setLockstep_memWf
      | with_reducible apply lockstepEvent_memWf | split | simp -zeta only [MemWf.made, MemWf.form])

theorem execLockstepSignatureSend_memWf (s : State) (h_s : MemWf s) {st' : State} : (execLockstepSignatureSend s) =
    .next st' →
    MemWf st' := by
  unfold execLockstepSignatureSend
  repeat' (first
      | with_reducible assumption | with_reducible refine next_memWf ?_
      | (intro z; refine (fun hz : MemWf z => ?_) ?_; rotate_left; subst z; rotate_right; clear_value z)
      | (intro z; refine (fun hz : MemWf z.2 => ?_) ?_; rotate_left; subst z; rotate_right; clear_value z)
      | (intro z; clear_value z) | lift_lets -underBinder | with_reducible apply newPacket_memWf
      | with_reducible apply compareFrame_memWf | with_reducible apply sendPacket_memWf
      | (with_reducible refine of_second ‹_› ?_; first | with_reducible assumption | with_reducible apply newPacket_memWf)
      | split | simp -zeta only [MemWf.made, MemWf.form] | intro _)

theorem receiveSignature_memWf (s : State) (src : Nat) (t0 : Word) (f : Nat) (sig : Word) (h_s : MemWf s)
    : MemWf (receiveSignature s src t0 f sig) := by
  unfold receiveSignature
  repeat' (first
      | with_reducible assumption | intro _ | with_reducible apply compareFrame_memWf | split
      | simp -zeta only [MemWf.made, MemWf.form])

theorem execLockstepSignatureReceive_memWf (s : State) (h_s : MemWf s) {st' : State} : (execLockstepSignatureReceive
    s) = .next st' →
    MemWf st' := by
  unfold execLockstepSignatureReceive
  repeat' (first
      | with_reducible assumption | with_reducible refine next_memWf ?_ | with_reducible apply receiveSignature_memWf
      | split)

theorem execLockstepSignatureTimeout_memWf (s : State) (h_s : MemWf s) {st' : State} : (execLockstepSignatureTimeout
    s) = .next st' →
    MemWf st' := by
  unfold execLockstepSignatureTimeout
  repeat' (first
      | with_reducible assumption | with_reducible refine next_memWf ?_ | with_reducible apply lockstepEvent_memWf
      | with_reducible apply setLockstep_memWf | split | simp -zeta only [MemWf.made, MemWf.form] | intro _)

theorem deliverUnit_memWf (s : State) (p : Packet) (h_s : MemWf s)
    : MemWf (deliverUnit s p) := by
  unfold deliverUnit
  repeat' (first
      | with_reducible assumption
      | (intro z; refine (fun hz : MemWf z => ?_) ?_; rotate_left; subst z; rotate_right; clear_value z)
      | (intro z; clear_value z) | lift_lets -underBinder | with_reducible apply State.due_memWf
      | with_reducible apply receiveSignature_memWf | split | simp -zeta only [MemWf.made, MemWf.form])

theorem leavePool_memWf (s : State) (i : Nat) (x : InPacket) (h_s : MemWf s)
    : MemWf (leavePool s i x) := by
  unfold leavePool
  repeat' (first
      | with_reducible assumption
      | (intro z; refine (fun hz : MemWf z => ?_) ?_; rotate_left; subst z; rotate_right; clear_value z)
      | (intro z; clear_value z) | intro _ | lift_lets -underBinder | with_reducible apply State.mapHub_memWf
      | with_reducible apply State.setPort_memWf | split | simp -zeta only [MemWf.made, MemWf.form])

theorem refusePacket_memWf (s : State) (p : Packet) (h_s : MemWf s)
    : MemWf (refusePacket s p) := by
  unfold refusePacket
  repeat' (first
      | with_reducible assumption | intro _ | with_reducible apply State.mapHub_memWf | split
      | simp -zeta only [MemWf.made, MemWf.form])

theorem execReceiveRingWrite_memWf (s : State) (h_s : MemWf s) {st' : State} : (execReceiveRingWrite s) = .next st' →
    MemWf st' := by
  unfold execReceiveRingWrite
  repeat' (first
      | with_reducible assumption | with_reducible refine next_memWf ?_ | with_reducible exact refused_memWf
      | (intro z; refine (fun hz : MemWf z => ?_) ?_; rotate_left; subst z; rotate_right; clear_value z)
      | (intro z; refine (fun hz : z.Wf => ?_) ?_; rotate_left; subst z; rotate_right; clear_value z) | exact hz
      | (intro z; refine (fun hfun : ∀ a0, MemWf a0 → MemWf (z a0) => ?_) ?_; rotate_left; subst z; rotate_right; clear_value z)
      | (intro z; clear_value z) | lift_lets -underBinder | with_reducible apply ringWrite_memWf
      | with_reducible apply ownRefusal_memWf | with_reducible apply sendOut_memWf
      | with_reducible apply leavePool_memWf | with_reducible apply State.mapHub_memWf
      | with_reducible apply deliverUnit_memWf | with_reducible apply refusePacket_memWf | with_reducible apply hfun
      | with_reducible refine RingWrite.of_written ‹_› ?_ | with_reducible refine RingWrite.of_full ‹_› ?_
      | with_reducible refine RingWrite.of_discarded ‹_› ?_ | split | simp -zeta only [MemWf.made, MemWf.form]
      | intro _)

theorem holdOrdered_memWf (s : State) (p : Packet) (h_s : MemWf s)
    : MemWf (holdOrdered s p) := by
  unfold holdOrdered
  repeat' (first
      | with_reducible assumption | intro _ | with_reducible apply hubRecord_memWf
      | with_reducible apply State.mapHub_memWf | split | simp -zeta only [MemWf.made, MemWf.form])

theorem sendOrdered_memWf (s : State) (p : Packet) (h_s : MemWf s)
    : MemWf (sendOrdered s p) := by
  unfold sendOrdered
  repeat' (first
      | with_reducible assumption | intro _ | with_reducible apply transmit_memWf | with_reducible apply sendOut_memWf
      | with_reducible apply foldl_memWf | with_reducible apply foldlSnd_memWf | with_reducible apply foldlFst_memWf
      | split)

theorem awaitOrdered_memWf (s : State) (p : Packet) (h_s : MemWf s)
    : MemWf (awaitOrdered s p) := by
  unfold awaitOrdered
  repeat' (first
      | with_reducible assumption | intro _ | with_reducible apply State.mapHub_memWf | split
      | simp -zeta only [MemWf.made, MemWf.form])

theorem execOrderedInject_memWf (s : State) (h_s : MemWf s) {st' : State} : (execOrderedInject s) = .next st' →
    MemWf st' := by
  unfold execOrderedInject
  repeat' (first
      | with_reducible assumption | with_reducible refine next_memWf ?_
      | (intro z; refine (fun hz : MemWf z => ?_) ?_; rotate_left; subst z; rotate_right; clear_value z)
      | (intro z; clear_value z) | lift_lets -underBinder | with_reducible apply awaitOrdered_memWf
      | with_reducible apply sendOrdered_memWf | with_reducible apply State.mapHub_memWf | split
      | simp -zeta only [MemWf.made, MemWf.form] | intro _)

theorem execOrderedDeliver_memWf (s : State) (h_s : MemWf s) {st' : State} : (execOrderedDeliver s) = .next st' →
    MemWf st' := by
  unfold execOrderedDeliver
  repeat' (first
      | with_reducible assumption | with_reducible refine next_memWf ?_
      | (intro z; refine (fun hz : MemWf z => ?_) ?_; rotate_left; subst z; rotate_right; clear_value z)
      | (intro z; refine (fun hz : z.Wf => ?_) ?_; rotate_left; subst z; rotate_right; clear_value z) | exact hz
      | (intro z; refine (fun hfun : ∀ a0, MemWf a0 → MemWf (z a0) => ?_) ?_; rotate_left; subst z; rotate_right; clear_value z)
      | (intro z; clear_value z) | lift_lets -underBinder | with_reducible apply State.mapHub_memWf
      | with_reducible apply deliverUnit_memWf | with_reducible apply ringWrite_memWf
      | with_reducible apply ownRefusal_memWf | with_reducible apply hfun
      | with_reducible refine RingWrite.of_written ‹_› ?_ | with_reducible refine RingWrite.of_full ‹_› ?_
      | with_reducible refine RingWrite.of_discarded ‹_› ?_ | split | simp -zeta only [MemWf.made, MemWf.form]
      | intro _)

theorem execCircuitSlotSend_memWf (s : State) (h_s : MemWf s) {st' : State} : (execCircuitSlotSend s) = .next st' →
    MemWf st' := by
  unfold execCircuitSlotSend
  repeat' (first
      | with_reducible assumption | with_reducible refine next_memWf ?_
      | (intro z; refine (fun hz : MemWf z => ?_) ?_; rotate_left; subst z; rotate_right; clear_value z)
      | (intro z; clear_value z) | lift_lets -underBinder | with_reducible apply State.mapHub_memWf
      | with_reducible apply State.due_memWf | with_reducible apply transmitFirst_memWf | split
      | simp -zeta only [MemWf.made, MemWf.form] | intro _)

theorem execCircuitDeliver_memWf (s : State) (h_s : MemWf s) {st' : State} : (execCircuitDeliver s) = .next st' →
    MemWf st' := by
  unfold execCircuitDeliver
  repeat' (first
      | with_reducible assumption | with_reducible refine next_memWf ?_
      | (intro z; refine (fun hz : MemWf z => ?_) ?_; rotate_left; subst z; rotate_right; clear_value z)
      | (intro z; refine (fun hz : z.Wf => ?_) ?_; rotate_left; subst z; rotate_right; clear_value z) | exact hz
      | (intro z; clear_value z) | lift_lets -underBinder | with_reducible apply State.mapHub_memWf
      | with_reducible apply ringWrite_memWf | with_reducible apply hubRecord_memWf
      | with_reducible apply ownRefusal_memWf | with_reducible apply State.due_memWf
      | with_reducible refine RingWrite.of_written ‹_› ?_ | with_reducible refine RingWrite.of_full ‹_› ?_
      | with_reducible refine RingWrite.of_discarded ‹_› ?_ | split | simp -zeta only [MemWf.made, MemWf.form]
      | intro _)

theorem acknowledge_memWf (s : State) (x : Nat) (n : BitVec 12) (h_s : MemWf s)
    : MemWf (acknowledge s x n) := by
  unfold acknowledge
  repeat' (first
      | with_reducible assumption
      | (intro z; refine (fun hz : MemWf z => ?_) ?_; rotate_left; subst z; rotate_right; clear_value z)
      | (intro z; clear_value z) | intro _ | lift_lets -underBinder | with_reducible apply drainWaiting_memWf
      | with_reducible apply State.setPort_memWf | split | simp -zeta only [MemWf.made, MemWf.form])

theorem takeMark_memWf (s : State) (x : Nat) (w : BitVec 40) (h_s : MemWf s)
    : MemWf (takeMark s x w) := by
  unfold takeMark
  repeat' (first
      | with_reducible assumption
      | (intro z; refine (fun hz : MemWf z => ?_) ?_; rotate_left; subst z; rotate_right; clear_value z)
      | (intro z; clear_value z) | lift_lets -underBinder | with_reducible apply hubRecord_memWf
      | with_reducible apply State.setPort_memWf | split | simp -zeta only [MemWf.made, MemWf.form])

theorem takePacket.free_memWf (x chan : Nat) (p : Packet) (st : State) (h : MemWf st) :
    MemWf (takePacket.free x chan p st) := State.setPort_memWf _ _ h

theorem takePacket_memWf (s : State) (x : Nat) (chan : Nat) (p : Packet) (h_s : MemWf s)
    : MemWf (takePacket s x chan p) := by
  unfold takePacket
  repeat' (first
      | with_reducible assumption
      | (intro z; refine (fun hz : MemWf z => ?_) ?_; rotate_left; subst z; rotate_right; clear_value z)
      | (intro z; clear_value z) | intro _ | lift_lets -underBinder | with_reducible apply transmit_memWf
      | with_reducible apply sendOut_memWf | with_reducible apply holdOrdered_memWf
      | with_reducible apply State.mapHub_memWf | with_reducible apply enterPool_memWf
      | with_reducible apply State.setPort_memWf | with_reducible apply takePacket.free_memWf
      | with_reducible apply foldl_memWf | with_reducible apply foldlSnd_memWf | with_reducible apply foldlFst_memWf
      | split | simp -zeta only [MemWf.made, MemWf.form])

theorem execFlitReceive_memWf (s : State) (h_s : MemWf s) {st' : State} : (execFlitReceive s) = .next st' →
    MemWf st' := by
  unfold execFlitReceive
  repeat' (first
      | with_reducible assumption | with_reducible refine next_memWf ?_
      | (intro z; refine (fun hz : MemWf z => ?_) ?_; rotate_left; subst z; rotate_right; clear_value z)
      | (intro z; clear_value z) | lift_lets -underBinder | with_reducible apply State.setPort_memWf
      | with_reducible apply drainWaiting_memWf | with_reducible apply acknowledge_memWf
      | with_reducible apply takePacket_memWf | with_reducible apply takeMark_memWf | with_reducible apply foldl_memWf
      | with_reducible apply foldlSnd_memWf | with_reducible apply foldlFst_memWf | split
      | simp -zeta only [MemWf.made, MemWf.form] | intro _)

theorem refusedOrdered_memWf (s : State) (x : Nat) (n : BitVec 12) (h_s : MemWf s)
    : MemWf (refusedOrdered s x n) := by
  unfold refusedOrdered
  repeat' (first | with_reducible assumption | intro _ | with_reducible apply ownRefusal_memWf | split)

theorem execLinkNakReceive_memWf (s : State) (h_s : MemWf s) {st' : State} : (execLinkNakReceive s) = .next st' →
    MemWf st' := by
  unfold execLinkNakReceive
  repeat' (first
      | with_reducible assumption | with_reducible refine next_memWf ?_
      | (intro z; refine (fun hz : MemWf z => ?_) ?_; rotate_left; subst z; rotate_right; clear_value z)
      | (intro z; clear_value z) | lift_lets -underBinder | with_reducible apply refusedOrdered_memWf
      | with_reducible apply State.setPort_memWf | with_reducible apply State.due_memWf | split
      | simp -zeta only [MemWf.made, MemWf.form] | intro _)

theorem execBeaconSend_memWf (s : State) (h_s : MemWf s) {st' : State} : (execBeaconSend s) = .next st' →
    MemWf st' := by
  unfold execBeaconSend
  repeat' (first
      | with_reducible assumption | with_reducible refine next_memWf ?_
      | (intro z; refine (fun hz : MemWf z => ?_) ?_; rotate_left; subst z; rotate_right; clear_value z)
      | (intro z; clear_value z) | lift_lets -underBinder | with_reducible apply sendFlit_memWf | split)

theorem execPortDown_memWf (s : State) (h_s : MemWf s) {st' : State} : (execPortDown s) = .next st' →
    MemWf st' := by
  unfold execPortDown
  repeat' (first
      | with_reducible assumption | with_reducible refine next_memWf ?_
      | (intro z; refine (fun hz : MemWf z => ?_) ?_; rotate_left; subst z; rotate_right; clear_value z)
      | (intro z; clear_value z) | lift_lets -underBinder | with_reducible apply State.setPort_memWf
      | with_reducible apply hubRecord_memWf | with_reducible apply State.setReady_memWf | split
      | simp -zeta only [MemWf.made, MemWf.form])

theorem execPortTrained_memWf (s : State) (h_s : MemWf s) {st' : State} : (execPortTrained s) = .next st' →
    MemWf st' := by
  unfold execPortTrained
  repeat' (first
      | with_reducible assumption | with_reducible refine next_memWf ?_
      | (intro z; refine (fun hz : MemWf z => ?_) ?_; rotate_left; subst z; rotate_right; clear_value z)
      | (intro z; clear_value z) | lift_lets -underBinder | with_reducible apply State.setPort_memWf
      | with_reducible apply drainWaiting_memWf | with_reducible apply State.setReady_memWf | split
      | simp -zeta only [MemWf.made, MemWf.form])

theorem execPortTrainingTimeout_memWf (s : State) (h_s : MemWf s) {st' : State} : (execPortTrainingTimeout s) = .next
    st' →
    MemWf st' := by
  unfold execPortTrainingTimeout
  repeat' (first
      | with_reducible assumption | with_reducible refine next_memWf ?_
      | (intro z; refine (fun hz : MemWf z => ?_) ?_; rotate_left; subst z; rotate_right; clear_value z)
      | (intro z; clear_value z) | lift_lets -underBinder | with_reducible apply hubRecord_memWf | split)

theorem execWatermarkStall_memWf (s : State) (h_s : MemWf s) {st' : State} : (execWatermarkStall s) = .next st' →
    MemWf st' := by
  unfold execWatermarkStall
  repeat' (first
      | with_reducible assumption | with_reducible refine next_memWf ?_
      | (intro z; refine (fun hz : MemWf z => ?_) ?_; rotate_left; subst z; rotate_right; clear_value z)
      | (intro z; clear_value z) | lift_lets -underBinder | with_reducible apply hubRecord_memWf
      | with_reducible apply State.setPort_memWf | split)

theorem execPacketHeldTimeout_memWf (s : State) (h_s : MemWf s) {st' : State} : (execPacketHeldTimeout s) = .next st'
    →
    MemWf st' := by
  unfold execPacketHeldTimeout
  repeat' (first
      | with_reducible assumption | with_reducible refine next_memWf ?_ | with_reducible apply hubRecord_memWf
      | with_reducible apply State.mapHub_memWf | split | simp -zeta only [MemWf.made, MemWf.form] | intro _)

theorem execPodTimeSlew_memWf (s : State) (h_s : MemWf s) {st' : State} : (execPodTimeSlew s) = .next st' →
    MemWf st' := by
  unfold execPodTimeSlew
  repeat' (first
      | with_reducible assumption | with_reducible refine next_memWf ?_ | with_reducible apply State.mapHub_memWf
      | split | simp -zeta only [MemWf.made, MemWf.form] | intro _)

theorem execPodTimeDrift_memWf (s : State) (h_s : MemWf s) {st' : State} : (execPodTimeDrift s) = .next st' →
    MemWf st' := by
  unfold execPodTimeDrift
  repeat' (first
      | with_reducible assumption | with_reducible refine next_memWf ?_ | with_reducible apply hubRecord_memWf
      | with_reducible apply State.setReady_memWf | split)

/-! ### Manage -/

theorem execCxlLinkDown_memWf (s : State) (h_s : MemWf s) {st' : State} : (execCxlLinkDown s) = .next st' →
    MemWf st' := by
  unfold execCxlLinkDown
  repeat' (first
      | with_reducible assumption | with_reducible refine next_memWf ?_
      | (intro z; refine (fun hz : MemWf z => ?_) ?_; rotate_left; subst z; rotate_right; clear_value z)
      | (intro z; clear_value z) | lift_lets -underBinder | with_reducible apply State.setReady_memWf
      | with_reducible apply hubRecord_memWf | with_reducible apply State.mapHub_memWf | split
      | simp -zeta only [MemWf.made, MemWf.form] | intro _)

theorem execCxlCompletionTimeout_memWf (s : State) (h_s : MemWf s) {st' : State} : (execCxlCompletionTimeout s) =
    .next st' →
    MemWf st' := by
  unfold execCxlCompletionTimeout
  repeat' (first
      | with_reducible assumption | with_reducible refine next_memWf ?_
      | (intro z; refine (fun hz : MemWf z => ?_) ?_; rotate_left; subst z; rotate_right; clear_value z)
      | (intro z; clear_value z) | lift_lets -underBinder | with_reducible apply hubRecord_memWf
      | with_reducible apply loadFault_memWf | with_reducible apply State.setMe_memWf
      | with_reducible apply State.setChurnChan_memWf | with_reducible apply failRequest_memWf | split
      | simp -zeta only [MemWf.made, MemWf.form] | intro _)

theorem execHostCxlMemAccess_memWf (s : State) (h_s : MemWf s) {st' : State} : (execHostCxlMemAccess s) = .next st' →
    MemWf st' := by
  unfold execHostCxlMemAccess
  repeat' (first
      | with_reducible assumption | with_reducible refine next_memWf ?_
      | (intro z; refine (fun hz : MemWf z => ?_) ?_; rotate_left; subst z; rotate_right; clear_value z)
      | (intro z; clear_value z) | lift_lets -underBinder | with_reducible apply flushRange_memWf
      | with_reducible apply hubRecord_memWf | with_reducible apply writeBytes_memWf | split | intro _)

theorem discardWrite_memWf (s : State) (h_s : MemWf s)
    : MemWf (discardWrite s) := by
  unfold discardWrite
  repeat' (first | with_reducible assumption | with_reducible apply hubRecord_memWf | split)

theorem mgmtAccess_memWf (s : State) (f : Nat → Word → State) (h_s : MemWf s) (h_f : ∀ a0 a1, MemWf (f a0 a1))
    : MemWf (mgmtAccess s f) := by
  unfold mgmtAccess
  repeat' (first
      | with_reducible assumption | with_reducible apply discardWrite_memWf | with_reducible apply h_f | split)

theorem writeRingv_memWf (s : State) (x : Nat) (v : Word) (h_s : MemWf s)
    : MemWf (writeRingv s x v) := by
  unfold writeRingv
  repeat' (first
      | with_reducible assumption
      | (intro z; refine (fun hz : MemWf z => ?_) ?_; rotate_left; subst z; rotate_right; clear_value z)
      | (intro z; clear_value z) | intro _ | lift_lets -underBinder | with_reducible apply State.mapHub_memWf | split
      | simp -zeta only [MemWf.made, MemWf.form])

theorem writeCurdls_memWf (s : State) (n : Nat) (v : Word) (h_s : MemWf s)
    : MemWf (writeCurdls s n v) := by
  unfold writeCurdls
  repeat' (first
      | with_reducible assumption
      | (intro z; refine (fun hz : MemWf z => ?_) ?_; rotate_left; subst z; rotate_right; clear_value z)
      | (intro z; clear_value z) | lift_lets -underBinder | with_reducible apply State.setTower_memWf | split)

theorem writeBinding_memWf (s : State) (d : Dest4) (v : Word) (h_s : MemWf s)
    : MemWf (writeBinding s d v) := by
  unfold writeBinding
  repeat' (first | with_reducible assumption | with_reducible apply State.setChurnChan_memWf | split)

theorem writeTower_memWf (s : State) (n : Nat) (f : Tower → Tower) (h_s : MemWf s)
    : MemWf (writeTower s n f) := by
  unfold writeTower
  repeat' (first | with_reducible assumption | with_reducible apply State.setTower_memWf | split)

theorem mgmtStore_memWf (s : State) (x : Nat) (v : Word) (h : MemWf s) : MemWf (mgmtStore s x v) := by
  unfold mgmtStore
  repeat' apply ite_memWf
  all_goals first
    | with_reducible exact h
    | exact State.mapHub_memWf _ h
    | exact writeTower_memWf _ _ _ h
    | exact writeCurdls_memWf _ _ _ h
    | exact writeBinding_memWf _ _ _ h
    | exact writeRingv_memWf s x v h

theorem execMgmtRegisterWrite_memWf (s : State) (h_s : MemWf s) {st' : State} : (execMgmtRegisterWrite s) = .next st'
    →
    MemWf st' := by
  unfold execMgmtRegisterWrite
  repeat' (first
      | with_reducible assumption | with_reducible refine next_memWf ?_ | with_reducible apply mgmtAccess_memWf
      | with_reducible apply mgmtStore_memWf | split | intro _)

theorem execCtxwinWrite_memWf (s : State) (h_s : MemWf s) {st' : State} : (execCtxwinWrite s) = .next st' →
    MemWf st' := by
  unfold execCtxwinWrite
  repeat' (first
      | with_reducible assumption | with_reducible refine next_memWf ?_
      | (intro z; refine (fun hz : MemWf z => ?_) ?_; rotate_left; subst z; rotate_right; clear_value z)
      | (intro z; clear_value z) | lift_lets -underBinder | with_reducible apply mgmtAccess_memWf
      | with_reducible apply writeWord_memWf | split | simp -zeta only [MemWf.made, MemWf.form] | intro _)

theorem execInvselWrite_memWf (s : State) (h_s : MemWf s) {st' : State} : (execInvselWrite s) = .next st' →
    MemWf st' := by
  unfold execInvselWrite
  repeat' (first
      | with_reducible assumption | with_reducible refine next_memWf ?_
      | (intro z; refine (fun hz : MemWf z => ?_) ?_; rotate_left; subst z; rotate_right; clear_value z)
      | (intro z; clear_value z) | lift_lets -underBinder | with_reducible apply mgmtAccess_memWf
      | with_reducible apply discardWrite_memWf | with_reducible apply State.mapHub_memWf
      | with_reducible apply State.askWalker_memWf | with_reducible apply foldl_memWf
      | with_reducible apply foldlSnd_memWf | with_reducible apply foldlFst_memWf | split
      | simp -zeta only [MemWf.made, MemWf.form] | intro _)

theorem dropElements_memWf (s : State) (ctx : BitVec 16) (gen : BitVec 8) (h_s : MemWf s)
    : MemWf (dropElements s ctx gen) := by
  unfold dropElements
  repeat' (first
      | with_reducible assumption
      | (intro z; refine (fun hz : MemWf z => ?_) ?_; rotate_left; subst z; rotate_right; clear_value z)
      | (intro z; clear_value z) | intro _ | lift_lets -underBinder | with_reducible apply dropCopies_memWf
      | with_reducible apply State.setTower_memWf | with_reducible apply leaveWaiters_memWf
      | with_reducible apply foldl_memWf | with_reducible apply foldlSnd_memWf | with_reducible apply foldlFst_memWf
      | split | simp -zeta only [MemWf.made, MemWf.form])

theorem clearHeld_memWf (s : State) (ctx : BitVec 16) (h_s : MemWf s)
    : MemWf (clearHeld s ctx) := by
  unfold clearHeld
  repeat' (first
      | with_reducible assumption
      | (intro z; refine (fun hz : MemWf z => ?_) ?_; rotate_left; subst z; rotate_right; clear_value z)
      | (intro z; clear_value z) | intro _ | lift_lets -underBinder | with_reducible apply grantWaiters_memWf
      | with_reducible apply writeWord_memWf | with_reducible apply foldl_memWf | with_reducible apply foldlSnd_memWf
      | with_reducible apply foldlFst_memWf | split)

theorem killInstances_memWf (s : State) (ctx : BitVec 16) (gen : BitVec 8) (h_s : MemWf s)
    : MemWf (killInstances s ctx gen) := by
  unfold killInstances
  repeat' (first
      | with_reducible assumption
      | (intro z; refine (fun hz : MemWf z => ?_) ?_; rotate_left; subst z; rotate_right; clear_value z)
      | (intro z; clear_value z) | intro _ | lift_lets -underBinder | with_reducible apply setHeaderState_memWf
      | with_reducible apply setHeaderFault_memWf | with_reducible apply faultRecord_memWf
      | with_reducible apply disarm_memWf | with_reducible apply foldl_memWf | with_reducible apply foldlSnd_memWf
      | with_reducible apply foldlFst_memWf | split)

theorem killContext_memWf (s : State) (ctx : BitVec 16) (gen : BitVec 8) (h_s : MemWf s)
    : MemWf (killContext s ctx gen) := by
  unfold killContext
  repeat' (first
      | with_reducible assumption
      | (intro z; refine (fun hz : MemWf z => ?_) ?_; rotate_left; subst z; rotate_right; clear_value z)
      | (intro z; clear_value z) | intro _ | lift_lets -underBinder | with_reducible apply writeByte_memWf
      | with_reducible apply stopRecords_memWf | with_reducible apply clearHeld_memWf
      | with_reducible apply dropElements_memWf | with_reducible apply killInstances_memWf
      | with_reducible apply State.mapHub_memWf | with_reducible apply flushTag_memWf | split
      | simp -zeta only [MemWf.made, MemWf.form])

theorem execCkillWrite_memWf (s : State) (h_s : MemWf s) {st' : State} : (execCkillWrite s) = .next st' →
    MemWf st' := by
  unfold execCkillWrite
  repeat' (first
      | with_reducible assumption | with_reducible refine next_memWf ?_
      | (intro z; refine (fun hz : MemWf z => ?_) ?_; rotate_left; subst z; rotate_right; clear_value z)
      | (intro z; clear_value z) | lift_lets -underBinder | with_reducible apply mgmtAccess_memWf
      | with_reducible apply hubRecord_memWf | with_reducible apply killContext_memWf | split | intro _)

theorem execDomainWrite_memWf (s : State) (h_s : MemWf s) {st' : State} : (execDomainWrite s) = .next st' →
    MemWf st' := by
  unfold execDomainWrite
  repeat' (first
      | with_reducible assumption | with_reducible refine next_memWf ?_ | with_reducible apply mgmtAccess_memWf
      | with_reducible apply State.mapHub_memWf | split | simp -zeta only [MemWf.made, MemWf.form] | intro _)

theorem loseFrames_memWf (s : State) (slot : Nat) (h_s : MemWf s)
    : MemWf (loseFrames s slot) := by
  unfold loseFrames
  repeat' (first
      | with_reducible assumption | intro _ | with_reducible apply writeBytesRaw_memWf
      | with_reducible apply foldl_memWf | with_reducible apply foldlSnd_memWf | with_reducible apply foldlFst_memWf
      | split)

theorem execKeyWrite_memWf (s : State) (h_s : MemWf s) {st' : State} : (execKeyWrite s) = .next st' →
    MemWf st' := by
  unfold execKeyWrite
  repeat' (first
      | with_reducible assumption | with_reducible refine next_memWf ?_
      | (intro z; refine (fun hz : MemWf z => ?_) ?_; rotate_left; subst z; rotate_right; clear_value z)
      | (intro z; clear_value z) | lift_lets -underBinder | with_reducible apply mgmtAccess_memWf
      | with_reducible apply State.mapHub_memWf | with_reducible apply loseFrames_memWf | split
      | simp -zeta only [MemWf.made, MemWf.form] | intro _)

theorem execDbgcGo_memWf (s : State) (h_s : MemWf s) {st' : State} : (execDbgcGo s) = .next st' →
    MemWf st' := by
  unfold execDbgcGo
  repeat' (first
      | with_reducible assumption | with_reducible refine next_memWf ?_
      | (intro z; refine (fun hz : MemWf z => ?_) ?_; rotate_left; subst z; rotate_right; clear_value z)
      | (intro z; clear_value z) | lift_lets -underBinder | with_reducible apply mgmtAccess_memWf
      | with_reducible apply State.setCore_memWf | split | intro _)

theorem execRslenWrite_memWf (s : State) (h_s : MemWf s) {st' : State} : (execRslenWrite s) = .next st' →
    MemWf st' := by
  unfold execRslenWrite
  repeat' (first
      | with_reducible assumption | with_reducible refine next_memWf ?_ | with_reducible apply mgmtAccess_memWf
      | with_reducible apply writeTower_memWf | split | simp -zeta only [MemWf.made, MemWf.form] | intro _)

theorem execRoutineStoreWrite_memWf (s : State) (h_s : MemWf s) {st' : State} : (execRoutineStoreWrite s) = .next st'
    →
    MemWf st' := by
  unfold execRoutineStoreWrite
  repeat' (first
      | with_reducible assumption | with_reducible refine next_memWf ?_
      | (intro z; refine (fun hz : MemWf z => ?_) ?_; rotate_left; subst z; rotate_right; clear_value z)
      | (intro z; clear_value z) | lift_lets -underBinder | with_reducible apply mgmtAccess_memWf
      | with_reducible apply State.setTower_memWf | with_reducible apply discardWrite_memWf
      | with_reducible apply foldl_memWf | with_reducible apply foldlSnd_memWf | with_reducible apply foldlFst_memWf
      | split | intro _)

theorem execAttgoWrite_memWf (s : State) (h_s : MemWf s) {st' : State} : (execAttgoWrite s) = .next st' →
    MemWf st' := by
  unfold execAttgoWrite
  repeat' (first
      | with_reducible assumption | with_reducible refine next_memWf ?_
      | (intro z; refine (fun hz : MemWf z => ?_) ?_; rotate_left; subst z; rotate_right; clear_value z)
      | (intro z; clear_value z) | lift_lets -underBinder | with_reducible apply mgmtAccess_memWf
      | with_reducible apply State.mapHub_memWf | split | simp -zeta only [MemWf.made, MemWf.form] | intro _)

theorem execPorterrClear_memWf (s : State) (h_s : MemWf s) {st' : State} : (execPorterrClear s) = .next st' →
    MemWf st' := by
  unfold execPorterrClear
  repeat' (first
      | with_reducible assumption | with_reducible refine next_memWf ?_
      | (intro z; refine (fun hz : MemWf z => ?_) ?_; rotate_left; subst z; rotate_right; clear_value z)
      | (intro z; clear_value z) | lift_lets -underBinder | with_reducible apply mgmtAccess_memWf
      | with_reducible apply State.setPort_memWf | split | intro _)

/-! ### Schedule -/

theorem tick_memWf (s : State) (h_s : MemWf s)
    : MemWf (tick s) := by
  unfold tick
  repeat' (first
      | with_reducible assumption
      | (intro z; refine (fun hz : MemWf z => ?_) ?_; rotate_left; subst z; rotate_right; clear_value z)
      | (intro z; clear_value z) | lift_lets -underBinder | with_reducible apply State.pass_memWf
      | simp -zeta only [MemWf.made, MemWf.form])

theorem advance_memWf (ex : Instr → State → Out) (s : State) (h : MemWf s) : MemWf (advance ex s) :=
  ite_memWf h (tick_memWf s h)

theorem idle_memWf (s : State) (h_s : MemWf s)
    : MemWf (idle s) := by
  unfold idle
  repeat' (first
      | with_reducible assumption | with_reducible apply State.pass_memWf | split
      | simp -zeta only [MemWf.made, MemWf.form])

theorem placeWord_memWf (s : State) (_nbits : Nat) (w : Nat) (h_s : MemWf s)
    : MemWf (placeWord s _nbits w) := by
  unfold placeWord
  repeat' (first
      | with_reducible assumption
      | (intro z; refine (fun hz : MemWf z => ?_) ?_; rotate_left; subst z; rotate_right; clear_value z)
      | (intro z; clear_value z) | intro _ | lift_lets -underBinder | with_reducible apply State.setTower_memWf
      | with_reducible apply foldl_memWf | with_reducible apply foldlSnd_memWf | with_reducible apply foldlFst_memWf
      | split | simp -zeta only [MemWf.made, MemWf.form])

/-! ### The next row, and every row -/

/-- What a pick keeps of the state it is made from. -/
def Pick.Keeps (s : State) (p : Pick) : Prop := ∀ i t, p = some (i, t) → t.mem = s.mem

theorem Pick.keeps_none (s : State) : Pick.Keeps s none := fun _ _ e => by cases e
theorem Pick.keeps_some {s t : State} {i : Instr} (h : t.mem = s.mem) : Pick.Keeps s (some (i, t)) := fun _ _ e => by
  cases e; exact h

theorem issueSlot_keeps (s : State) (c : CoreId) (cur : Current) (x : Fin 8) : Pick.Keeps s (issueSlot s c cur x) := by
  unfold issueSlot
  split
  · exact Pick.keeps_some rfl
  · exact Pick.keeps_none s

theorem coreNext_keeps (ex : Instr → State → Out) (s : State) (c : CoreId) : Pick.Keeps s (coreNext ex s c) := by
  unfold coreNext
  split
  · intro i t e
    obtain ⟨cur, -, h⟩ := Option.bind_eq_some_iff.1 e
    exact issueSlot_keeps s c cur _ i t h
  · exact Pick.keeps_some rfl
  · exact Pick.keeps_none s

theorem curdNext_keeps (s : State) (t : TowerId) : Pick.Keeps s (curdNext s t) := by
  unfold curdNext
  dsimp only
  repeat' (first
    | exact Pick.keeps_none s
    | exact Pick.keeps_some rfl
    | split)

theorem walkerNext_keeps (s : State) (t : TowerId) : Pick.Keeps s (walkerNext s t) := by
  unfold walkerNext
  dsimp only
  split
  · exact Pick.keeps_some rfl
  · split
    · exact Pick.keeps_some rfl
    · exact Pick.keeps_none s

theorem actorNext_keeps (ex : Instr → State → Out) (s : State) (a : Actor) : Pick.Keeps s (actorNext ex s a) := by
  cases a with
  | core c => exact coreNext_keeps ex s c
  | curd t => exact curdNext_keeps s t
  | walker t => exact walkerNext_keeps s t

theorem turnFrom_keeps (ex : Instr → State → Out) (s : State) : ∀ f n, Pick.Keeps s (turnFrom ex s f n)
  | 0, _ => Pick.keeps_none s
  | f + 1, n => by
    unfold turnFrom
    split
    · rename_i e
      have h := actorNext_keeps ex s _ _ _ e
      exact Pick.keeps_some h
    · exact turnFrom_keeps ex s f (n + 1)

theorem nextRow_keeps (ex : Instr → State → Out) (s : State) : Pick.Keeps s (nextRow ex s) := by
  unfold nextRow
  split
  · exact Pick.keeps_some rfl
  · split
    · exact coreNext_keeps ex s _
    · split
      · exact Pick.keeps_some rfl
      · intro i t e
        exact turnFrom_keeps ex { s with engines := false } 136 _ i t e

/-- The instructions keep the form of memory. -/
theorem exec_memWf (i : Instr) (s : State) (h : MemWf s) {t : State} : exec i s = .next t → MemWf t :=
  match i with
  | .cBr o => execCBr_memWf o s h
  | .cBsz o => execCBsz_memWf o s h
  | .cBsnz o => execCBsnz_memWf o s h
  | .cCall o => execCCall_memWf o s h
  | .cJr o => execCJr_memWf o s h
  | .cCallr o => execCCallr_memWf o s h
  | .cRet o => execCRet_memWf o s h
  | .cLoop o => execCLoop_memWf o s h
  | .cNest o => execCNest_memWf o s h
  | .cWaitb o => execCWaitb_memWf o s h
  | .cWaitr o => execCWaitr_memWf o s h
  | .cWaitq o => execCWaitq_memWf o s h
  | .cWaitt o => execCWaitt_memWf o s h
  | .stalledWaitSatisfied => execStalledWaitSatisfied_memWf s h
  | .wake => execWake_memWf s h
  | .cRcr o => execCRcr_memWf o s h
  | .cWcr o => execCWcr_memWf o s h
  | .cScr o => execCScr_memWf o s h
  | .cCcr o => execCCcr_memWf o s h
  | .cSpop o => execCSpop_memWf o s h
  | .cTrap o => execCTrap_memWf o s h
  | .cBrk o => execCBrk_memWf o s h
  | .cHalt o => execCHalt_memWf o s h
  | .aAdd o => execAAdd_memWf o s h
  | .aSub o => execASub_memWf o s h
  | .aAnd o => execAAnd_memWf o s h
  | .aOr o => execAOr_memWf o s h
  | .aXor o => execAXor_memWf o s h
  | .aAndn o => execAAndn_memWf o s h
  | .aOrn o => execAOrn_memWf o s h
  | .aXnor o => execAXnor_memWf o s h
  | .aShl o => execAShl_memWf o s h
  | .aShr o => execAShr_memWf o s h
  | .aSra o => execASra_memWf o s h
  | .aRor o => execARor_memWf o s h
  | .aMin o => execAMin_memWf o s h
  | .aMax o => execAMax_memWf o s h
  | .aMinu o => execAMinu_memWf o s h
  | .aMaxu o => execAMaxu_memWf o s h
  | .aAdds o sh => execAAdds_memWf o sh s h
  | .aMul o => execAMul_memWf o s h
  | .aMulh o => execAMulh_memWf o s h
  | .aMulhu o => execAMulhu_memWf o s h
  | .aDiv o => execADiv_memWf o s h
  | .aDivu o => execADivu_memWf o s h
  | .aRem o => execARem_memWf o s h
  | .aRemu o => execARemu_memWf o s h
  | .aCeq o => execACeq_memWf o s h
  | .aCne o => execACne_memWf o s h
  | .aClt o => execAClt_memWf o s h
  | .aCge o => execACge_memWf o s h
  | .aCltu o => execACltu_memWf o s h
  | .aCgeu o => execACgeu_memWf o s h
  | .aCtst o => execACtst_memWf o s h
  | .aCntst o => execACntst_memWf o s h
  | .aSel o => execASel_memWf o s h
  | .aClz o => execAClz_memWf o s h
  | .aCtz o => execACtz_memWf o s h
  | .aPopc o => execAPopc_memWf o s h
  | .aPand o => execAPand_memWf o s h
  | .aPor o => execAPor_memWf o s h
  | .aPxor o => execAPxor_memWf o s h
  | .aPandn o => execAPandn_memWf o s h
  | .aAddi o => execAAddi_memWf o s h
  | .aAndi o => execAAndi_memWf o s h
  | .aOri o => execAOri_memWf o s h
  | .aXori o => execAXori_memWf o s h
  | .aShli o => execAShli_memWf o s h
  | .aShri o => execAShri_memWf o s h
  | .aSrai o => execASrai_memWf o s h
  | .aCeqi o => execACeqi_memWf o s h
  | .aClti o => execAClti_memWf o s h
  | .aCltui o => execACltui_memWf o s h
  | .aMovi o => execAMovi_memWf o s h
  | .aCat o => execACat_memWf o s h
  | .lLde o => execLLde_memWf o s h
  | .lLdei o => execLLdei_memWf o s h
  | .lLdv o => execLLdv_memWf o s h
  | .lLdvi o => execLLdvi_memWf o s h
  | .lPf o => execLPf_memWf o s h
  | .lPfL2 o => execLPfL2_memWf o s h
  | .lPfTile o => execLPfTile_memWf o s h
  | .lGpop o => execLGpop_memWf o s h
  | .lHld o => execLHld_memWf o s h
  | .lAdv o => execLAdv_memWf o s h
  | .loadDataReturn => execLoadDataReturn_memWf s h
  | .wSte o => execWSte_memWf o s h
  | .wStv o => execWStv_memWf o s h
  | .wAadd o use => execWAadd_memWf o use s h
  | .wAand o use => execWAand_memWf o use s h
  | .wAor o use => execWAor_memWf o use s h
  | .wAxor o use => execWAxor_memWf o use s h
  | .wAmin o use => execWAmin_memWf o use s h
  | .wAmax o use => execWAmax_memWf o use s h
  | .wAminu o use => execWAminu_memWf o use s h
  | .wAmaxu o use => execWAmaxu_memWf o use s h
  | .wAswp o use => execWAswp_memWf o use s h
  | .wAcas o use => execWAcas_memWf o use s h
  | .wArd o use => execWArd_memWf o use s h
  | .atomicAtHome => execAtomicAtHome_memWf s h
  | .combineBufferFlush => execCombineBufferFlush_memWf s h
  | .wFrel o => execWFrel_memWf o s h
  | .wFacq o => execWFacq_memWf o s h
  | .wFall o => execWFall_memWf o s h
  | .wAcq o => execWAcq_memWf o s h
  | .wRel o => execWRel_memWf o s h
  | .syncAcquireAtHome => execSyncAcquireAtHome_memWf s h
  | .syncReleaseAtHome => execSyncReleaseAtHome_memWf s h
  | .wBind o => execWBind_memWf o s h
  | .wRacq o => execWRacq_memWf o s h
  | .wRrel o => execWRrel_memWf o s h
  | .vFadd o ty => execVFadd_memWf o ty s h
  | .vFsub o ty => execVFsub_memWf o ty s h
  | .vFmul o ty => execVFmul_memWf o ty s h
  | .vFma o ty => execVFma_memWf o ty s h
  | .vFnma o ty => execVFnma_memWf o ty s h
  | .vFmax o ty => execVFmax_memWf o ty s h
  | .vFmin o ty => execVFmin_memWf o ty s h
  | .vFceq o ty => execVFceq_memWf o ty s h
  | .vFclt o ty => execVFclt_memWf o ty s h
  | .vFcle o ty => execVFcle_memWf o ty s h
  | .vFabs o ty => execVFabs_memWf o ty s h
  | .vFneg o ty => execVFneg_memWf o ty s h
  | .vXscl o ty => execVXscl_memWf o ty s h
  | .vAdd o ty => execVAdd_memWf o ty s h
  | .vSub o ty => execVSub_memWf o ty s h
  | .vMul o ty => execVMul_memWf o ty s h
  | .vAdds o ty => execVAdds_memWf o ty s h
  | .vSubs o ty => execVSubs_memWf o ty s h
  | .vMin o ty => execVMin_memWf o ty s h
  | .vMax o ty => execVMax_memWf o ty s h
  | .vAnd o ty => execVAnd_memWf o ty s h
  | .vOr o ty => execVOr_memWf o ty s h
  | .vXor o ty => execVXor_memWf o ty s h
  | .vShl o ty => execVShl_memWf o ty s h
  | .vSra o ty => execVSra_memWf o ty s h
  | .vShr o ty => execVShr_memWf o ty s h
  | .vCeq o ty => execVCeq_memWf o ty s h
  | .vClt o ty => execVClt_memWf o ty s h
  | .vKand o => execVKand_memWf o s h
  | .vKor o => execVKor_memWf o s h
  | .vKxor o => execVKxor_memWf o s h
  | .vKandn o => execVKandn_memWf o s h
  | .vRsum o ty => execVRsum_memWf o ty s h
  | .vRmax o ty => execVRmax_memWf o ty s h
  | .vRmin o ty => execVRmin_memWf o ty s h
  | .vRisum o ty => execVRisum_memWf o ty s h
  | .vPerm o ty => execVPerm_memWf o ty s h
  | .vBcst o ty => execVBcst_memWf o ty s h
  | .vSlide o ty => execVSlide_memWf o ty s h
  | .vExp2r o ty => execVExp2r_memWf o ty s h
  | .vExp2f o ty => execVExp2f_memWf o ty s h
  | .vLog2r o ty => execVLog2r_memWf o ty s h
  | .vLog2f o ty => execVLog2f_memWf o ty s h
  | .vRcpr o ty => execVRcpr_memWf o ty s h
  | .vRcpf o ty => execVRcpf_memWf o ty s h
  | .vRsqr o ty => execVRsqr_memWf o ty s h
  | .vRsqf o ty => execVRsqf_memWf o ty s h
  | .vTanhr o ty => execVTanhr_memWf o ty s h
  | .vTanhf o ty => execVTanhf_memWf o ty s h
  | .vSinr o ty => execVSinr_memWf o ty s h
  | .vSinf o ty => execVSinf_memWf o ty s h
  | .vCosr o ty => execVCosr_memWf o ty s h
  | .vCosf o ty => execVCosf_memWf o ty s h
  | .xCvt o => execXCvt_memWf o s h
  | .xBpt o => execXBpt_memWf o s h
  | .xTrr o => execXTrr_memWf o s h
  | .xTrc o => execXTrc_memWf o s h
  | .xMxq o => execXMxq_memWf o s h
  | .xMxd o => execXMxd_memWf o s h
  | .xSaq o => execXSaq_memWf o s h
  | .xPack o => execXPack_memWf o s h
  | .xUnpk o => execXUnpk_memWf o s h
  | .xVtos o => execXVtos_memWf o s h
  | .xStov o => execXStov_memWf o s h
  | .mRun8 o => execMRun8_memWf o s h
  | .mRun4 o => execMRun4_memWf o s h
  | .mRunt o => execMRunt_memWf o s h
  | .mWin o => execMWin_memWf o s h
  | .mWsc o => execMWsc_memWf o s h
  | .mSwap o => execMSwap_memWf o s h
  | .mProm o => execMProm_memWf o s h
  | .mDrain o => execMDrain_memWf o s h
  | .mZrd o => execMZrd_memWf o s h
  | .mBrd o => execMBrd_memWf o s h
  | .mZclr o => execMZclr_memWf o s h
  | .mFold o => execMFold_memWf o s h
  | .mClip o => execMClip_memWf o s h
  | .mCal o => execMCal_memWf o s h
  | .mPin o => execMPin_memWf o s h
  | .swapExchange => execSwapExchange_memWf s h
  | .passEnd => execPassEnd_memWf s h
  | .promotion => execPromotion_memWf s h
  | .driftCapRise => execDriftCapRise_memWf s h
  | .columnRetrim => execColumnRetrim_memWf s h
  | .backgroundCalibration => execBackgroundCalibration_memWf s h
  | .rebuildComplete => execRebuildComplete_memWf s h
  | .changeOfRoles => execChangeOfRoles_memWf s h
  | .eCpush o => execECpush_memWf o s h
  | .eCpop o => execECpop_memWf o s h
  | .eGidx o => execEGidx_memWf o s h
  | .eBarm o => execEBarm_memWf o s h
  | .eBexp o => execEBexp_memWf o s h
  | .eBarv o => execEBarv_memWf o s h
  | .eCq o => execECq_memWf o s h
  | .eCqi o => execECqi_memWf o s h
  | .eCqpop o => execECqpop_memWf o s h
  | .eOsend o => execEOsend_memWf o s h
  | .eUsend o => execEUsend_memWf o s h
  | .eCsend o => execECsend_memWf o s h
  | .eRecv o => execERecv_memWf o s h
  | .eSpawn o => execESpawn_memWf o s h
  | .eDec o => execEDec_memWf o s h
  | .eDone o => execEDone_memWf o s h
  | .eArm o => execEArm_memWf o s h
  | .ePrime o => execEPrime_memWf o s h
  | .bundleEntry => execBundleEntry_memWf s h
  | .bundleCommit => execBundleCommit_memWf s h
  | .resultLand => execResultLand_memWf s h
  | .restartMarkEstablish => execRestartMarkEstablish_memWf s h
  | .stampDue => execStampDue_memWf s h
  | .preciseFault => execPreciseFault_memWf s h
  | .engineFault => execEngineFault_memWf s h
  | .replayAck => execReplayAck_memWf s h
  | .replayNak => execReplayNak_memWf s h
  | .retryBackoffExpiry => execRetryBackoffExpiry_memWf s h
  | .garmStore => execGarmStore_memWf s h
  | .gprimeStore => execGprimeStore_memWf s h
  | .gctlResume => execGctlResume_memWf s h
  | .gctlRestart => execGctlRestart_memWf s h
  | .gctlAbandon => execGctlAbandon_memWf s h
  | .abandonComplete => execAbandonComplete_memWf s h
  | .successorDecrement => execSuccessorDecrement_memWf s h
  | .spawnAtHomeRennet => execSpawnAtHomeRennet_memWf s h
  | .dispatch => execDispatch_memWf s h
  | .stagedDispatch => execStagedDispatch_memWf s h
  | .displacementRequest => execDisplacementRequest_memWf s h
  | .yield => execYield_memWf s h
  | .yieldTimeout => execYieldTimeout_memWf s h
  | .preemptWritebackDone => execPreemptWritebackDone_memWf s h
  | .fusionChange => execFusionChange_memWf s h
  | .podRecordForward => execPodRecordForward_memWf s h
  | .podRecordResponse => execPodRecordResponse_memWf s h
  | .churnParamWrite => execChurnParamWrite_memWf s h
  | .churnGoWrite => execChurnGoWrite_memWf s h
  | .copyStart => execCopyStart_memWf s h
  | .copyComplete => execCopyComplete_memWf s h
  | .granuleHoldRelease => execGranuleHoldRelease_memWf s h
  | .gatherRowDeliver => execGatherRowDeliver_memWf s h
  | .barrierArm => execBarrierArm_memWf s h
  | .barrierExpect => execBarrierExpect_memWf s h
  | .barrierArrival => execBarrierArrival_memWf s h
  | .curdQueryAccept => execCurdQueryAccept_memWf s h
  | .curdResultDeliver => execCurdResultDeliver_memWf s h
  | .curdProgramStart => execCurdProgramStart_memWf s h
  | .curdRefreshWindow => execCurdRefreshWindow_memWf s h
  | .qNop w => execQNop_memWf w s h
  | .qArg w d imm => execQArg_memWf w d imm s h
  | .qAddi w d a imm => execQAddi_memWf w d a imm s h
  | .qRd w d a f => execQRd_memWf w d a f s h
  | .qWr w a b f => execQWr_memWf w a b f s h
  | .qLook w d a b => execQLook_memWf w d a b s h
  | .qLerp w d a b => execQLerp_memWf w d a b s h
  | .qTld w a b imm => execQTld_memWf w a b imm s h
  | .qAdd w d a b => execQAdd_memWf w d a b s h
  | .qAdds w d a b => execQAdds_memWf w d a b s h
  | .qSub w d a b => execQSub_memWf w d a b s h
  | .qSubs w d a b => execQSubs_memWf w d a b s h
  | .qExt w d a imm => execQExt_memWf w d a imm s h
  | .qExts w d a imm => execQExts_memWf w d a imm s h
  | .qIns w d a b imm => execQIns_memWf w d a b imm s h
  | .qLoop w a imm => execQLoop_memWf w a imm s h
  | .qEnd w => execQEnd_memWf w s h
  | .walkerRequest => execWalkerRequest_memWf s h
  | .routineTimeout => execRoutineTimeout_memWf s h
  | .wkLdp t r d => execWkLdp_memWf t r d s h
  | .wkLdh t r d => execWkLdh_memWf t r d s h
  | .wkDone t r d => execWkDone_memWf t r d s h
  | .wkFail t r d => execWkFail_memWf t r d s h
  | .wkInv t r d => execWkInv_memWf t r d s h
  | .wkChn t r d => execWkChn_memWf t r d s h
  | .hostHandoverAnswer => execHostHandoverAnswer_memWf s h
  | .handoverTimeout => execHandoverTimeout_memWf s h
  | .sliceRetire => execSliceRetire_memWf s h
  | .sliceRestore => execSliceRestore_memWf s h
  | .eccError => execEccError_memWf s h
  | .sramScrub => execSramScrub_memWf s h
  | .dramPatrolScrub => execDramPatrolScrub_memWf s h
  | .dramRefresh => execDramRefresh_memWf s h
  | .telemetry => execTelemetry_memWf s h
  | .parityRotationCopy => execParityRotationCopy_memWf s h
  | .parityRotationSwitch => execParityRotationSwitch_memWf s h
  | .thermalReading => execThermalReading_memWf s h
  | .powerPacing => execPowerPacing_memWf s h
  | .flitReceive => execFlitReceive_memWf s h
  | .linkNakReceive => execLinkNakReceive_memWf s h
  | .beaconSend => execBeaconSend_memWf s h
  | .orderedInject => execOrderedInject_memWf s h
  | .orderedDeliver => execOrderedDeliver_memWf s h
  | .circuitSlotSend => execCircuitSlotSend_memWf s h
  | .circuitDeliver => execCircuitDeliver_memWf s h
  | .receiveRingWrite => execReceiveRingWrite_memWf s h
  | .portDown => execPortDown_memWf s h
  | .portTrained => execPortTrained_memWf s h
  | .portTrainingTimeout => execPortTrainingTimeout_memWf s h
  | .watermarkStall => execWatermarkStall_memWf s h
  | .packetHeldTimeout => execPacketHeldTimeout_memWf s h
  | .podTimeSlew => execPodTimeSlew_memWf s h
  | .podTimeDrift => execPodTimeDrift_memWf s h
  | .lockstepSignatureSend => execLockstepSignatureSend_memWf s h
  | .lockstepSignatureReceive => execLockstepSignatureReceive_memWf s h
  | .lockstepSignatureTimeout => execLockstepSignatureTimeout_memWf s h
  | .cxlLinkDown => execCxlLinkDown_memWf s h
  | .hostCxlMemAccess => execHostCxlMemAccess_memWf s h
  | .mgmtRegisterWrite => execMgmtRegisterWrite_memWf s h
  | .ctxwinWrite => execCtxwinWrite_memWf s h
  | .invselWrite => execInvselWrite_memWf s h
  | .ckillWrite => execCkillWrite_memWf s h
  | .domainWrite => execDomainWrite_memWf s h
  | .keyWrite => execKeyWrite_memWf s h
  | .dbgcGo => execDbgcGo_memWf s h
  | .rslenWrite => execRslenWrite_memWf s h
  | .routineStoreWrite => execRoutineStoreWrite_memWf s h
  | .attgoWrite => execAttgoWrite_memWf s h
  | .porterrClear => execPorterrClear_memWf s h
  | .reset => execReset_memWf s h
  | .readyBitSet => execReadyBitSet_memWf s h
  | .cxlCompletionTimeout => execCxlCompletionTimeout_memWf s h

end Sys2Proof.Machine
end

