-- ==== Sys2Proof/Laws/Words.lean ====
section
/-! SUPPORT. The fields of a packed word read back, and decoding of a word that a pack has made. -/

set_option linter.unusedSimpArgs false

namespace Sys2Proof

/-! ### Fields of an appended word -/

theorem field_above {n m : Nat} (k l : Nat) (x : BitVec n) (y : BitVec m) (h : m ≤ k) :
    (x ++ y).extractLsb' k l = x.extractLsb' (k - m) l := by
  ext i hi
  simp only [BitVec.getElem_extractLsb', BitVec.getLsbD_append]
  rw [if_neg (by omega)]
  congr 1
  omega

theorem field_last {n m : Nat} (x : BitVec n) (y : BitVec m) : (x ++ y).extractLsb' 0 m = y := by
  ext i hi
  simp only [BitVec.getElem_extractLsb', BitVec.getLsbD_append]
  rw [if_pos (by omega), Nat.zero_add, BitVec.getLsbD_eq_getElem hi]

theorem field_whole {n : Nat} (x : BitVec n) : x.extractLsb' 0 n = x := by
  ext i hi
  rw [BitVec.getElem_extractLsb', Nat.zero_add, BitVec.getLsbD_eq_getElem hi]

/-! ### The slot formats -/

theorem major_packT (maj : BitVec 6) (fn : BitVec 3) (o : OpT) : major (packT maj fn o) = maj := by
  have e (k l : Nat) (x : BitVec 31) : @BitVec.extractLsb' 31 k l x = @BitVec.extractLsb' (6 + 6 + 6 + 6 + 4 + 3) k l x := rfl
  unfold major packT
  simp only [e, field_above, field_whole, field_last, Nat.reduceSub, Nat.reduceLeDiff]

theorem unpackT_pack (maj : BitVec 6) (fn : BitVec 3) (o : OpT) : unpackT (packT maj fn o) = o := by
  have e (k l : Nat) (x : BitVec 31) : @BitVec.extractLsb' 31 k l x = @BitVec.extractLsb' (6 + 6 + 6 + 6 + 4 + 3) k l x := rfl
  unfold unpackT packT
  simp only [e, field_above, field_whole, field_last, Nat.reduceSub, Nat.reduceLeDiff]

theorem fnField_packT (maj : BitVec 6) (fn : BitVec 3) (o : OpT) : fnField (packT maj fn o) = fn := by
  have e (k l : Nat) (x : BitVec 31) : @BitVec.extractLsb' 31 k l x = @BitVec.extractLsb' (6 + 6 + 6 + 6 + 4 + 3) k l x := rfl
  unfold fnField packT
  simp only [e, field_above, field_whole, field_last, Nat.reduceSub, Nat.reduceLeDiff]

theorem major_packI (maj : BitVec 6) (o : OpI) : major (packI maj o) = maj := by
  have e (k l : Nat) (x : BitVec 31) : @BitVec.extractLsb' 31 k l x = @BitVec.extractLsb' (6 + 6 + 6 + 9 + 4) k l x := rfl
  unfold major packI
  simp only [e, field_above, field_whole, field_last, Nat.reduceSub, Nat.reduceLeDiff]

theorem unpackI_pack (maj : BitVec 6) (o : OpI) : unpackI (packI maj o) = o := by
  have e (k l : Nat) (x : BitVec 31) : @BitVec.extractLsb' 31 k l x = @BitVec.extractLsb' (6 + 6 + 6 + 9 + 4) k l x := rfl
  unfold unpackI packI
  simp only [e, field_above, field_whole, field_last, Nat.reduceSub, Nat.reduceLeDiff]

theorem major_packJ (maj : BitVec 6) (o : OpJ) : major (packJ maj o) = maj := by
  have e (k l : Nat) (x : BitVec 31) : @BitVec.extractLsb' 31 k l x = @BitVec.extractLsb' (6 + 6 + 19) k l x := rfl
  unfold major packJ
  simp only [e, field_above, field_whole, field_last, Nat.reduceSub, Nat.reduceLeDiff]

theorem unpackJ_pack (maj : BitVec 6) (o : OpJ) : unpackJ (packJ maj o) = o := by
  have e (k l : Nat) (x : BitVec 31) : @BitVec.extractLsb' 31 k l x = @BitVec.extractLsb' (6 + 6 + 19) k l x := rfl
  unfold unpackJ packJ
  simp only [e, field_above, field_whole, field_last, Nat.reduceSub, Nat.reduceLeDiff]

theorem major_packB (maj : BitVec 6) (o : OpB) : major (packB maj o) = maj := by
  have e (k l : Nat) (x : BitVec 31) : @BitVec.extractLsb' 31 k l x = @BitVec.extractLsb' (6 + 4 + 1 + 20) k l x := rfl
  unfold major packB
  simp only [e, field_above, field_whole, field_last, Nat.reduceSub, Nat.reduceLeDiff]

theorem unpackB_pack (maj : BitVec 6) (o : OpB) : unpackB (packB maj o) = o := by
  have e (k l : Nat) (x : BitVec 31) : @BitVec.extractLsb' 31 k l x = @BitVec.extractLsb' (6 + 4 + 1 + 20) k l x := rfl
  unfold unpackB packB
  simp only [e, field_above, field_whole, field_last, Nat.reduceSub, Nat.reduceLeDiff]

theorem major_packBS (maj : BitVec 6) (o : OpBS) : major (packBS maj o) = maj := by
  have e (k l : Nat) (x : BitVec 31) : @BitVec.extractLsb' 31 k l x = @BitVec.extractLsb' (6 + 6 + 19) k l x := rfl
  unfold major packBS
  simp only [e, field_above, field_whole, field_last, Nat.reduceSub, Nat.reduceLeDiff]

theorem unpackBS_pack (maj : BitVec 6) (o : OpBS) : unpackBS (packBS maj o) = o := by
  have e (k l : Nat) (x : BitVec 31) : @BitVec.extractLsb' 31 k l x = @BitVec.extractLsb' (6 + 6 + 19) k l x := rfl
  unfold unpackBS packBS
  simp only [e, field_above, field_whole, field_last, Nat.reduceSub, Nat.reduceLeDiff]

theorem major_packH (maj : BitVec 6) (o : OpH) : major (packH maj o) = maj := by
  have e (k l : Nat) (x : BitVec 31) : @BitVec.extractLsb' 31 k l x = @BitVec.extractLsb' (6 + 6 + 5 + 6 + 4 + 4) k l x := rfl
  unfold major packH
  simp only [e, field_above, field_whole, field_last, Nat.reduceSub, Nat.reduceLeDiff]

theorem unpackH_pack (maj : BitVec 6) (o : OpH) : unpackH (packH maj o) = o := by
  have e (k l : Nat) (x : BitVec 31) : @BitVec.extractLsb' 31 k l x = @BitVec.extractLsb' (6 + 6 + 5 + 6 + 4 + 4) k l x := rfl
  unfold unpackH packH
  simp only [e, field_above, field_whole, field_last, Nat.reduceSub, Nat.reduceLeDiff]

theorem major_packXC (maj : BitVec 6) (o : OpXC) : major (packXC maj o) = maj := by
  have e (k l : Nat) (x : BitVec 31) : @BitVec.extractLsb' 31 k l x = @BitVec.extractLsb' (6 + 6 + 6 + 6 + 6 + 1) k l x := rfl
  unfold major packXC
  simp only [e, field_above, field_whole, field_last, Nat.reduceSub, Nat.reduceLeDiff]

theorem unpackXC_pack (maj : BitVec 6) (o : OpXC) : unpackXC (packXC maj o) = o := by
  have e (k l : Nat) (x : BitVec 31) : @BitVec.extractLsb' 31 k l x = @BitVec.extractLsb' (6 + 6 + 6 + 6 + 6 + 1) k l x := rfl
  unfold unpackXC packXC
  simp only [e, field_above, field_whole, field_last, Nat.reduceSub, Nat.reduceLeDiff]

theorem major_packMR (maj : BitVec 6) (o : OpMR) : major (packMR maj o) = maj := by
  have e (k l : Nat) (x : BitVec 31) : @BitVec.extractLsb' 31 k l x = @BitVec.extractLsb' (6 + 4 + 4 + 4 + 4 + 5 + 4) k l x := rfl
  unfold major packMR
  simp only [e, field_above, field_whole, field_last, Nat.reduceSub, Nat.reduceLeDiff]

theorem unpackMR_pack (maj : BitVec 6) (o : OpMR) : unpackMR (packMR maj o) = o := by
  have e (k l : Nat) (x : BitVec 31) : @BitVec.extractLsb' 31 k l x = @BitVec.extractLsb' (6 + 4 + 4 + 4 + 4 + 5 + 4) k l x := rfl
  unfold unpackMR packMR
  simp only [e, field_above, field_whole, field_last, Nat.reduceSub, Nat.reduceLeDiff]

/-- A word of an assigned major whose candidate breaks no encoding check decodes to it. -/
theorem decodeSlot_of (n : Fin 8) (w : BitVec 31) (i : Instr) (m : BitVec 6) (hm : major w = m) (h0 : ¬(m = 0 ∨ m = 0x3F))
    (hc : candidate n w = .ok i) (h : i.wellFormed = true) : decodeSlot n w = .ok (some i) := by
  have hz : w ≠ 0 := fun e => h0 (Or.inl (by rw [← hm, e]; rfl))
  have hn : encodingCode i = none := Option.isNone_iff_eq_none.mp h
  unfold decodeSlot
  rw [if_neg hz, hc]
  simp only [hn]

/-! ### Curd and walker words -/

theorem packQ_w (w op : BitVec 4) (d a b f : BitVec 3) (imm : BitVec 12) :
    (packQ w op d a b f imm).extractLsb' 28 4 = w := by
  have e (k l : Nat) (x : BitVec 32) : @BitVec.extractLsb' 32 k l x = @BitVec.extractLsb' (4 + 4 + 3 + 3 + 3 + 3 + 12) k l x := rfl
  unfold packQ
  simp only [e, field_above, field_whole, field_last, Nat.reduceSub, Nat.reduceLeDiff]

theorem packQ_op (w op : BitVec 4) (d a b f : BitVec 3) (imm : BitVec 12) :
    (packQ w op d a b f imm).extractLsb' 24 4 = op := by
  have e (k l : Nat) (x : BitVec 32) : @BitVec.extractLsb' 32 k l x = @BitVec.extractLsb' (4 + 4 + 3 + 3 + 3 + 3 + 12) k l x := rfl
  unfold packQ
  simp only [e, field_above, field_whole, field_last, Nat.reduceSub, Nat.reduceLeDiff]

theorem packQ_d (w op : BitVec 4) (d a b f : BitVec 3) (imm : BitVec 12) :
    (packQ w op d a b f imm).extractLsb' 21 3 = d := by
  have e (k l : Nat) (x : BitVec 32) : @BitVec.extractLsb' 32 k l x = @BitVec.extractLsb' (4 + 4 + 3 + 3 + 3 + 3 + 12) k l x := rfl
  unfold packQ
  simp only [e, field_above, field_whole, field_last, Nat.reduceSub, Nat.reduceLeDiff]

theorem packQ_a (w op : BitVec 4) (d a b f : BitVec 3) (imm : BitVec 12) :
    (packQ w op d a b f imm).extractLsb' 18 3 = a := by
  have e (k l : Nat) (x : BitVec 32) : @BitVec.extractLsb' 32 k l x = @BitVec.extractLsb' (4 + 4 + 3 + 3 + 3 + 3 + 12) k l x := rfl
  unfold packQ
  simp only [e, field_above, field_whole, field_last, Nat.reduceSub, Nat.reduceLeDiff]

theorem packQ_b (w op : BitVec 4) (d a b f : BitVec 3) (imm : BitVec 12) :
    (packQ w op d a b f imm).extractLsb' 15 3 = b := by
  have e (k l : Nat) (x : BitVec 32) : @BitVec.extractLsb' 32 k l x = @BitVec.extractLsb' (4 + 4 + 3 + 3 + 3 + 3 + 12) k l x := rfl
  unfold packQ
  simp only [e, field_above, field_whole, field_last, Nat.reduceSub, Nat.reduceLeDiff]

theorem packQ_f (w op : BitVec 4) (d a b f : BitVec 3) (imm : BitVec 12) :
    (packQ w op d a b f imm).extractLsb' 12 3 = f := by
  have e (k l : Nat) (x : BitVec 32) : @BitVec.extractLsb' 32 k l x = @BitVec.extractLsb' (4 + 4 + 3 + 3 + 3 + 3 + 12) k l x := rfl
  unfold packQ
  simp only [e, field_above, field_whole, field_last, Nat.reduceSub, Nat.reduceLeDiff]

theorem packQ_imm (w op : BitVec 4) (d a b f : BitVec 3) (imm : BitVec 12) :
    (packQ w op d a b f imm).extractLsb' 0 12 = imm := by
  have e (k l : Nat) (x : BitVec 32) : @BitVec.extractLsb' 32 k l x = @BitVec.extractLsb' (4 + 4 + 3 + 3 + 3 + 3 + 12) k l x := rfl
  unfold packQ
  simp only [e, field_above, field_whole, field_last, Nat.reduceSub, Nat.reduceLeDiff]

theorem packWk_head (fn : BitVec 3) (t s d : BitVec 5) : (packWk fn t s d).extractLsb' 25 7 = 0 := by
  have e (k l : Nat) (x : BitVec 32) : @BitVec.extractLsb' 32 k l x = @BitVec.extractLsb' (7 + 5 + 5 + 3 + 5 + 7) k l x := rfl
  unfold packWk
  simp only [e, field_above, field_whole, field_last, Nat.reduceSub, Nat.reduceLeDiff]

theorem packWk_t (fn : BitVec 3) (t s d : BitVec 5) : (packWk fn t s d).extractLsb' 20 5 = t := by
  have e (k l : Nat) (x : BitVec 32) : @BitVec.extractLsb' 32 k l x = @BitVec.extractLsb' (7 + 5 + 5 + 3 + 5 + 7) k l x := rfl
  unfold packWk
  simp only [e, field_above, field_whole, field_last, Nat.reduceSub, Nat.reduceLeDiff]

theorem packWk_s (fn : BitVec 3) (t s d : BitVec 5) : (packWk fn t s d).extractLsb' 15 5 = s := by
  have e (k l : Nat) (x : BitVec 32) : @BitVec.extractLsb' 32 k l x = @BitVec.extractLsb' (7 + 5 + 5 + 3 + 5 + 7) k l x := rfl
  unfold packWk
  simp only [e, field_above, field_whole, field_last, Nat.reduceSub, Nat.reduceLeDiff]

theorem packWk_fn (fn : BitVec 3) (t s d : BitVec 5) : (packWk fn t s d).extractLsb' 12 3 = fn := by
  have e (k l : Nat) (x : BitVec 32) : @BitVec.extractLsb' 32 k l x = @BitVec.extractLsb' (7 + 5 + 5 + 3 + 5 + 7) k l x := rfl
  unfold packWk
  simp only [e, field_above, field_whole, field_last, Nat.reduceSub, Nat.reduceLeDiff]

theorem packWk_d (fn : BitVec 3) (t s d : BitVec 5) : (packWk fn t s d).extractLsb' 7 5 = d := by
  have e (k l : Nat) (x : BitVec 32) : @BitVec.extractLsb' 32 k l x = @BitVec.extractLsb' (7 + 5 + 5 + 3 + 5 + 7) k l x := rfl
  unfold packWk
  simp only [e, field_above, field_whole, field_last, Nat.reduceSub, Nat.reduceLeDiff]

theorem packWk_op (fn : BitVec 3) (t s d : BitVec 5) : (packWk fn t s d).extractLsb' 0 7 = 0x0B := by
  have e (k l : Nat) (x : BitVec 32) : @BitVec.extractLsb' 32 k l x = @BitVec.extractLsb' (7 + 5 + 5 + 3 + 5 + 7) k l x := rfl
  unfold packWk
  simp only [e, field_above, field_whole, field_last, Nat.reduceSub, Nat.reduceLeDiff]

end Sys2Proof
end

