-- ==== Sys2Proof/Laws/PerInstr.lean ====
section
/-! SUPPORT. The statement of encoding and decoding made per instruction (R187, R190, R194 to R201, R344, R55), with one lemma per
constructor. -/

set_option linter.unusedSimpArgs false

namespace Sys2Proof.Laws.Encoding

/-- The rows of the walker's words (R55). -/
def walkerRow (i : Instr) : Bool :=
  match i with
  | .wkLdp _ _ _ => true
  | .wkLdh _ _ _ => true
  | .wkDone _ _ _ => true
  | .wkFail _ _ _ => true
  | .wkInv _ _ _ => true
  | .wkChn _ _ _ => true
  | _ => false

theorem prefetch_act {a : Nat} {o : OpH} (h : prefetchCode a o = none) : o.d.toNat = a := by
  unfold prefetchCode at h
  split at h
  · contradiction
  · omega

/-- The word that the encoder gives a well-formed instruction decodes to it: in its slot, as a curd word, or as a walker word. A
row that is no word has no slot and no word. -/
def Statement (i : Instr) : Prop := i.wellFormed = true →
  match slotOf i, encodeSlot i, encodeWord i with
  | some n, some w, none => decodeSlot n w = .ok (some i)
  | none, none, some w => if walkerRow i then decodeWalker w = some i else decodeCurd w = .ok i
  | none, none, none => True
  | _, _, _ => False

theorem cBr (o : OpB) : Statement (.cBr o) := fun h =>
  decodeSlot_of 0 _ _ _ (major_packB ..) (by decide) (by
    unfold candidate candidateC
    rw [major_packB, if_neg (by decide)]
    exact congrArg (fun o => Except.ok (Instr.cBr o)) (unpackB_pack ..)) h

theorem cBsz (o : OpBS) : Statement (.cBsz o) := fun h =>
  decodeSlot_of 0 _ _ _ (major_packBS ..) (by decide) (by
    unfold candidate candidateC
    rw [major_packBS, if_neg (by decide)]
    exact congrArg (fun o => Except.ok (Instr.cBsz o)) (unpackBS_pack ..)) h

theorem cBsnz (o : OpBS) : Statement (.cBsnz o) := fun h =>
  decodeSlot_of 0 _ _ _ (major_packBS ..) (by decide) (by
    unfold candidate candidateC
    rw [major_packBS, if_neg (by decide)]
    exact congrArg (fun o => Except.ok (Instr.cBsnz o)) (unpackBS_pack ..)) h

theorem cCall (o : OpJ) : Statement (.cCall o) := fun h =>
  decodeSlot_of 0 _ _ _ (major_packJ ..) (by decide) (by
    unfold candidate candidateC
    rw [major_packJ, if_neg (by decide)]
    exact congrArg (fun o => Except.ok (Instr.cCall o)) (unpackJ_pack ..)) h

theorem cJr (o : OpT) : Statement (.cJr o) := fun h =>
  decodeSlot_of 0 _ _ _ (major_packT ..) (by decide) (by
    unfold candidate candidateC
    rw [major_packT, if_neg (by decide), fnField_packT]
    exact congrArg (fun o => Except.ok (Instr.cJr o)) (unpackT_pack ..)) h

theorem cCallr (o : OpT) : Statement (.cCallr o) := fun h =>
  decodeSlot_of 0 _ _ _ (major_packT ..) (by decide) (by
    unfold candidate candidateC
    rw [major_packT, if_neg (by decide), fnField_packT]
    exact congrArg (fun o => Except.ok (Instr.cCallr o)) (unpackT_pack ..)) h

theorem cRet (o : OpT) : Statement (.cRet o) := fun h =>
  decodeSlot_of 0 _ _ _ (major_packT ..) (by decide) (by
    unfold candidate candidateC
    rw [major_packT, if_neg (by decide), fnField_packT]
    exact congrArg (fun o => Except.ok (Instr.cRet o)) (unpackT_pack ..)) h

theorem cLoop (o : OpI) : Statement (.cLoop o) := fun h =>
  decodeSlot_of 0 _ _ _ (major_packI ..) (by decide) (by
    unfold candidate candidateC
    rw [major_packI, if_neg (by decide)]
    exact congrArg (fun o => Except.ok (Instr.cLoop o)) (unpackI_pack ..)) h

theorem cNest (o : OpI) : Statement (.cNest o) := fun h =>
  decodeSlot_of 0 _ _ _ (major_packI ..) (by decide) (by
    unfold candidate candidateC
    rw [major_packI, if_neg (by decide)]
    exact congrArg (fun o => Except.ok (Instr.cNest o)) (unpackI_pack ..)) h

theorem cWaitb (o : OpT) : Statement (.cWaitb o) := fun h =>
  decodeSlot_of 0 _ _ _ (major_packT ..) (by decide) (by
    unfold candidate candidateC
    rw [major_packT, if_neg (by decide), fnField_packT]
    exact congrArg (fun o => Except.ok (Instr.cWaitb o)) (unpackT_pack ..)) h

theorem cWaitr (o : OpT) : Statement (.cWaitr o) := fun h =>
  decodeSlot_of 0 _ _ _ (major_packT ..) (by decide) (by
    unfold candidate candidateC
    rw [major_packT, if_neg (by decide), fnField_packT]
    exact congrArg (fun o => Except.ok (Instr.cWaitr o)) (unpackT_pack ..)) h

theorem cWaitq (o : OpT) : Statement (.cWaitq o) := fun h =>
  decodeSlot_of 0 _ _ _ (major_packT ..) (by decide) (by
    unfold candidate candidateC
    rw [major_packT, if_neg (by decide), fnField_packT]
    exact congrArg (fun o => Except.ok (Instr.cWaitq o)) (unpackT_pack ..)) h

theorem cWaitt (o : OpT) : Statement (.cWaitt o) := fun h =>
  decodeSlot_of 0 _ _ _ (major_packT ..) (by decide) (by
    unfold candidate candidateC
    rw [major_packT, if_neg (by decide), fnField_packT]
    exact congrArg (fun o => Except.ok (Instr.cWaitt o)) (unpackT_pack ..)) h

theorem stalledWaitSatisfied : Statement .stalledWaitSatisfied := fun _ => trivial

theorem wake : Statement .wake := fun _ => trivial

theorem cRcr (o : OpJ) : Statement (.cRcr o) := fun h =>
  decodeSlot_of 0 _ _ _ (major_packJ ..) (by decide) (by
    unfold candidate candidateC
    rw [major_packJ, if_neg (by decide)]
    exact congrArg (fun o => Except.ok (Instr.cRcr o)) (unpackJ_pack ..)) h

theorem cWcr (o : OpJ) : Statement (.cWcr o) := fun h =>
  decodeSlot_of 0 _ _ _ (major_packJ ..) (by decide) (by
    unfold candidate candidateC
    rw [major_packJ, if_neg (by decide)]
    exact congrArg (fun o => Except.ok (Instr.cWcr o)) (unpackJ_pack ..)) h

theorem cScr (o : OpJ) : Statement (.cScr o) := fun h =>
  decodeSlot_of 0 _ _ _ (major_packJ ..) (by decide) (by
    unfold candidate candidateC
    rw [major_packJ, if_neg (by decide)]
    exact congrArg (fun o => Except.ok (Instr.cScr o)) (unpackJ_pack ..)) h

theorem cCcr (o : OpJ) : Statement (.cCcr o) := fun h =>
  decodeSlot_of 0 _ _ _ (major_packJ ..) (by decide) (by
    unfold candidate candidateC
    rw [major_packJ, if_neg (by decide)]
    exact congrArg (fun o => Except.ok (Instr.cCcr o)) (unpackJ_pack ..)) h

theorem cSpop (o : OpT) : Statement (.cSpop o) := fun h =>
  decodeSlot_of 0 _ _ _ (major_packT ..) (by decide) (by
    unfold candidate candidateC
    rw [major_packT, if_neg (by decide), fnField_packT]
    exact congrArg (fun o => Except.ok (Instr.cSpop o)) (unpackT_pack ..)) h

theorem cTrap (o : OpJ) : Statement (.cTrap o) := fun h =>
  decodeSlot_of 0 _ _ _ (major_packJ ..) (by decide) (by
    unfold candidate candidateC
    rw [major_packJ, if_neg (by decide)]
    exact congrArg (fun o => Except.ok (Instr.cTrap o)) (unpackJ_pack ..)) h

theorem cBrk (o : OpJ) : Statement (.cBrk o) := fun h =>
  decodeSlot_of 0 _ _ _ (major_packJ ..) (by decide) (by
    unfold candidate candidateC
    rw [major_packJ, if_neg (by decide)]
    exact congrArg (fun o => Except.ok (Instr.cBrk o)) (unpackJ_pack ..)) h

theorem cHalt (o : OpT) : Statement (.cHalt o) := fun h =>
  decodeSlot_of 0 _ _ _ (major_packT ..) (by decide) (by
    unfold candidate candidateC
    rw [major_packT, if_neg (by decide), fnField_packT]
    exact congrArg (fun o => Except.ok (Instr.cHalt o)) (unpackT_pack ..)) h

theorem aAdd (o : OpT) : Statement (.aAdd o) := fun h =>
  decodeSlot_of 1 _ _ _ (major_packT ..) (by decide) (by
    unfold candidate candidateA
    rw [major_packT, if_neg (by decide), fnField_packT]
    exact congrArg (fun o => Except.ok (Instr.aAdd o)) (unpackT_pack ..)) h

theorem aSub (o : OpT) : Statement (.aSub o) := fun h =>
  decodeSlot_of 1 _ _ _ (major_packT ..) (by decide) (by
    unfold candidate candidateA
    rw [major_packT, if_neg (by decide), fnField_packT]
    exact congrArg (fun o => Except.ok (Instr.aSub o)) (unpackT_pack ..)) h

theorem aAnd (o : OpT) : Statement (.aAnd o) := fun h =>
  decodeSlot_of 1 _ _ _ (major_packT ..) (by decide) (by
    unfold candidate candidateA
    rw [major_packT, if_neg (by decide), fnField_packT]
    exact congrArg (fun o => Except.ok (Instr.aAnd o)) (unpackT_pack ..)) h

theorem aOr (o : OpT) : Statement (.aOr o) := fun h =>
  decodeSlot_of 1 _ _ _ (major_packT ..) (by decide) (by
    unfold candidate candidateA
    rw [major_packT, if_neg (by decide), fnField_packT]
    exact congrArg (fun o => Except.ok (Instr.aOr o)) (unpackT_pack ..)) h

theorem aXor (o : OpT) : Statement (.aXor o) := fun h =>
  decodeSlot_of 1 _ _ _ (major_packT ..) (by decide) (by
    unfold candidate candidateA
    rw [major_packT, if_neg (by decide), fnField_packT]
    exact congrArg (fun o => Except.ok (Instr.aXor o)) (unpackT_pack ..)) h

theorem aAndn (o : OpT) : Statement (.aAndn o) := fun h =>
  decodeSlot_of 1 _ _ _ (major_packT ..) (by decide) (by
    unfold candidate candidateA
    rw [major_packT, if_neg (by decide), fnField_packT]
    exact congrArg (fun o => Except.ok (Instr.aAndn o)) (unpackT_pack ..)) h

theorem aOrn (o : OpT) : Statement (.aOrn o) := fun h =>
  decodeSlot_of 1 _ _ _ (major_packT ..) (by decide) (by
    unfold candidate candidateA
    rw [major_packT, if_neg (by decide), fnField_packT]
    exact congrArg (fun o => Except.ok (Instr.aOrn o)) (unpackT_pack ..)) h

theorem aXnor (o : OpT) : Statement (.aXnor o) := fun h =>
  decodeSlot_of 1 _ _ _ (major_packT ..) (by decide) (by
    unfold candidate candidateA
    rw [major_packT, if_neg (by decide), fnField_packT]
    exact congrArg (fun o => Except.ok (Instr.aXnor o)) (unpackT_pack ..)) h

theorem aShl (o : OpT) : Statement (.aShl o) := fun h =>
  decodeSlot_of 1 _ _ _ (major_packT ..) (by decide) (by
    unfold candidate candidateA
    rw [major_packT, if_neg (by decide), fnField_packT]
    exact congrArg (fun o => Except.ok (Instr.aShl o)) (unpackT_pack ..)) h

theorem aShr (o : OpT) : Statement (.aShr o) := fun h =>
  decodeSlot_of 1 _ _ _ (major_packT ..) (by decide) (by
    unfold candidate candidateA
    rw [major_packT, if_neg (by decide), fnField_packT]
    exact congrArg (fun o => Except.ok (Instr.aShr o)) (unpackT_pack ..)) h

theorem aSra (o : OpT) : Statement (.aSra o) := fun h =>
  decodeSlot_of 1 _ _ _ (major_packT ..) (by decide) (by
    unfold candidate candidateA
    rw [major_packT, if_neg (by decide), fnField_packT]
    exact congrArg (fun o => Except.ok (Instr.aSra o)) (unpackT_pack ..)) h

theorem aRor (o : OpT) : Statement (.aRor o) := fun h =>
  decodeSlot_of 1 _ _ _ (major_packT ..) (by decide) (by
    unfold candidate candidateA
    rw [major_packT, if_neg (by decide), fnField_packT]
    exact congrArg (fun o => Except.ok (Instr.aRor o)) (unpackT_pack ..)) h

theorem aMin (o : OpT) : Statement (.aMin o) := fun h =>
  decodeSlot_of 1 _ _ _ (major_packT ..) (by decide) (by
    unfold candidate candidateA
    rw [major_packT, if_neg (by decide), fnField_packT]
    exact congrArg (fun o => Except.ok (Instr.aMin o)) (unpackT_pack ..)) h

theorem aMax (o : OpT) : Statement (.aMax o) := fun h =>
  decodeSlot_of 1 _ _ _ (major_packT ..) (by decide) (by
    unfold candidate candidateA
    rw [major_packT, if_neg (by decide), fnField_packT]
    exact congrArg (fun o => Except.ok (Instr.aMax o)) (unpackT_pack ..)) h

theorem aMinu (o : OpT) : Statement (.aMinu o) := fun h =>
  decodeSlot_of 1 _ _ _ (major_packT ..) (by decide) (by
    unfold candidate candidateA
    rw [major_packT, if_neg (by decide), fnField_packT]
    exact congrArg (fun o => Except.ok (Instr.aMinu o)) (unpackT_pack ..)) h

theorem aMaxu (o : OpT) : Statement (.aMaxu o) := fun h =>
  decodeSlot_of 1 _ _ _ (major_packT ..) (by decide) (by
    unfold candidate candidateA
    rw [major_packT, if_neg (by decide), fnField_packT]
    exact congrArg (fun o => Except.ok (Instr.aMaxu o)) (unpackT_pack ..)) h

theorem aAdds (o : OpT) (sh : BitVec 3) : Statement (.aAdds o sh) := fun h =>
  decodeSlot_of 1 _ _ _ (major_packT ..) (by decide) (by
    unfold candidate candidateA
    rw [major_packT, if_neg (by decide)]
    exact congr (congrArg (fun o f => Except.ok (Instr.aAdds o f)) (unpackT_pack ..)) (fnField_packT ..)) h

theorem aMul (o : OpT) : Statement (.aMul o) := fun h =>
  decodeSlot_of 1 _ _ _ (major_packT ..) (by decide) (by
    unfold candidate candidateA
    rw [major_packT, if_neg (by decide), fnField_packT]
    exact congrArg (fun o => Except.ok (Instr.aMul o)) (unpackT_pack ..)) h

theorem aMulh (o : OpT) : Statement (.aMulh o) := fun h =>
  decodeSlot_of 1 _ _ _ (major_packT ..) (by decide) (by
    unfold candidate candidateA
    rw [major_packT, if_neg (by decide), fnField_packT]
    exact congrArg (fun o => Except.ok (Instr.aMulh o)) (unpackT_pack ..)) h

theorem aMulhu (o : OpT) : Statement (.aMulhu o) := fun h =>
  decodeSlot_of 1 _ _ _ (major_packT ..) (by decide) (by
    unfold candidate candidateA
    rw [major_packT, if_neg (by decide), fnField_packT]
    exact congrArg (fun o => Except.ok (Instr.aMulhu o)) (unpackT_pack ..)) h

theorem aDiv (o : OpT) : Statement (.aDiv o) := fun h =>
  decodeSlot_of 1 _ _ _ (major_packT ..) (by decide) (by
    unfold candidate candidateA
    rw [major_packT, if_neg (by decide), fnField_packT]
    exact congrArg (fun o => Except.ok (Instr.aDiv o)) (unpackT_pack ..)) h

theorem aDivu (o : OpT) : Statement (.aDivu o) := fun h =>
  decodeSlot_of 1 _ _ _ (major_packT ..) (by decide) (by
    unfold candidate candidateA
    rw [major_packT, if_neg (by decide), fnField_packT]
    exact congrArg (fun o => Except.ok (Instr.aDivu o)) (unpackT_pack ..)) h

theorem aRem (o : OpT) : Statement (.aRem o) := fun h =>
  decodeSlot_of 1 _ _ _ (major_packT ..) (by decide) (by
    unfold candidate candidateA
    rw [major_packT, if_neg (by decide), fnField_packT]
    exact congrArg (fun o => Except.ok (Instr.aRem o)) (unpackT_pack ..)) h

theorem aRemu (o : OpT) : Statement (.aRemu o) := fun h =>
  decodeSlot_of 1 _ _ _ (major_packT ..) (by decide) (by
    unfold candidate candidateA
    rw [major_packT, if_neg (by decide), fnField_packT]
    exact congrArg (fun o => Except.ok (Instr.aRemu o)) (unpackT_pack ..)) h

theorem aCeq (o : OpT) : Statement (.aCeq o) := fun h =>
  decodeSlot_of 1 _ _ _ (major_packT ..) (by decide) (by
    unfold candidate candidateA
    rw [major_packT, if_neg (by decide), fnField_packT]
    exact congrArg (fun o => Except.ok (Instr.aCeq o)) (unpackT_pack ..)) h

theorem aCne (o : OpT) : Statement (.aCne o) := fun h =>
  decodeSlot_of 1 _ _ _ (major_packT ..) (by decide) (by
    unfold candidate candidateA
    rw [major_packT, if_neg (by decide), fnField_packT]
    exact congrArg (fun o => Except.ok (Instr.aCne o)) (unpackT_pack ..)) h

theorem aClt (o : OpT) : Statement (.aClt o) := fun h =>
  decodeSlot_of 1 _ _ _ (major_packT ..) (by decide) (by
    unfold candidate candidateA
    rw [major_packT, if_neg (by decide), fnField_packT]
    exact congrArg (fun o => Except.ok (Instr.aClt o)) (unpackT_pack ..)) h

theorem aCge (o : OpT) : Statement (.aCge o) := fun h =>
  decodeSlot_of 1 _ _ _ (major_packT ..) (by decide) (by
    unfold candidate candidateA
    rw [major_packT, if_neg (by decide), fnField_packT]
    exact congrArg (fun o => Except.ok (Instr.aCge o)) (unpackT_pack ..)) h

theorem aCltu (o : OpT) : Statement (.aCltu o) := fun h =>
  decodeSlot_of 1 _ _ _ (major_packT ..) (by decide) (by
    unfold candidate candidateA
    rw [major_packT, if_neg (by decide), fnField_packT]
    exact congrArg (fun o => Except.ok (Instr.aCltu o)) (unpackT_pack ..)) h

theorem aCgeu (o : OpT) : Statement (.aCgeu o) := fun h =>
  decodeSlot_of 1 _ _ _ (major_packT ..) (by decide) (by
    unfold candidate candidateA
    rw [major_packT, if_neg (by decide), fnField_packT]
    exact congrArg (fun o => Except.ok (Instr.aCgeu o)) (unpackT_pack ..)) h

theorem aCtst (o : OpT) : Statement (.aCtst o) := fun h =>
  decodeSlot_of 1 _ _ _ (major_packT ..) (by decide) (by
    unfold candidate candidateA
    rw [major_packT, if_neg (by decide), fnField_packT]
    exact congrArg (fun o => Except.ok (Instr.aCtst o)) (unpackT_pack ..)) h

theorem aCntst (o : OpT) : Statement (.aCntst o) := fun h =>
  decodeSlot_of 1 _ _ _ (major_packT ..) (by decide) (by
    unfold candidate candidateA
    rw [major_packT, if_neg (by decide), fnField_packT]
    exact congrArg (fun o => Except.ok (Instr.aCntst o)) (unpackT_pack ..)) h

theorem aSel (o : OpT) : Statement (.aSel o) := fun h =>
  decodeSlot_of 1 _ _ _ (major_packT ..) (by decide) (by
    unfold candidate candidateA
    rw [major_packT, if_neg (by decide), fnField_packT]
    exact congrArg (fun o => Except.ok (Instr.aSel o)) (unpackT_pack ..)) h

theorem aClz (o : OpT) : Statement (.aClz o) := fun h =>
  decodeSlot_of 1 _ _ _ (major_packT ..) (by decide) (by
    unfold candidate candidateA
    rw [major_packT, if_neg (by decide), fnField_packT]
    exact congrArg (fun o => Except.ok (Instr.aClz o)) (unpackT_pack ..)) h

theorem aCtz (o : OpT) : Statement (.aCtz o) := fun h =>
  decodeSlot_of 1 _ _ _ (major_packT ..) (by decide) (by
    unfold candidate candidateA
    rw [major_packT, if_neg (by decide), fnField_packT]
    exact congrArg (fun o => Except.ok (Instr.aCtz o)) (unpackT_pack ..)) h

theorem aPopc (o : OpT) : Statement (.aPopc o) := fun h =>
  decodeSlot_of 1 _ _ _ (major_packT ..) (by decide) (by
    unfold candidate candidateA
    rw [major_packT, if_neg (by decide), fnField_packT]
    exact congrArg (fun o => Except.ok (Instr.aPopc o)) (unpackT_pack ..)) h

theorem aPand (o : OpT) : Statement (.aPand o) := fun h =>
  decodeSlot_of 1 _ _ _ (major_packT ..) (by decide) (by
    unfold candidate candidateA
    rw [major_packT, if_neg (by decide), fnField_packT]
    exact congrArg (fun o => Except.ok (Instr.aPand o)) (unpackT_pack ..)) h

theorem aPor (o : OpT) : Statement (.aPor o) := fun h =>
  decodeSlot_of 1 _ _ _ (major_packT ..) (by decide) (by
    unfold candidate candidateA
    rw [major_packT, if_neg (by decide), fnField_packT]
    exact congrArg (fun o => Except.ok (Instr.aPor o)) (unpackT_pack ..)) h

theorem aPxor (o : OpT) : Statement (.aPxor o) := fun h =>
  decodeSlot_of 1 _ _ _ (major_packT ..) (by decide) (by
    unfold candidate candidateA
    rw [major_packT, if_neg (by decide), fnField_packT]
    exact congrArg (fun o => Except.ok (Instr.aPxor o)) (unpackT_pack ..)) h

theorem aPandn (o : OpT) : Statement (.aPandn o) := fun h =>
  decodeSlot_of 1 _ _ _ (major_packT ..) (by decide) (by
    unfold candidate candidateA
    rw [major_packT, if_neg (by decide), fnField_packT]
    exact congrArg (fun o => Except.ok (Instr.aPandn o)) (unpackT_pack ..)) h

theorem aAddi (o : OpI) : Statement (.aAddi o) := fun h =>
  decodeSlot_of 1 _ _ _ (major_packI ..) (by decide) (by
    unfold candidate candidateA
    rw [major_packI, if_neg (by decide)]
    exact congrArg (fun o => Except.ok (Instr.aAddi o)) (unpackI_pack ..)) h

theorem aAndi (o : OpI) : Statement (.aAndi o) := fun h =>
  decodeSlot_of 1 _ _ _ (major_packI ..) (by decide) (by
    unfold candidate candidateA
    rw [major_packI, if_neg (by decide)]
    exact congrArg (fun o => Except.ok (Instr.aAndi o)) (unpackI_pack ..)) h

theorem aOri (o : OpI) : Statement (.aOri o) := fun h =>
  decodeSlot_of 1 _ _ _ (major_packI ..) (by decide) (by
    unfold candidate candidateA
    rw [major_packI, if_neg (by decide)]
    exact congrArg (fun o => Except.ok (Instr.aOri o)) (unpackI_pack ..)) h

theorem aXori (o : OpI) : Statement (.aXori o) := fun h =>
  decodeSlot_of 1 _ _ _ (major_packI ..) (by decide) (by
    unfold candidate candidateA
    rw [major_packI, if_neg (by decide)]
    exact congrArg (fun o => Except.ok (Instr.aXori o)) (unpackI_pack ..)) h

theorem aShli (o : OpI) : Statement (.aShli o) := fun h =>
  decodeSlot_of 1 _ _ _ (major_packI ..) (by decide) (by
    unfold candidate candidateA
    rw [major_packI, if_neg (by decide)]
    exact congrArg (fun o => Except.ok (Instr.aShli o)) (unpackI_pack ..)) h

theorem aShri (o : OpI) : Statement (.aShri o) := fun h =>
  decodeSlot_of 1 _ _ _ (major_packI ..) (by decide) (by
    unfold candidate candidateA
    rw [major_packI, if_neg (by decide)]
    exact congrArg (fun o => Except.ok (Instr.aShri o)) (unpackI_pack ..)) h

theorem aSrai (o : OpI) : Statement (.aSrai o) := fun h =>
  decodeSlot_of 1 _ _ _ (major_packI ..) (by decide) (by
    unfold candidate candidateA
    rw [major_packI, if_neg (by decide)]
    exact congrArg (fun o => Except.ok (Instr.aSrai o)) (unpackI_pack ..)) h

theorem aCeqi (o : OpI) : Statement (.aCeqi o) := fun h =>
  decodeSlot_of 1 _ _ _ (major_packI ..) (by decide) (by
    unfold candidate candidateA
    rw [major_packI, if_neg (by decide)]
    exact congrArg (fun o => Except.ok (Instr.aCeqi o)) (unpackI_pack ..)) h

theorem aClti (o : OpI) : Statement (.aClti o) := fun h =>
  decodeSlot_of 1 _ _ _ (major_packI ..) (by decide) (by
    unfold candidate candidateA
    rw [major_packI, if_neg (by decide)]
    exact congrArg (fun o => Except.ok (Instr.aClti o)) (unpackI_pack ..)) h

theorem aCltui (o : OpI) : Statement (.aCltui o) := fun h =>
  decodeSlot_of 1 _ _ _ (major_packI ..) (by decide) (by
    unfold candidate candidateA
    rw [major_packI, if_neg (by decide)]
    exact congrArg (fun o => Except.ok (Instr.aCltui o)) (unpackI_pack ..)) h

theorem aMovi (o : OpJ) : Statement (.aMovi o) := fun h =>
  decodeSlot_of 1 _ _ _ (major_packJ ..) (by decide) (by
    unfold candidate candidateA
    rw [major_packJ, if_neg (by decide)]
    exact congrArg (fun o => Except.ok (Instr.aMovi o)) (unpackJ_pack ..)) h

theorem aCat (o : OpJ) : Statement (.aCat o) := fun h =>
  decodeSlot_of 1 _ _ _ (major_packJ ..) (by decide) (by
    unfold candidate candidateA
    rw [major_packJ, if_neg (by decide)]
    exact congrArg (fun o => Except.ok (Instr.aCat o)) (unpackJ_pack ..)) h

theorem lLde (o : OpH) : Statement (.lLde o) := fun h =>
  decodeSlot_of 2 _ _ _ (major_packH ..) (by decide) (by
    unfold candidate candidateL
    rw [major_packH, if_neg (by decide)]
    exact congrArg (fun o => Except.ok (Instr.lLde o)) (unpackH_pack ..)) h

theorem lLdei (o : OpH) : Statement (.lLdei o) := fun h =>
  decodeSlot_of 2 _ _ _ (major_packH ..) (by decide) (by
    unfold candidate candidateL
    rw [major_packH, if_neg (by decide)]
    exact congrArg (fun o => Except.ok (Instr.lLdei o)) (unpackH_pack ..)) h

theorem lLdv (o : OpH) : Statement (.lLdv o) := fun h =>
  decodeSlot_of 2 _ _ _ (major_packH ..) (by decide) (by
    unfold candidate candidateL
    rw [major_packH, if_neg (by decide)]
    exact congrArg (fun o => Except.ok (Instr.lLdv o)) (unpackH_pack ..)) h

theorem lLdvi (o : OpH) : Statement (.lLdvi o) := fun h =>
  decodeSlot_of 2 _ _ _ (major_packH ..) (by decide) (by
    unfold candidate candidateL
    rw [major_packH, if_neg (by decide)]
    exact congrArg (fun o => Except.ok (Instr.lLdvi o)) (unpackH_pack ..)) h

theorem lPf (o : OpH) : Statement (.lPf o) := fun h => by
  have hd : o.d.toNat = 0 := prefetch_act (Option.isNone_iff_eq_none.mp h)
  refine decodeSlot_of 2 _ _ _ (major_packH ..) (by decide) ?_ h
  unfold candidate candidateL
  rw [major_packH, if_neg (by decide), unpackH_pack]
  change (match o.d.toNat with | 0 => _ | 1 => _ | 2 => _ | _ => _) = _
  rw [hd]
  rfl

theorem lPfL2 (o : OpH) : Statement (.lPfL2 o) := fun h => by
  have hd : o.d.toNat = 1 := prefetch_act (Option.isNone_iff_eq_none.mp h)
  refine decodeSlot_of 2 _ _ _ (major_packH ..) (by decide) ?_ h
  unfold candidate candidateL
  rw [major_packH, if_neg (by decide), unpackH_pack]
  change (match o.d.toNat with | 0 => _ | 1 => _ | 2 => _ | _ => _) = _
  rw [hd]
  rfl

theorem lPfTile (o : OpH) : Statement (.lPfTile o) := fun h => by
  have hd : o.d.toNat = 2 := prefetch_act (Option.isNone_iff_eq_none.mp h)
  refine decodeSlot_of 2 _ _ _ (major_packH ..) (by decide) ?_ h
  unfold candidate candidateL
  rw [major_packH, if_neg (by decide), unpackH_pack]
  change (match o.d.toNat with | 0 => _ | 1 => _ | 2 => _ | _ => _) = _
  rw [hd]
  rfl

theorem lGpop (o : OpT) : Statement (.lGpop o) := fun h =>
  decodeSlot_of 2 _ _ _ (major_packT ..) (by decide) (by
    unfold candidate candidateL
    rw [major_packT, if_neg (by decide), fnField_packT]
    exact congrArg (fun o => Except.ok (Instr.lGpop o)) (unpackT_pack ..)) h

theorem lHld (o : OpT) : Statement (.lHld o) := fun h =>
  decodeSlot_of 2 _ _ _ (major_packT ..) (by decide) (by
    unfold candidate candidateL
    rw [major_packT, if_neg (by decide), fnField_packT]
    exact congrArg (fun o => Except.ok (Instr.lHld o)) (unpackT_pack ..)) h

theorem lAdv (o : OpT) : Statement (.lAdv o) := fun h =>
  decodeSlot_of 2 _ _ _ (major_packT ..) (by decide) (by
    unfold candidate candidateL
    rw [major_packT, if_neg (by decide), fnField_packT]
    exact congrArg (fun o => Except.ok (Instr.lAdv o)) (unpackT_pack ..)) h

theorem loadDataReturn : Statement .loadDataReturn := fun _ => trivial

theorem wSte (o : OpH) : Statement (.wSte o) := fun h =>
  decodeSlot_of 3 _ _ _ (major_packH ..) (by decide) (by
    unfold candidate candidateW
    rw [major_packH, if_neg (by decide)]
    exact congrArg (fun o => Except.ok (Instr.wSte o)) (unpackH_pack ..)) h

theorem wStv (o : OpH) : Statement (.wStv o) := fun h =>
  decodeSlot_of 3 _ _ _ (major_packH ..) (by decide) (by
    unfold candidate candidateW
    rw [major_packH, if_neg (by decide)]
    exact congrArg (fun o => Except.ok (Instr.wStv o)) (unpackH_pack ..)) h

theorem wAadd (o : OpT) (use : BitVec 3) : Statement (.wAadd o use) := fun h =>
  decodeSlot_of 3 _ _ _ (major_packT ..) (by decide) (by
    unfold candidate candidateW
    rw [major_packT, if_neg (by decide)]
    exact congr (congrArg (fun o f => Except.ok (Instr.wAadd o f)) (unpackT_pack ..)) (fnField_packT ..)) h

theorem wAand (o : OpT) (use : BitVec 3) : Statement (.wAand o use) := fun h =>
  decodeSlot_of 3 _ _ _ (major_packT ..) (by decide) (by
    unfold candidate candidateW
    rw [major_packT, if_neg (by decide)]
    exact congr (congrArg (fun o f => Except.ok (Instr.wAand o f)) (unpackT_pack ..)) (fnField_packT ..)) h

theorem wAor (o : OpT) (use : BitVec 3) : Statement (.wAor o use) := fun h =>
  decodeSlot_of 3 _ _ _ (major_packT ..) (by decide) (by
    unfold candidate candidateW
    rw [major_packT, if_neg (by decide)]
    exact congr (congrArg (fun o f => Except.ok (Instr.wAor o f)) (unpackT_pack ..)) (fnField_packT ..)) h

theorem wAxor (o : OpT) (use : BitVec 3) : Statement (.wAxor o use) := fun h =>
  decodeSlot_of 3 _ _ _ (major_packT ..) (by decide) (by
    unfold candidate candidateW
    rw [major_packT, if_neg (by decide)]
    exact congr (congrArg (fun o f => Except.ok (Instr.wAxor o f)) (unpackT_pack ..)) (fnField_packT ..)) h

theorem wAmin (o : OpT) (use : BitVec 3) : Statement (.wAmin o use) := fun h =>
  decodeSlot_of 3 _ _ _ (major_packT ..) (by decide) (by
    unfold candidate candidateW
    rw [major_packT, if_neg (by decide)]
    exact congr (congrArg (fun o f => Except.ok (Instr.wAmin o f)) (unpackT_pack ..)) (fnField_packT ..)) h

theorem wAmax (o : OpT) (use : BitVec 3) : Statement (.wAmax o use) := fun h =>
  decodeSlot_of 3 _ _ _ (major_packT ..) (by decide) (by
    unfold candidate candidateW
    rw [major_packT, if_neg (by decide)]
    exact congr (congrArg (fun o f => Except.ok (Instr.wAmax o f)) (unpackT_pack ..)) (fnField_packT ..)) h

theorem wAminu (o : OpT) (use : BitVec 3) : Statement (.wAminu o use) := fun h =>
  decodeSlot_of 3 _ _ _ (major_packT ..) (by decide) (by
    unfold candidate candidateW
    rw [major_packT, if_neg (by decide)]
    exact congr (congrArg (fun o f => Except.ok (Instr.wAminu o f)) (unpackT_pack ..)) (fnField_packT ..)) h

theorem wAmaxu (o : OpT) (use : BitVec 3) : Statement (.wAmaxu o use) := fun h =>
  decodeSlot_of 3 _ _ _ (major_packT ..) (by decide) (by
    unfold candidate candidateW
    rw [major_packT, if_neg (by decide)]
    exact congr (congrArg (fun o f => Except.ok (Instr.wAmaxu o f)) (unpackT_pack ..)) (fnField_packT ..)) h

theorem wAswp (o : OpT) (use : BitVec 3) : Statement (.wAswp o use) := fun h =>
  decodeSlot_of 3 _ _ _ (major_packT ..) (by decide) (by
    unfold candidate candidateW
    rw [major_packT, if_neg (by decide)]
    exact congr (congrArg (fun o f => Except.ok (Instr.wAswp o f)) (unpackT_pack ..)) (fnField_packT ..)) h

theorem wAcas (o : OpT) (use : BitVec 3) : Statement (.wAcas o use) := fun h =>
  decodeSlot_of 3 _ _ _ (major_packT ..) (by decide) (by
    unfold candidate candidateW
    rw [major_packT, if_neg (by decide)]
    exact congr (congrArg (fun o f => Except.ok (Instr.wAcas o f)) (unpackT_pack ..)) (fnField_packT ..)) h

theorem wArd (o : OpT) (use : BitVec 3) : Statement (.wArd o use) := fun h =>
  decodeSlot_of 3 _ _ _ (major_packT ..) (by decide) (by
    unfold candidate candidateW
    rw [major_packT, if_neg (by decide)]
    exact congr (congrArg (fun o f => Except.ok (Instr.wArd o f)) (unpackT_pack ..)) (fnField_packT ..)) h

theorem atomicAtHome : Statement .atomicAtHome := fun _ => trivial

theorem combineBufferFlush : Statement .combineBufferFlush := fun _ => trivial

theorem wFrel (o : OpT) : Statement (.wFrel o) := fun h =>
  decodeSlot_of 3 _ _ _ (major_packT ..) (by decide) (by
    unfold candidate candidateW
    rw [major_packT, if_neg (by decide), fnField_packT]
    exact congrArg (fun o => Except.ok (Instr.wFrel o)) (unpackT_pack ..)) h

theorem wFacq (o : OpT) : Statement (.wFacq o) := fun h =>
  decodeSlot_of 3 _ _ _ (major_packT ..) (by decide) (by
    unfold candidate candidateW
    rw [major_packT, if_neg (by decide), fnField_packT]
    exact congrArg (fun o => Except.ok (Instr.wFacq o)) (unpackT_pack ..)) h

theorem wFall (o : OpT) : Statement (.wFall o) := fun h =>
  decodeSlot_of 3 _ _ _ (major_packT ..) (by decide) (by
    unfold candidate candidateW
    rw [major_packT, if_neg (by decide), fnField_packT]
    exact congrArg (fun o => Except.ok (Instr.wFall o)) (unpackT_pack ..)) h

theorem wAcq (o : OpI) : Statement (.wAcq o) := fun h =>
  decodeSlot_of 3 _ _ _ (major_packI ..) (by decide) (by
    unfold candidate candidateW
    rw [major_packI, if_neg (by decide)]
    exact congrArg (fun o => Except.ok (Instr.wAcq o)) (unpackI_pack ..)) h

theorem wRel (o : OpI) : Statement (.wRel o) := fun h =>
  decodeSlot_of 3 _ _ _ (major_packI ..) (by decide) (by
    unfold candidate candidateW
    rw [major_packI, if_neg (by decide)]
    exact congrArg (fun o => Except.ok (Instr.wRel o)) (unpackI_pack ..)) h

theorem syncAcquireAtHome : Statement .syncAcquireAtHome := fun _ => trivial

theorem syncReleaseAtHome : Statement .syncReleaseAtHome := fun _ => trivial

theorem wBind (o : OpT) : Statement (.wBind o) := fun h =>
  decodeSlot_of 3 _ _ _ (major_packT ..) (by decide) (by
    unfold candidate candidateW
    rw [major_packT, if_neg (by decide), fnField_packT]
    exact congrArg (fun o => Except.ok (Instr.wBind o)) (unpackT_pack ..)) h

theorem wRacq (o : OpT) : Statement (.wRacq o) := fun h =>
  decodeSlot_of 3 _ _ _ (major_packT ..) (by decide) (by
    unfold candidate candidateW
    rw [major_packT, if_neg (by decide), fnField_packT]
    exact congrArg (fun o => Except.ok (Instr.wRacq o)) (unpackT_pack ..)) h

theorem wRrel (o : OpT) : Statement (.wRrel o) := fun h =>
  decodeSlot_of 3 _ _ _ (major_packT ..) (by decide) (by
    unfold candidate candidateW
    rw [major_packT, if_neg (by decide), fnField_packT]
    exact congrArg (fun o => Except.ok (Instr.wRrel o)) (unpackT_pack ..)) h

theorem vFadd (o : OpT) (ty : BitVec 3) : Statement (.vFadd o ty) := fun h =>
  decodeSlot_of 4 _ _ _ (major_packT ..) (by decide) (by
    unfold candidate candidateV
    rw [major_packT, if_neg (by decide)]
    exact congr (congrArg (fun o f => Except.ok (Instr.vFadd o f)) (unpackT_pack ..)) (fnField_packT ..)) h

theorem vFsub (o : OpT) (ty : BitVec 3) : Statement (.vFsub o ty) := fun h =>
  decodeSlot_of 4 _ _ _ (major_packT ..) (by decide) (by
    unfold candidate candidateV
    rw [major_packT, if_neg (by decide)]
    exact congr (congrArg (fun o f => Except.ok (Instr.vFsub o f)) (unpackT_pack ..)) (fnField_packT ..)) h

theorem vFmul (o : OpT) (ty : BitVec 3) : Statement (.vFmul o ty) := fun h =>
  decodeSlot_of 4 _ _ _ (major_packT ..) (by decide) (by
    unfold candidate candidateV
    rw [major_packT, if_neg (by decide)]
    exact congr (congrArg (fun o f => Except.ok (Instr.vFmul o f)) (unpackT_pack ..)) (fnField_packT ..)) h

theorem vFma (o : OpT) (ty : BitVec 3) : Statement (.vFma o ty) := fun h =>
  decodeSlot_of 4 _ _ _ (major_packT ..) (by decide) (by
    unfold candidate candidateV
    rw [major_packT, if_neg (by decide)]
    exact congr (congrArg (fun o f => Except.ok (Instr.vFma o f)) (unpackT_pack ..)) (fnField_packT ..)) h

theorem vFnma (o : OpT) (ty : BitVec 3) : Statement (.vFnma o ty) := fun h =>
  decodeSlot_of 4 _ _ _ (major_packT ..) (by decide) (by
    unfold candidate candidateV
    rw [major_packT, if_neg (by decide)]
    exact congr (congrArg (fun o f => Except.ok (Instr.vFnma o f)) (unpackT_pack ..)) (fnField_packT ..)) h

theorem vFmax (o : OpT) (ty : BitVec 3) : Statement (.vFmax o ty) := fun h =>
  decodeSlot_of 4 _ _ _ (major_packT ..) (by decide) (by
    unfold candidate candidateV
    rw [major_packT, if_neg (by decide)]
    exact congr (congrArg (fun o f => Except.ok (Instr.vFmax o f)) (unpackT_pack ..)) (fnField_packT ..)) h

theorem vFmin (o : OpT) (ty : BitVec 3) : Statement (.vFmin o ty) := fun h =>
  decodeSlot_of 4 _ _ _ (major_packT ..) (by decide) (by
    unfold candidate candidateV
    rw [major_packT, if_neg (by decide)]
    exact congr (congrArg (fun o f => Except.ok (Instr.vFmin o f)) (unpackT_pack ..)) (fnField_packT ..)) h

theorem vFceq (o : OpT) (ty : BitVec 3) : Statement (.vFceq o ty) := fun h =>
  decodeSlot_of 4 _ _ _ (major_packT ..) (by decide) (by
    unfold candidate candidateV
    rw [major_packT, if_neg (by decide)]
    exact congr (congrArg (fun o f => Except.ok (Instr.vFceq o f)) (unpackT_pack ..)) (fnField_packT ..)) h

theorem vFclt (o : OpT) (ty : BitVec 3) : Statement (.vFclt o ty) := fun h =>
  decodeSlot_of 4 _ _ _ (major_packT ..) (by decide) (by
    unfold candidate candidateV
    rw [major_packT, if_neg (by decide)]
    exact congr (congrArg (fun o f => Except.ok (Instr.vFclt o f)) (unpackT_pack ..)) (fnField_packT ..)) h

theorem vFcle (o : OpT) (ty : BitVec 3) : Statement (.vFcle o ty) := fun h =>
  decodeSlot_of 4 _ _ _ (major_packT ..) (by decide) (by
    unfold candidate candidateV
    rw [major_packT, if_neg (by decide)]
    exact congr (congrArg (fun o f => Except.ok (Instr.vFcle o f)) (unpackT_pack ..)) (fnField_packT ..)) h

theorem vFabs (o : OpT) (ty : BitVec 3) : Statement (.vFabs o ty) := fun h =>
  decodeSlot_of 4 _ _ _ (major_packT ..) (by decide) (by
    unfold candidate candidateV
    rw [major_packT, if_neg (by decide)]
    exact congr (congrArg (fun o f => Except.ok (Instr.vFabs o f)) (unpackT_pack ..)) (fnField_packT ..)) h

theorem vFneg (o : OpT) (ty : BitVec 3) : Statement (.vFneg o ty) := fun h =>
  decodeSlot_of 4 _ _ _ (major_packT ..) (by decide) (by
    unfold candidate candidateV
    rw [major_packT, if_neg (by decide)]
    exact congr (congrArg (fun o f => Except.ok (Instr.vFneg o f)) (unpackT_pack ..)) (fnField_packT ..)) h

theorem vXscl (o : OpT) (ty : BitVec 3) : Statement (.vXscl o ty) := fun h =>
  decodeSlot_of 4 _ _ _ (major_packT ..) (by decide) (by
    unfold candidate candidateV
    rw [major_packT, if_neg (by decide)]
    exact congr (congrArg (fun o f => Except.ok (Instr.vXscl o f)) (unpackT_pack ..)) (fnField_packT ..)) h

theorem vAdd (o : OpT) (ty : BitVec 3) : Statement (.vAdd o ty) := fun h =>
  decodeSlot_of 4 _ _ _ (major_packT ..) (by decide) (by
    unfold candidate candidateV
    rw [major_packT, if_neg (by decide)]
    exact congr (congrArg (fun o f => Except.ok (Instr.vAdd o f)) (unpackT_pack ..)) (fnField_packT ..)) h

theorem vSub (o : OpT) (ty : BitVec 3) : Statement (.vSub o ty) := fun h =>
  decodeSlot_of 4 _ _ _ (major_packT ..) (by decide) (by
    unfold candidate candidateV
    rw [major_packT, if_neg (by decide)]
    exact congr (congrArg (fun o f => Except.ok (Instr.vSub o f)) (unpackT_pack ..)) (fnField_packT ..)) h

theorem vMul (o : OpT) (ty : BitVec 3) : Statement (.vMul o ty) := fun h =>
  decodeSlot_of 4 _ _ _ (major_packT ..) (by decide) (by
    unfold candidate candidateV
    rw [major_packT, if_neg (by decide)]
    exact congr (congrArg (fun o f => Except.ok (Instr.vMul o f)) (unpackT_pack ..)) (fnField_packT ..)) h

theorem vAdds (o : OpT) (ty : BitVec 3) : Statement (.vAdds o ty) := fun h =>
  decodeSlot_of 4 _ _ _ (major_packT ..) (by decide) (by
    unfold candidate candidateV
    rw [major_packT, if_neg (by decide)]
    exact congr (congrArg (fun o f => Except.ok (Instr.vAdds o f)) (unpackT_pack ..)) (fnField_packT ..)) h

theorem vSubs (o : OpT) (ty : BitVec 3) : Statement (.vSubs o ty) := fun h =>
  decodeSlot_of 4 _ _ _ (major_packT ..) (by decide) (by
    unfold candidate candidateV
    rw [major_packT, if_neg (by decide)]
    exact congr (congrArg (fun o f => Except.ok (Instr.vSubs o f)) (unpackT_pack ..)) (fnField_packT ..)) h

theorem vMin (o : OpT) (ty : BitVec 3) : Statement (.vMin o ty) := fun h =>
  decodeSlot_of 4 _ _ _ (major_packT ..) (by decide) (by
    unfold candidate candidateV
    rw [major_packT, if_neg (by decide)]
    exact congr (congrArg (fun o f => Except.ok (Instr.vMin o f)) (unpackT_pack ..)) (fnField_packT ..)) h

theorem vMax (o : OpT) (ty : BitVec 3) : Statement (.vMax o ty) := fun h =>
  decodeSlot_of 4 _ _ _ (major_packT ..) (by decide) (by
    unfold candidate candidateV
    rw [major_packT, if_neg (by decide)]
    exact congr (congrArg (fun o f => Except.ok (Instr.vMax o f)) (unpackT_pack ..)) (fnField_packT ..)) h

theorem vAnd (o : OpT) (ty : BitVec 3) : Statement (.vAnd o ty) := fun h =>
  decodeSlot_of 4 _ _ _ (major_packT ..) (by decide) (by
    unfold candidate candidateV
    rw [major_packT, if_neg (by decide)]
    exact congr (congrArg (fun o f => Except.ok (Instr.vAnd o f)) (unpackT_pack ..)) (fnField_packT ..)) h

theorem vOr (o : OpT) (ty : BitVec 3) : Statement (.vOr o ty) := fun h =>
  decodeSlot_of 4 _ _ _ (major_packT ..) (by decide) (by
    unfold candidate candidateV
    rw [major_packT, if_neg (by decide)]
    exact congr (congrArg (fun o f => Except.ok (Instr.vOr o f)) (unpackT_pack ..)) (fnField_packT ..)) h

theorem vXor (o : OpT) (ty : BitVec 3) : Statement (.vXor o ty) := fun h =>
  decodeSlot_of 4 _ _ _ (major_packT ..) (by decide) (by
    unfold candidate candidateV
    rw [major_packT, if_neg (by decide)]
    exact congr (congrArg (fun o f => Except.ok (Instr.vXor o f)) (unpackT_pack ..)) (fnField_packT ..)) h

theorem vShl (o : OpT) (ty : BitVec 3) : Statement (.vShl o ty) := fun h =>
  decodeSlot_of 4 _ _ _ (major_packT ..) (by decide) (by
    unfold candidate candidateV
    rw [major_packT, if_neg (by decide)]
    exact congr (congrArg (fun o f => Except.ok (Instr.vShl o f)) (unpackT_pack ..)) (fnField_packT ..)) h

theorem vSra (o : OpT) (ty : BitVec 3) : Statement (.vSra o ty) := fun h =>
  decodeSlot_of 4 _ _ _ (major_packT ..) (by decide) (by
    unfold candidate candidateV
    rw [major_packT, if_neg (by decide)]
    exact congr (congrArg (fun o f => Except.ok (Instr.vSra o f)) (unpackT_pack ..)) (fnField_packT ..)) h

theorem vShr (o : OpT) (ty : BitVec 3) : Statement (.vShr o ty) := fun h =>
  decodeSlot_of 4 _ _ _ (major_packT ..) (by decide) (by
    unfold candidate candidateV
    rw [major_packT, if_neg (by decide)]
    exact congr (congrArg (fun o f => Except.ok (Instr.vShr o f)) (unpackT_pack ..)) (fnField_packT ..)) h

theorem vCeq (o : OpT) (ty : BitVec 3) : Statement (.vCeq o ty) := fun h =>
  decodeSlot_of 4 _ _ _ (major_packT ..) (by decide) (by
    unfold candidate candidateV
    rw [major_packT, if_neg (by decide)]
    exact congr (congrArg (fun o f => Except.ok (Instr.vCeq o f)) (unpackT_pack ..)) (fnField_packT ..)) h

theorem vClt (o : OpT) (ty : BitVec 3) : Statement (.vClt o ty) := fun h =>
  decodeSlot_of 4 _ _ _ (major_packT ..) (by decide) (by
    unfold candidate candidateV
    rw [major_packT, if_neg (by decide)]
    exact congr (congrArg (fun o f => Except.ok (Instr.vClt o f)) (unpackT_pack ..)) (fnField_packT ..)) h

theorem vKand (o : OpT) : Statement (.vKand o) := fun h =>
  decodeSlot_of 4 _ _ _ (major_packT ..) (by decide) (by
    unfold candidate candidateV
    rw [major_packT, if_neg (by decide), fnField_packT]
    exact congrArg (fun o => Except.ok (Instr.vKand o)) (unpackT_pack ..)) h

theorem vKor (o : OpT) : Statement (.vKor o) := fun h =>
  decodeSlot_of 4 _ _ _ (major_packT ..) (by decide) (by
    unfold candidate candidateV
    rw [major_packT, if_neg (by decide), fnField_packT]
    exact congrArg (fun o => Except.ok (Instr.vKor o)) (unpackT_pack ..)) h

theorem vKxor (o : OpT) : Statement (.vKxor o) := fun h =>
  decodeSlot_of 4 _ _ _ (major_packT ..) (by decide) (by
    unfold candidate candidateV
    rw [major_packT, if_neg (by decide), fnField_packT]
    exact congrArg (fun o => Except.ok (Instr.vKxor o)) (unpackT_pack ..)) h

theorem vKandn (o : OpT) : Statement (.vKandn o) := fun h =>
  decodeSlot_of 4 _ _ _ (major_packT ..) (by decide) (by
    unfold candidate candidateV
    rw [major_packT, if_neg (by decide), fnField_packT]
    exact congrArg (fun o => Except.ok (Instr.vKandn o)) (unpackT_pack ..)) h

theorem vRsum (o : OpT) (ty : BitVec 3) : Statement (.vRsum o ty) := fun h =>
  decodeSlot_of 4 _ _ _ (major_packT ..) (by decide) (by
    unfold candidate candidateV
    rw [major_packT, if_neg (by decide)]
    exact congr (congrArg (fun o f => Except.ok (Instr.vRsum o f)) (unpackT_pack ..)) (fnField_packT ..)) h

theorem vRmax (o : OpT) (ty : BitVec 3) : Statement (.vRmax o ty) := fun h =>
  decodeSlot_of 4 _ _ _ (major_packT ..) (by decide) (by
    unfold candidate candidateV
    rw [major_packT, if_neg (by decide)]
    exact congr (congrArg (fun o f => Except.ok (Instr.vRmax o f)) (unpackT_pack ..)) (fnField_packT ..)) h

theorem vRmin (o : OpT) (ty : BitVec 3) : Statement (.vRmin o ty) := fun h =>
  decodeSlot_of 4 _ _ _ (major_packT ..) (by decide) (by
    unfold candidate candidateV
    rw [major_packT, if_neg (by decide)]
    exact congr (congrArg (fun o f => Except.ok (Instr.vRmin o f)) (unpackT_pack ..)) (fnField_packT ..)) h

theorem vRisum (o : OpT) (ty : BitVec 3) : Statement (.vRisum o ty) := fun h =>
  decodeSlot_of 4 _ _ _ (major_packT ..) (by decide) (by
    unfold candidate candidateV
    rw [major_packT, if_neg (by decide)]
    exact congr (congrArg (fun o f => Except.ok (Instr.vRisum o f)) (unpackT_pack ..)) (fnField_packT ..)) h

theorem vPerm (o : OpT) (ty : BitVec 3) : Statement (.vPerm o ty) := fun h =>
  decodeSlot_of 4 _ _ _ (major_packT ..) (by decide) (by
    unfold candidate candidateV
    rw [major_packT, if_neg (by decide)]
    exact congr (congrArg (fun o f => Except.ok (Instr.vPerm o f)) (unpackT_pack ..)) (fnField_packT ..)) h

theorem vBcst (o : OpT) (ty : BitVec 3) : Statement (.vBcst o ty) := fun h =>
  decodeSlot_of 4 _ _ _ (major_packT ..) (by decide) (by
    unfold candidate candidateV
    rw [major_packT, if_neg (by decide)]
    exact congr (congrArg (fun o f => Except.ok (Instr.vBcst o f)) (unpackT_pack ..)) (fnField_packT ..)) h

theorem vSlide (o : OpT) (ty : BitVec 3) : Statement (.vSlide o ty) := fun h =>
  decodeSlot_of 4 _ _ _ (major_packT ..) (by decide) (by
    unfold candidate candidateV
    rw [major_packT, if_neg (by decide)]
    exact congr (congrArg (fun o f => Except.ok (Instr.vSlide o f)) (unpackT_pack ..)) (fnField_packT ..)) h

theorem vExp2r (o : OpT) (ty : BitVec 3) : Statement (.vExp2r o ty) := fun h =>
  decodeSlot_of 4 _ _ _ (major_packT ..) (by decide) (by
    unfold candidate candidateV
    rw [major_packT, if_neg (by decide)]
    exact congr (congrArg (fun o f => Except.ok (Instr.vExp2r o f)) (unpackT_pack ..)) (fnField_packT ..)) h

theorem vExp2f (o : OpT) (ty : BitVec 3) : Statement (.vExp2f o ty) := fun h =>
  decodeSlot_of 4 _ _ _ (major_packT ..) (by decide) (by
    unfold candidate candidateV
    rw [major_packT, if_neg (by decide)]
    exact congr (congrArg (fun o f => Except.ok (Instr.vExp2f o f)) (unpackT_pack ..)) (fnField_packT ..)) h

theorem vLog2r (o : OpT) (ty : BitVec 3) : Statement (.vLog2r o ty) := fun h =>
  decodeSlot_of 4 _ _ _ (major_packT ..) (by decide) (by
    unfold candidate candidateV
    rw [major_packT, if_neg (by decide)]
    exact congr (congrArg (fun o f => Except.ok (Instr.vLog2r o f)) (unpackT_pack ..)) (fnField_packT ..)) h

theorem vLog2f (o : OpT) (ty : BitVec 3) : Statement (.vLog2f o ty) := fun h =>
  decodeSlot_of 4 _ _ _ (major_packT ..) (by decide) (by
    unfold candidate candidateV
    rw [major_packT, if_neg (by decide)]
    exact congr (congrArg (fun o f => Except.ok (Instr.vLog2f o f)) (unpackT_pack ..)) (fnField_packT ..)) h

theorem vRcpr (o : OpT) (ty : BitVec 3) : Statement (.vRcpr o ty) := fun h =>
  decodeSlot_of 4 _ _ _ (major_packT ..) (by decide) (by
    unfold candidate candidateV
    rw [major_packT, if_neg (by decide)]
    exact congr (congrArg (fun o f => Except.ok (Instr.vRcpr o f)) (unpackT_pack ..)) (fnField_packT ..)) h

theorem vRcpf (o : OpT) (ty : BitVec 3) : Statement (.vRcpf o ty) := fun h =>
  decodeSlot_of 4 _ _ _ (major_packT ..) (by decide) (by
    unfold candidate candidateV
    rw [major_packT, if_neg (by decide)]
    exact congr (congrArg (fun o f => Except.ok (Instr.vRcpf o f)) (unpackT_pack ..)) (fnField_packT ..)) h

theorem vRsqr (o : OpT) (ty : BitVec 3) : Statement (.vRsqr o ty) := fun h =>
  decodeSlot_of 4 _ _ _ (major_packT ..) (by decide) (by
    unfold candidate candidateV
    rw [major_packT, if_neg (by decide)]
    exact congr (congrArg (fun o f => Except.ok (Instr.vRsqr o f)) (unpackT_pack ..)) (fnField_packT ..)) h

theorem vRsqf (o : OpT) (ty : BitVec 3) : Statement (.vRsqf o ty) := fun h =>
  decodeSlot_of 4 _ _ _ (major_packT ..) (by decide) (by
    unfold candidate candidateV
    rw [major_packT, if_neg (by decide)]
    exact congr (congrArg (fun o f => Except.ok (Instr.vRsqf o f)) (unpackT_pack ..)) (fnField_packT ..)) h

theorem vTanhr (o : OpT) (ty : BitVec 3) : Statement (.vTanhr o ty) := fun h =>
  decodeSlot_of 4 _ _ _ (major_packT ..) (by decide) (by
    unfold candidate candidateV
    rw [major_packT, if_neg (by decide)]
    exact congr (congrArg (fun o f => Except.ok (Instr.vTanhr o f)) (unpackT_pack ..)) (fnField_packT ..)) h

theorem vTanhf (o : OpT) (ty : BitVec 3) : Statement (.vTanhf o ty) := fun h =>
  decodeSlot_of 4 _ _ _ (major_packT ..) (by decide) (by
    unfold candidate candidateV
    rw [major_packT, if_neg (by decide)]
    exact congr (congrArg (fun o f => Except.ok (Instr.vTanhf o f)) (unpackT_pack ..)) (fnField_packT ..)) h

theorem vSinr (o : OpT) (ty : BitVec 3) : Statement (.vSinr o ty) := fun h =>
  decodeSlot_of 4 _ _ _ (major_packT ..) (by decide) (by
    unfold candidate candidateV
    rw [major_packT, if_neg (by decide)]
    exact congr (congrArg (fun o f => Except.ok (Instr.vSinr o f)) (unpackT_pack ..)) (fnField_packT ..)) h

theorem vSinf (o : OpT) (ty : BitVec 3) : Statement (.vSinf o ty) := fun h =>
  decodeSlot_of 4 _ _ _ (major_packT ..) (by decide) (by
    unfold candidate candidateV
    rw [major_packT, if_neg (by decide)]
    exact congr (congrArg (fun o f => Except.ok (Instr.vSinf o f)) (unpackT_pack ..)) (fnField_packT ..)) h

theorem vCosr (o : OpT) (ty : BitVec 3) : Statement (.vCosr o ty) := fun h =>
  decodeSlot_of 4 _ _ _ (major_packT ..) (by decide) (by
    unfold candidate candidateV
    rw [major_packT, if_neg (by decide)]
    exact congr (congrArg (fun o f => Except.ok (Instr.vCosr o f)) (unpackT_pack ..)) (fnField_packT ..)) h

theorem vCosf (o : OpT) (ty : BitVec 3) : Statement (.vCosf o ty) := fun h =>
  decodeSlot_of 4 _ _ _ (major_packT ..) (by decide) (by
    unfold candidate candidateV
    rw [major_packT, if_neg (by decide)]
    exact congr (congrArg (fun o f => Except.ok (Instr.vCosf o f)) (unpackT_pack ..)) (fnField_packT ..)) h

theorem xCvt (o : OpXC) : Statement (.xCvt o) := fun h =>
  decodeSlot_of 5 _ _ _ (major_packXC ..) (by decide) (by
    unfold candidate candidateX
    rw [major_packXC, if_neg (by decide)]
    exact congrArg (fun o => Except.ok (Instr.xCvt o)) (unpackXC_pack ..)) h

theorem xBpt (o : OpH) : Statement (.xBpt o) := fun h =>
  decodeSlot_of 5 _ _ _ (major_packH ..) (by decide) (by
    unfold candidate candidateX
    rw [major_packH, if_neg (by decide)]
    exact congrArg (fun o => Except.ok (Instr.xBpt o)) (unpackH_pack ..)) h

theorem xTrr (o : OpT) : Statement (.xTrr o) := fun h =>
  decodeSlot_of 5 _ _ _ (major_packT ..) (by decide) (by
    unfold candidate candidateX
    rw [major_packT, if_neg (by decide), fnField_packT]
    exact congrArg (fun o => Except.ok (Instr.xTrr o)) (unpackT_pack ..)) h

theorem xTrc (o : OpT) : Statement (.xTrc o) := fun h =>
  decodeSlot_of 5 _ _ _ (major_packT ..) (by decide) (by
    unfold candidate candidateX
    rw [major_packT, if_neg (by decide), fnField_packT]
    exact congrArg (fun o => Except.ok (Instr.xTrc o)) (unpackT_pack ..)) h

theorem xMxq (o : OpT) : Statement (.xMxq o) := fun h =>
  decodeSlot_of 5 _ _ _ (major_packT ..) (by decide) (by
    unfold candidate candidateX
    rw [major_packT, if_neg (by decide), fnField_packT]
    exact congrArg (fun o => Except.ok (Instr.xMxq o)) (unpackT_pack ..)) h

theorem xMxd (o : OpT) : Statement (.xMxd o) := fun h =>
  decodeSlot_of 5 _ _ _ (major_packT ..) (by decide) (by
    unfold candidate candidateX
    rw [major_packT, if_neg (by decide), fnField_packT]
    exact congrArg (fun o => Except.ok (Instr.xMxd o)) (unpackT_pack ..)) h

theorem xSaq (o : OpT) : Statement (.xSaq o) := fun h =>
  decodeSlot_of 5 _ _ _ (major_packT ..) (by decide) (by
    unfold candidate candidateX
    rw [major_packT, if_neg (by decide), fnField_packT]
    exact congrArg (fun o => Except.ok (Instr.xSaq o)) (unpackT_pack ..)) h

theorem xPack (o : OpT) : Statement (.xPack o) := fun h =>
  decodeSlot_of 5 _ _ _ (major_packT ..) (by decide) (by
    unfold candidate candidateX
    rw [major_packT, if_neg (by decide), fnField_packT]
    exact congrArg (fun o => Except.ok (Instr.xPack o)) (unpackT_pack ..)) h

theorem xUnpk (o : OpT) : Statement (.xUnpk o) := fun h =>
  decodeSlot_of 5 _ _ _ (major_packT ..) (by decide) (by
    unfold candidate candidateX
    rw [major_packT, if_neg (by decide), fnField_packT]
    exact congrArg (fun o => Except.ok (Instr.xUnpk o)) (unpackT_pack ..)) h

theorem xVtos (o : OpT) : Statement (.xVtos o) := fun h =>
  decodeSlot_of 5 _ _ _ (major_packT ..) (by decide) (by
    unfold candidate candidateX
    rw [major_packT, if_neg (by decide), fnField_packT]
    exact congrArg (fun o => Except.ok (Instr.xVtos o)) (unpackT_pack ..)) h

theorem xStov (o : OpT) : Statement (.xStov o) := fun h =>
  decodeSlot_of 5 _ _ _ (major_packT ..) (by decide) (by
    unfold candidate candidateX
    rw [major_packT, if_neg (by decide), fnField_packT]
    exact congrArg (fun o => Except.ok (Instr.xStov o)) (unpackT_pack ..)) h

theorem mRun8 (o : OpMR) : Statement (.mRun8 o) := fun h =>
  decodeSlot_of 6 _ _ _ (major_packMR ..) (by decide) (by
    unfold candidate candidateM
    rw [major_packMR, if_neg (by decide)]
    exact congrArg (fun o => Except.ok (Instr.mRun8 o)) (unpackMR_pack ..)) h

theorem mRun4 (o : OpMR) : Statement (.mRun4 o) := fun h =>
  decodeSlot_of 6 _ _ _ (major_packMR ..) (by decide) (by
    unfold candidate candidateM
    rw [major_packMR, if_neg (by decide)]
    exact congrArg (fun o => Except.ok (Instr.mRun4 o)) (unpackMR_pack ..)) h

theorem mRunt (o : OpMR) : Statement (.mRunt o) := fun h =>
  decodeSlot_of 6 _ _ _ (major_packMR ..) (by decide) (by
    unfold candidate candidateM
    rw [major_packMR, if_neg (by decide)]
    exact congrArg (fun o => Except.ok (Instr.mRunt o)) (unpackMR_pack ..)) h

theorem mWin (o : OpT) : Statement (.mWin o) := fun h =>
  decodeSlot_of 6 _ _ _ (major_packT ..) (by decide) (by
    unfold candidate candidateM
    rw [major_packT, if_neg (by decide), fnField_packT]
    exact congrArg (fun o => Except.ok (Instr.mWin o)) (unpackT_pack ..)) h

theorem mWsc (o : OpT) : Statement (.mWsc o) := fun h =>
  decodeSlot_of 6 _ _ _ (major_packT ..) (by decide) (by
    unfold candidate candidateM
    rw [major_packT, if_neg (by decide), fnField_packT]
    exact congrArg (fun o => Except.ok (Instr.mWsc o)) (unpackT_pack ..)) h

theorem mSwap (o : OpT) : Statement (.mSwap o) := fun h =>
  decodeSlot_of 6 _ _ _ (major_packT ..) (by decide) (by
    unfold candidate candidateM
    rw [major_packT, if_neg (by decide), fnField_packT]
    exact congrArg (fun o => Except.ok (Instr.mSwap o)) (unpackT_pack ..)) h

theorem mProm (o : OpT) : Statement (.mProm o) := fun h =>
  decodeSlot_of 6 _ _ _ (major_packT ..) (by decide) (by
    unfold candidate candidateM
    rw [major_packT, if_neg (by decide), fnField_packT]
    exact congrArg (fun o => Except.ok (Instr.mProm o)) (unpackT_pack ..)) h

theorem mDrain (o : OpT) : Statement (.mDrain o) := fun h =>
  decodeSlot_of 6 _ _ _ (major_packT ..) (by decide) (by
    unfold candidate candidateM
    rw [major_packT, if_neg (by decide), fnField_packT]
    exact congrArg (fun o => Except.ok (Instr.mDrain o)) (unpackT_pack ..)) h

theorem mZrd (o : OpT) : Statement (.mZrd o) := fun h =>
  decodeSlot_of 6 _ _ _ (major_packT ..) (by decide) (by
    unfold candidate candidateM
    rw [major_packT, if_neg (by decide), fnField_packT]
    exact congrArg (fun o => Except.ok (Instr.mZrd o)) (unpackT_pack ..)) h

theorem mBrd (o : OpT) : Statement (.mBrd o) := fun h =>
  decodeSlot_of 6 _ _ _ (major_packT ..) (by decide) (by
    unfold candidate candidateM
    rw [major_packT, if_neg (by decide), fnField_packT]
    exact congrArg (fun o => Except.ok (Instr.mBrd o)) (unpackT_pack ..)) h

theorem mZclr (o : OpT) : Statement (.mZclr o) := fun h =>
  decodeSlot_of 6 _ _ _ (major_packT ..) (by decide) (by
    unfold candidate candidateM
    rw [major_packT, if_neg (by decide), fnField_packT]
    exact congrArg (fun o => Except.ok (Instr.mZclr o)) (unpackT_pack ..)) h

theorem mFold (o : OpT) : Statement (.mFold o) := fun h =>
  decodeSlot_of 6 _ _ _ (major_packT ..) (by decide) (by
    unfold candidate candidateM
    rw [major_packT, if_neg (by decide), fnField_packT]
    exact congrArg (fun o => Except.ok (Instr.mFold o)) (unpackT_pack ..)) h

theorem mClip (o : OpT) : Statement (.mClip o) := fun h =>
  decodeSlot_of 6 _ _ _ (major_packT ..) (by decide) (by
    unfold candidate candidateM
    rw [major_packT, if_neg (by decide), fnField_packT]
    exact congrArg (fun o => Except.ok (Instr.mClip o)) (unpackT_pack ..)) h

theorem mCal (o : OpT) : Statement (.mCal o) := fun h =>
  decodeSlot_of 6 _ _ _ (major_packT ..) (by decide) (by
    unfold candidate candidateM
    rw [major_packT, if_neg (by decide), fnField_packT]
    exact congrArg (fun o => Except.ok (Instr.mCal o)) (unpackT_pack ..)) h

theorem mPin (o : OpT) : Statement (.mPin o) := fun h =>
  decodeSlot_of 6 _ _ _ (major_packT ..) (by decide) (by
    unfold candidate candidateM
    rw [major_packT, if_neg (by decide), fnField_packT]
    exact congrArg (fun o => Except.ok (Instr.mPin o)) (unpackT_pack ..)) h

theorem swapExchange : Statement .swapExchange := fun _ => trivial

theorem passEnd : Statement .passEnd := fun _ => trivial

theorem promotion : Statement .promotion := fun _ => trivial

theorem driftCapRise : Statement .driftCapRise := fun _ => trivial

theorem columnRetrim : Statement .columnRetrim := fun _ => trivial

theorem backgroundCalibration : Statement .backgroundCalibration := fun _ => trivial

theorem rebuildComplete : Statement .rebuildComplete := fun _ => trivial

theorem changeOfRoles : Statement .changeOfRoles := fun _ => trivial

theorem eCpush (o : OpT) : Statement (.eCpush o) := fun h =>
  decodeSlot_of 7 _ _ _ (major_packT ..) (by decide) (by
    unfold candidate candidateE
    rw [major_packT, if_neg (by decide), fnField_packT]
    exact congrArg (fun o => Except.ok (Instr.eCpush o)) (unpackT_pack ..)) h

theorem eCpop (o : OpT) : Statement (.eCpop o) := fun h =>
  decodeSlot_of 7 _ _ _ (major_packT ..) (by decide) (by
    unfold candidate candidateE
    rw [major_packT, if_neg (by decide), fnField_packT]
    exact congrArg (fun o => Except.ok (Instr.eCpop o)) (unpackT_pack ..)) h

theorem eGidx (o : OpT) : Statement (.eGidx o) := fun h =>
  decodeSlot_of 7 _ _ _ (major_packT ..) (by decide) (by
    unfold candidate candidateE
    rw [major_packT, if_neg (by decide), fnField_packT]
    exact congrArg (fun o => Except.ok (Instr.eGidx o)) (unpackT_pack ..)) h

theorem eBarm (o : OpT) : Statement (.eBarm o) := fun h =>
  decodeSlot_of 7 _ _ _ (major_packT ..) (by decide) (by
    unfold candidate candidateE
    rw [major_packT, if_neg (by decide), fnField_packT]
    exact congrArg (fun o => Except.ok (Instr.eBarm o)) (unpackT_pack ..)) h

theorem eBexp (o : OpT) : Statement (.eBexp o) := fun h =>
  decodeSlot_of 7 _ _ _ (major_packT ..) (by decide) (by
    unfold candidate candidateE
    rw [major_packT, if_neg (by decide), fnField_packT]
    exact congrArg (fun o => Except.ok (Instr.eBexp o)) (unpackT_pack ..)) h

theorem eBarv (o : OpT) : Statement (.eBarv o) := fun h =>
  decodeSlot_of 7 _ _ _ (major_packT ..) (by decide) (by
    unfold candidate candidateE
    rw [major_packT, if_neg (by decide), fnField_packT]
    exact congrArg (fun o => Except.ok (Instr.eBarv o)) (unpackT_pack ..)) h

theorem eCq (o : OpT) : Statement (.eCq o) := fun h =>
  decodeSlot_of 7 _ _ _ (major_packT ..) (by decide) (by
    unfold candidate candidateE
    rw [major_packT, if_neg (by decide), fnField_packT]
    exact congrArg (fun o => Except.ok (Instr.eCq o)) (unpackT_pack ..)) h

theorem eCqi (o : OpT) : Statement (.eCqi o) := fun h =>
  decodeSlot_of 7 _ _ _ (major_packT ..) (by decide) (by
    unfold candidate candidateE
    rw [major_packT, if_neg (by decide), fnField_packT]
    exact congrArg (fun o => Except.ok (Instr.eCqi o)) (unpackT_pack ..)) h

theorem eCqpop (o : OpT) : Statement (.eCqpop o) := fun h =>
  decodeSlot_of 7 _ _ _ (major_packT ..) (by decide) (by
    unfold candidate candidateE
    rw [major_packT, if_neg (by decide), fnField_packT]
    exact congrArg (fun o => Except.ok (Instr.eCqpop o)) (unpackT_pack ..)) h

theorem eOsend (o : OpT) : Statement (.eOsend o) := fun h =>
  decodeSlot_of 7 _ _ _ (major_packT ..) (by decide) (by
    unfold candidate candidateE
    rw [major_packT, if_neg (by decide), fnField_packT]
    exact congrArg (fun o => Except.ok (Instr.eOsend o)) (unpackT_pack ..)) h

theorem eUsend (o : OpT) : Statement (.eUsend o) := fun h =>
  decodeSlot_of 7 _ _ _ (major_packT ..) (by decide) (by
    unfold candidate candidateE
    rw [major_packT, if_neg (by decide), fnField_packT]
    exact congrArg (fun o => Except.ok (Instr.eUsend o)) (unpackT_pack ..)) h

theorem eCsend (o : OpT) : Statement (.eCsend o) := fun h =>
  decodeSlot_of 7 _ _ _ (major_packT ..) (by decide) (by
    unfold candidate candidateE
    rw [major_packT, if_neg (by decide), fnField_packT]
    exact congrArg (fun o => Except.ok (Instr.eCsend o)) (unpackT_pack ..)) h

theorem eRecv (o : OpT) : Statement (.eRecv o) := fun h =>
  decodeSlot_of 7 _ _ _ (major_packT ..) (by decide) (by
    unfold candidate candidateE
    rw [major_packT, if_neg (by decide), fnField_packT]
    exact congrArg (fun o => Except.ok (Instr.eRecv o)) (unpackT_pack ..)) h

theorem eSpawn (o : OpT) : Statement (.eSpawn o) := fun h =>
  decodeSlot_of 7 _ _ _ (major_packT ..) (by decide) (by
    unfold candidate candidateE
    rw [major_packT, if_neg (by decide), fnField_packT]
    exact congrArg (fun o => Except.ok (Instr.eSpawn o)) (unpackT_pack ..)) h

theorem eDec (o : OpT) : Statement (.eDec o) := fun h =>
  decodeSlot_of 7 _ _ _ (major_packT ..) (by decide) (by
    unfold candidate candidateE
    rw [major_packT, if_neg (by decide), fnField_packT]
    exact congrArg (fun o => Except.ok (Instr.eDec o)) (unpackT_pack ..)) h

theorem eDone (o : OpT) : Statement (.eDone o) := fun h =>
  decodeSlot_of 7 _ _ _ (major_packT ..) (by decide) (by
    unfold candidate candidateE
    rw [major_packT, if_neg (by decide), fnField_packT]
    exact congrArg (fun o => Except.ok (Instr.eDone o)) (unpackT_pack ..)) h

theorem eArm (o : OpT) : Statement (.eArm o) := fun h =>
  decodeSlot_of 7 _ _ _ (major_packT ..) (by decide) (by
    unfold candidate candidateE
    rw [major_packT, if_neg (by decide), fnField_packT]
    exact congrArg (fun o => Except.ok (Instr.eArm o)) (unpackT_pack ..)) h

theorem ePrime (o : OpT) : Statement (.ePrime o) := fun h =>
  decodeSlot_of 7 _ _ _ (major_packT ..) (by decide) (by
    unfold candidate candidateE
    rw [major_packT, if_neg (by decide), fnField_packT]
    exact congrArg (fun o => Except.ok (Instr.ePrime o)) (unpackT_pack ..)) h

theorem bundleEntry : Statement .bundleEntry := fun _ => trivial

theorem bundleCommit : Statement .bundleCommit := fun _ => trivial

theorem resultLand : Statement .resultLand := fun _ => trivial

theorem restartMarkEstablish : Statement .restartMarkEstablish := fun _ => trivial

theorem stampDue : Statement .stampDue := fun _ => trivial

theorem preciseFault : Statement .preciseFault := fun _ => trivial

theorem engineFault : Statement .engineFault := fun _ => trivial

theorem replayAck : Statement .replayAck := fun _ => trivial

theorem replayNak : Statement .replayNak := fun _ => trivial

theorem retryBackoffExpiry : Statement .retryBackoffExpiry := fun _ => trivial

theorem garmStore : Statement .garmStore := fun _ => trivial

theorem gprimeStore : Statement .gprimeStore := fun _ => trivial

theorem gctlResume : Statement .gctlResume := fun _ => trivial

theorem gctlRestart : Statement .gctlRestart := fun _ => trivial

theorem gctlAbandon : Statement .gctlAbandon := fun _ => trivial

theorem abandonComplete : Statement .abandonComplete := fun _ => trivial

theorem successorDecrement : Statement .successorDecrement := fun _ => trivial

theorem spawnAtHomeRennet : Statement .spawnAtHomeRennet := fun _ => trivial

theorem dispatch : Statement .dispatch := fun _ => trivial

theorem stagedDispatch : Statement .stagedDispatch := fun _ => trivial

theorem displacementRequest : Statement .displacementRequest := fun _ => trivial

theorem yield : Statement .yield := fun _ => trivial

theorem yieldTimeout : Statement .yieldTimeout := fun _ => trivial

theorem preemptWritebackDone : Statement .preemptWritebackDone := fun _ => trivial

theorem fusionChange : Statement .fusionChange := fun _ => trivial

theorem podRecordForward : Statement .podRecordForward := fun _ => trivial

theorem podRecordResponse : Statement .podRecordResponse := fun _ => trivial

theorem churnParamWrite : Statement .churnParamWrite := fun _ => trivial

theorem churnGoWrite : Statement .churnGoWrite := fun _ => trivial

theorem copyStart : Statement .copyStart := fun _ => trivial

theorem copyComplete : Statement .copyComplete := fun _ => trivial

theorem granuleHoldRelease : Statement .granuleHoldRelease := fun _ => trivial

theorem gatherRowDeliver : Statement .gatherRowDeliver := fun _ => trivial

theorem barrierArm : Statement .barrierArm := fun _ => trivial

theorem barrierExpect : Statement .barrierExpect := fun _ => trivial

theorem barrierArrival : Statement .barrierArrival := fun _ => trivial

theorem curdQueryAccept : Statement .curdQueryAccept := fun _ => trivial

theorem curdResultDeliver : Statement .curdResultDeliver := fun _ => trivial

theorem curdProgramStart : Statement .curdProgramStart := fun _ => trivial

theorem curdRefreshWindow : Statement .curdRefreshWindow := fun _ => trivial

theorem qNop (w : BitVec 4) : Statement (.qNop w) := fun h => by
  have hn := Option.isNone_iff_eq_none.mp h
  change decodeCurd (packQ w 0x0 0 0 0 0 0) = _
  simp [decodeCurd, packQ_op, packQ_w, packQ_d, packQ_a, packQ_b, packQ_f, packQ_imm, hn]

theorem qArg (w : BitVec 4) (d : BitVec 3) (imm : BitVec 12) : Statement (.qArg w d imm) := fun h => by
  have hn := Option.isNone_iff_eq_none.mp h
  change decodeCurd (packQ w 0x1 d 0 0 0 imm) = _
  simp [decodeCurd, packQ_op, packQ_w, packQ_d, packQ_a, packQ_b, packQ_f, packQ_imm, hn]

theorem qAddi (w : BitVec 4) (d : BitVec 3) (a : BitVec 3) (imm : BitVec 12) : Statement (.qAddi w d a imm) := fun h => by
  have hn := Option.isNone_iff_eq_none.mp h
  change decodeCurd (packQ w 0x2 d a 0 0 imm) = _
  simp [decodeCurd, packQ_op, packQ_w, packQ_d, packQ_a, packQ_b, packQ_f, packQ_imm, hn]

theorem qRd (w : BitVec 4) (d : BitVec 3) (a : BitVec 3) (f : BitVec 3) : Statement (.qRd w d a f) := fun h => by
  have hn := Option.isNone_iff_eq_none.mp h
  change decodeCurd (packQ w 0x3 d a 0 f 0) = _
  simp [decodeCurd, packQ_op, packQ_w, packQ_d, packQ_a, packQ_b, packQ_f, packQ_imm, hn]

theorem qWr (w : BitVec 4) (a : BitVec 3) (b : BitVec 3) (f : BitVec 3) : Statement (.qWr w a b f) := fun h => by
  have hn := Option.isNone_iff_eq_none.mp h
  change decodeCurd (packQ w 0x4 0 a b f 0) = _
  simp [decodeCurd, packQ_op, packQ_w, packQ_d, packQ_a, packQ_b, packQ_f, packQ_imm, hn]

theorem qLook (w : BitVec 4) (d : BitVec 3) (a : BitVec 3) (b : BitVec 3) : Statement (.qLook w d a b) := fun h => by
  have hn := Option.isNone_iff_eq_none.mp h
  change decodeCurd (packQ w 0x5 d a b 0 0) = _
  simp [decodeCurd, packQ_op, packQ_w, packQ_d, packQ_a, packQ_b, packQ_f, packQ_imm, hn]

theorem qLerp (w : BitVec 4) (d : BitVec 3) (a : BitVec 3) (b : BitVec 3) : Statement (.qLerp w d a b) := fun h => by
  have hn := Option.isNone_iff_eq_none.mp h
  change decodeCurd (packQ w 0x6 d a b 0 0) = _
  simp [decodeCurd, packQ_op, packQ_w, packQ_d, packQ_a, packQ_b, packQ_f, packQ_imm, hn]

theorem qTld (w : BitVec 4) (a : BitVec 3) (b : BitVec 3) (imm : BitVec 12) : Statement (.qTld w a b imm) := fun h => by
  have hn := Option.isNone_iff_eq_none.mp h
  change decodeCurd (packQ w 0x7 0 a b 0 imm) = _
  simp [decodeCurd, packQ_op, packQ_w, packQ_d, packQ_a, packQ_b, packQ_f, packQ_imm, hn]

theorem qAdd (w : BitVec 4) (d : BitVec 3) (a : BitVec 3) (b : BitVec 3) : Statement (.qAdd w d a b) := fun h => by
  have hn := Option.isNone_iff_eq_none.mp h
  change decodeCurd (packQ w 0x8 d a b 0 0) = _
  simp [decodeCurd, packQ_op, packQ_w, packQ_d, packQ_a, packQ_b, packQ_f, packQ_imm, hn]

theorem qAdds (w : BitVec 4) (d : BitVec 3) (a : BitVec 3) (b : BitVec 3) : Statement (.qAdds w d a b) := fun h => by
  have hn := Option.isNone_iff_eq_none.mp h
  change decodeCurd (packQ w 0x8 d a b 1 0) = _
  simp [decodeCurd, packQ_op, packQ_w, packQ_d, packQ_a, packQ_b, packQ_f, packQ_imm, hn]

theorem qSub (w : BitVec 4) (d : BitVec 3) (a : BitVec 3) (b : BitVec 3) : Statement (.qSub w d a b) := fun h => by
  have hn := Option.isNone_iff_eq_none.mp h
  change decodeCurd (packQ w 0x8 d a b 2 0) = _
  simp [decodeCurd, packQ_op, packQ_w, packQ_d, packQ_a, packQ_b, packQ_f, packQ_imm, hn]

theorem qSubs (w : BitVec 4) (d : BitVec 3) (a : BitVec 3) (b : BitVec 3) : Statement (.qSubs w d a b) := fun h => by
  have hn := Option.isNone_iff_eq_none.mp h
  change decodeCurd (packQ w 0x8 d a b 3 0) = _
  simp [decodeCurd, packQ_op, packQ_w, packQ_d, packQ_a, packQ_b, packQ_f, packQ_imm, hn]

theorem qExt (w : BitVec 4) (d : BitVec 3) (a : BitVec 3) (imm : BitVec 12) : Statement (.qExt w d a imm) := fun h => by
  have hn := Option.isNone_iff_eq_none.mp h
  change decodeCurd (packQ w 0x9 d a 0 0 imm) = _
  simp [decodeCurd, packQ_op, packQ_w, packQ_d, packQ_a, packQ_b, packQ_f, packQ_imm, hn]

theorem qExts (w : BitVec 4) (d : BitVec 3) (a : BitVec 3) (imm : BitVec 12) : Statement (.qExts w d a imm) := fun h => by
  have hn := Option.isNone_iff_eq_none.mp h
  change decodeCurd (packQ w 0x9 d a 0 1 imm) = _
  simp [decodeCurd, packQ_op, packQ_w, packQ_d, packQ_a, packQ_b, packQ_f, packQ_imm, hn]

theorem qIns (w : BitVec 4) (d : BitVec 3) (a : BitVec 3) (b : BitVec 3) (imm : BitVec 12) : Statement (.qIns w d a b imm) := fun h => by
  have hn := Option.isNone_iff_eq_none.mp h
  change decodeCurd (packQ w 0xA d a b 0 imm) = _
  simp [decodeCurd, packQ_op, packQ_w, packQ_d, packQ_a, packQ_b, packQ_f, packQ_imm, hn]

theorem qLoop (w : BitVec 4) (a : BitVec 3) (imm : BitVec 12) : Statement (.qLoop w a imm) := fun h => by
  have hn := Option.isNone_iff_eq_none.mp h
  change decodeCurd (packQ w 0xB 0 a 0 0 imm) = _
  simp [decodeCurd, packQ_op, packQ_w, packQ_d, packQ_a, packQ_b, packQ_f, packQ_imm, hn]

theorem qEnd (w : BitVec 4) : Statement (.qEnd w) := fun h => by
  have hn := Option.isNone_iff_eq_none.mp h
  change decodeCurd (packQ w 0xC 0 0 0 0 0) = _
  simp [decodeCurd, packQ_op, packQ_w, packQ_d, packQ_a, packQ_b, packQ_f, packQ_imm, hn]

theorem walkerRequest : Statement .walkerRequest := fun _ => trivial

theorem routineTimeout : Statement .routineTimeout := fun _ => trivial

theorem wkLdp (t s d : BitVec 5) : Statement (.wkLdp t s d) := fun _ => by
  change decodeWalker (packWk 0 t s d) = _
  simp [decodeWalker, packWk_head, packWk_op, packWk_fn, packWk_t, packWk_s, packWk_d]

theorem wkLdh (t s d : BitVec 5) : Statement (.wkLdh t s d) := fun _ => by
  change decodeWalker (packWk 1 t s d) = _
  simp [decodeWalker, packWk_head, packWk_op, packWk_fn, packWk_t, packWk_s, packWk_d]

theorem wkDone (t s d : BitVec 5) : Statement (.wkDone t s d) := fun _ => by
  change decodeWalker (packWk 2 t s d) = _
  simp [decodeWalker, packWk_head, packWk_op, packWk_fn, packWk_t, packWk_s, packWk_d]

theorem wkFail (t s d : BitVec 5) : Statement (.wkFail t s d) := fun _ => by
  change decodeWalker (packWk 3 t s d) = _
  simp [decodeWalker, packWk_head, packWk_op, packWk_fn, packWk_t, packWk_s, packWk_d]

theorem wkInv (t s d : BitVec 5) : Statement (.wkInv t s d) := fun _ => by
  change decodeWalker (packWk 4 t s d) = _
  simp [decodeWalker, packWk_head, packWk_op, packWk_fn, packWk_t, packWk_s, packWk_d]

theorem wkChn (t s d : BitVec 5) : Statement (.wkChn t s d) := fun _ => by
  change decodeWalker (packWk 5 t s d) = _
  simp [decodeWalker, packWk_head, packWk_op, packWk_fn, packWk_t, packWk_s, packWk_d]

theorem hostHandoverAnswer : Statement .hostHandoverAnswer := fun _ => trivial

theorem handoverTimeout : Statement .handoverTimeout := fun _ => trivial

theorem sliceRetire : Statement .sliceRetire := fun _ => trivial

theorem sliceRestore : Statement .sliceRestore := fun _ => trivial

theorem eccError : Statement .eccError := fun _ => trivial

theorem sramScrub : Statement .sramScrub := fun _ => trivial

theorem dramPatrolScrub : Statement .dramPatrolScrub := fun _ => trivial

theorem dramRefresh : Statement .dramRefresh := fun _ => trivial

theorem telemetry : Statement .telemetry := fun _ => trivial

theorem parityRotationCopy : Statement .parityRotationCopy := fun _ => trivial

theorem parityRotationSwitch : Statement .parityRotationSwitch := fun _ => trivial

theorem thermalReading : Statement .thermalReading := fun _ => trivial

theorem powerPacing : Statement .powerPacing := fun _ => trivial

theorem flitReceive : Statement .flitReceive := fun _ => trivial

theorem linkNakReceive : Statement .linkNakReceive := fun _ => trivial

theorem beaconSend : Statement .beaconSend := fun _ => trivial

theorem orderedInject : Statement .orderedInject := fun _ => trivial

theorem orderedDeliver : Statement .orderedDeliver := fun _ => trivial

theorem circuitSlotSend : Statement .circuitSlotSend := fun _ => trivial

theorem circuitDeliver : Statement .circuitDeliver := fun _ => trivial

theorem receiveRingWrite : Statement .receiveRingWrite := fun _ => trivial

theorem portDown : Statement .portDown := fun _ => trivial

theorem portTrained : Statement .portTrained := fun _ => trivial

theorem portTrainingTimeout : Statement .portTrainingTimeout := fun _ => trivial

theorem watermarkStall : Statement .watermarkStall := fun _ => trivial

theorem packetHeldTimeout : Statement .packetHeldTimeout := fun _ => trivial

theorem podTimeSlew : Statement .podTimeSlew := fun _ => trivial

theorem podTimeDrift : Statement .podTimeDrift := fun _ => trivial

theorem lockstepSignatureSend : Statement .lockstepSignatureSend := fun _ => trivial

theorem lockstepSignatureReceive : Statement .lockstepSignatureReceive := fun _ => trivial

theorem lockstepSignatureTimeout : Statement .lockstepSignatureTimeout := fun _ => trivial

theorem cxlLinkDown : Statement .cxlLinkDown := fun _ => trivial

theorem hostCxlMemAccess : Statement .hostCxlMemAccess := fun _ => trivial

theorem mgmtRegisterWrite : Statement .mgmtRegisterWrite := fun _ => trivial

theorem ctxwinWrite : Statement .ctxwinWrite := fun _ => trivial

theorem invselWrite : Statement .invselWrite := fun _ => trivial

theorem ckillWrite : Statement .ckillWrite := fun _ => trivial

theorem domainWrite : Statement .domainWrite := fun _ => trivial

theorem keyWrite : Statement .keyWrite := fun _ => trivial

theorem dbgcGo : Statement .dbgcGo := fun _ => trivial

theorem rslenWrite : Statement .rslenWrite := fun _ => trivial

theorem routineStoreWrite : Statement .routineStoreWrite := fun _ => trivial

theorem attgoWrite : Statement .attgoWrite := fun _ => trivial

theorem porterrClear : Statement .porterrClear := fun _ => trivial

theorem reset : Statement .reset := fun _ => trivial

theorem readyBitSet : Statement .readyBitSet := fun _ => trivial

theorem cxlCompletionTimeout : Statement .cxlCompletionTimeout := fun _ => trivial

end Sys2Proof.Laws.Encoding
end

