-- ==== Sys2Proof/Tests/Slice0.lean ====
section
/-! SUPPORT. The author's own tests: the decoding of words written out from the encoding tables of the specification, the
encoding checks' refusals, a witness of every statement's hypotheses, and small tests of one step. -/

namespace Sys2Proof.Tests

set_option Elab.async false

open Sys2Proof Sys2Proof.Machine

/-! ### Decoding -/

/-- A slot word decodes to the instruction. -/
def readsAs (n : Fin 8) (w : BitVec 31) (i : Instr) : Bool :=
  match decodeSlot n w with
  | .ok (some j) => j == i
  | _ => false

/-- A curd word decodes to the instruction. -/
def curdReadsAs (w : BitVec 32) (i : Instr) : Bool :=
  match decodeCurd w with
  | .ok j => j == i
  | _ => false

/-- Words of slot 0, written from the fields of R190 and the majors of R194. -/
theorem test_decode_control :
  ([(0x033FFFF0, .cBr ⟨9, 1, 0xffff0⟩),
   (0x04292345, .cCall ⟨5, 0x12345⟩),
   (0x0600C018, .cJr ⟨0, 6, 0, 3⟩),
   (0x0628C019, .cCallr ⟨5, 6, 0, 3⟩),
   (0x0600C01A, .cRet ⟨0, 6, 0, 3⟩),
   (0x094FFFFD, .cBsz ⟨41, 0x7fffd⟩),
   (0x0B4FFFFD, .cBsnz ⟨41, 0x7fffd⟩),
   (0x0C28C159, .cLoop ⟨5, 6, 0x15, 9⟩),
   (0x0E2FA159, .cNest ⟨5, 61, 0x15, 9⟩),
   (0x1028C398, .cWaitb ⟨5, 6, 7, 3⟩),
   (0x1028C399, .cWaitr ⟨5, 6, 7, 3⟩),
   (0x1028C01A, .cWaitq ⟨5, 6, 0, 3⟩),
   (0x1028C01B, .cWaitt ⟨5, 6, 0, 3⟩),
   (0x1548005A, .cRcr ⟨41, 0x5a⟩),
   (0x1748005A, .cWcr ⟨41, 0x5a⟩),
   (0x1948005A, .cScr ⟨41, 0x5a⟩),
   (0x1B48005A, .cCcr ⟨41, 0x5a⟩),
   (0x1C280018, .cSpop ⟨5, 0, 0, 3⟩),
   (0x1E00BEEF, .cTrap ⟨0, 0xbeef⟩),
   (0x2000FFFF, .cBrk ⟨0, 0xffff⟩),
   (0x22000018, .cHalt ⟨0, 0, 0, 3⟩)] : List (BitVec 31 × Instr)).all (fun p => readsAs 0 p.1 p.2) = true := by decide +kernel

/-- Words of slot 1, written from the fields of R190 and the majors of R195. -/
theorem test_decode_scalar_1 :
  ([(0x0228C398, .aAdd ⟨5, 6, 7, 3⟩),
   (0x0228C399, .aSub ⟨5, 6, 7, 3⟩),
   (0x0228C39A, .aAnd ⟨5, 6, 7, 3⟩),
   (0x0228C39B, .aOr ⟨5, 6, 7, 3⟩),
   (0x0228C39C, .aXor ⟨5, 6, 7, 3⟩),
   (0x0228C39D, .aAndn ⟨5, 6, 7, 3⟩),
   (0x0228C39E, .aOrn ⟨5, 6, 7, 3⟩),
   (0x0228C39F, .aXnor ⟨5, 6, 7, 3⟩),
   (0x0428C398, .aShl ⟨5, 6, 7, 3⟩),
   (0x0428C399, .aShr ⟨5, 6, 7, 3⟩),
   (0x0428C39A, .aSra ⟨5, 6, 7, 3⟩),
   (0x0428C39B, .aRor ⟨5, 6, 7, 3⟩),
   (0x0428C39C, .aMin ⟨5, 6, 7, 3⟩),
   (0x0428C39D, .aMax ⟨5, 6, 7, 3⟩),
   (0x0428C39E, .aMinu ⟨5, 6, 7, 3⟩),
   (0x0428C39F, .aMaxu ⟨5, 6, 7, 3⟩),
   (0x0628C398, .aMul ⟨5, 6, 7, 3⟩),
   (0x0628C399, .aMulh ⟨5, 6, 7, 3⟩),
   (0x0628C39A, .aMulhu ⟨5, 6, 7, 3⟩),
   (0x0628C39B, .aDiv ⟨5, 6, 7, 3⟩),
   (0x0628C39C, .aDivu ⟨5, 6, 7, 3⟩),
   (0x0628C39D, .aRem ⟨5, 6, 7, 3⟩),
   (0x0628C39E, .aRemu ⟨5, 6, 7, 3⟩),
   (0x0828C398, .aCeq ⟨5, 6, 7, 3⟩)] : List (BitVec 31 × Instr)).all (fun p => readsAs 1 p.1 p.2) = true := by decide +kernel

/-- Words of slot 1, written from the fields of R190 and the majors of R195. -/
theorem test_decode_scalar_2 :
  ([(0x0828C399, .aCne ⟨5, 6, 7, 3⟩),
   (0x0828C39A, .aClt ⟨5, 6, 7, 3⟩),
   (0x0828C39B, .aCge ⟨5, 6, 7, 3⟩),
   (0x0828C39C, .aCltu ⟨5, 6, 7, 3⟩),
   (0x0828C39D, .aCgeu ⟨5, 6, 7, 3⟩),
   (0x0828C39E, .aCtst ⟨5, 6, 7, 3⟩),
   (0x0828C39F, .aCntst ⟨5, 6, 7, 3⟩),
   (0x0A28C398, .aSel ⟨5, 6, 7, 3⟩),
   (0x0A28C019, .aClz ⟨5, 6, 0, 3⟩),
   (0x0A28C01A, .aCtz ⟨5, 6, 0, 3⟩),
   (0x0A28C01B, .aPopc ⟨5, 6, 0, 3⟩),
   (0x0C28C398, .aPand ⟨5, 6, 7, 3⟩),
   (0x0C28C399, .aPor ⟨5, 6, 7, 3⟩),
   (0x0C28C39A, .aPxor ⟨5, 6, 7, 3⟩),
   (0x0C28C39B, .aPandn ⟨5, 6, 7, 3⟩),
   (0x0F0C519E, .aAdds ⟨33, 34, 35, 3⟩ 6),
   (0x110C5FD9, .aAddi ⟨33, 34, 0x1fd, 9⟩),
   (0x130C5FD9, .aAndi ⟨33, 34, 0x1fd, 9⟩),
   (0x150C5FD9, .aOri ⟨33, 34, 0x1fd, 9⟩),
   (0x170C5FD9, .aXori ⟨33, 34, 0x1fd, 9⟩),
   (0x190C43E9, .aShli ⟨33, 34, 0x3e, 9⟩),
   (0x1B0C43E9, .aShri ⟨33, 34, 0x3e, 9⟩),
   (0x1D0C43E9, .aSrai ⟨33, 34, 0x3e, 9⟩),
   (0x1E6C5009, .aCeqi ⟨13, 34, 0x100, 9⟩)] : List (BitVec 31 × Instr)).all (fun p => readsAs 1 p.1 p.2) = true := by decide +kernel

/-- Words of slot 1, written from the fields of R190 and the majors of R195. -/
theorem test_decode_scalar_3 :
  ([(0x206C5009, .aClti ⟨13, 34, 0x100, 9⟩),
   (0x226C5009, .aCltui ⟨13, 34, 0x100, 9⟩),
   (0x29F40001, .aMovi ⟨62, 0x40001⟩),
   (0x2A0FFFFE, .aCat ⟨1, 0x7fffe⟩)] : List (BitVec 31 × Instr)).all (fun p => readsAs 1 p.1 p.2) = true := by decide +kernel

/-- Words of slot 2, written from the fields of R190 and the majors of R196. -/
theorem test_decode_load :
  ([(0x032A55A6, .lLde ⟨37, 9, 21, 0xa, 6⟩),
   (0x052A55A6, .lLdei ⟨37, 9, 21, 0xa, 6⟩),
   (0x072A55A6, .lLdv ⟨37, 9, 21, 0xa, 6⟩),
   (0x092A55A6, .lLdvi ⟨37, 9, 21, 0xa, 6⟩),
   (0x0A0255A6, .lPf ⟨0, 9, 21, 0xa, 6⟩),
   (0x0A0A55A6, .lPfL2 ⟨1, 9, 21, 0xa, 6⟩),
   (0x0A1255A6, .lPfTile ⟨2, 9, 21, 0xa, 6⟩),
   (0x0C280018, .lGpop ⟨5, 0, 0, 3⟩),
   (0x0E28C018, .lHld ⟨5, 6, 0, 3⟩),
   (0x1028C398, .lAdv ⟨5, 6, 7, 3⟩)] : List (BitVec 31 × Instr)).all (fun p => readsAs 2 p.1 p.2) = true := by decide +kernel

/-- Words of slot 3, written from the fields of R190 and the majors of R197. -/
theorem test_decode_store :
  ([(0x032A55A6, .wSte ⟨37, 9, 21, 0xa, 6⟩),
   (0x052A55A6, .wStv ⟨37, 9, 21, 0xa, 6⟩),
   (0x106C519C, .wAadd ⟨13, 34, 35, 3⟩ 4),
   (0x126C519B, .wAand ⟨13, 34, 35, 3⟩ 3),
   (0x146C519B, .wAor ⟨13, 34, 35, 3⟩ 3),
   (0x166C519B, .wAxor ⟨13, 34, 35, 3⟩ 3),
   (0x186C519B, .wAmin ⟨13, 34, 35, 3⟩ 3),
   (0x1A6C519B, .wAmax ⟨13, 34, 35, 3⟩ 3),
   (0x1C6C519B, .wAminu ⟨13, 34, 35, 3⟩ 3),
   (0x1E6C519B, .wAmaxu ⟨13, 34, 35, 3⟩ 3),
   (0x206C519B, .wAswp ⟨13, 34, 35, 3⟩ 3),
   (0x226C519D, .wAcas ⟨13, 34, 35, 3⟩ 5),
   (0x246C401D, .wArd ⟨13, 34, 0, 3⟩ 5),
   (0x30000018, .wFrel ⟨0, 0, 0, 3⟩),
   (0x30000019, .wFacq ⟨0, 0, 0, 3⟩),
   (0x3000001A, .wFall ⟨0, 0, 0, 3⟩),
   (0x330C4559, .wAcq ⟨33, 34, 0x55, 9⟩),
   (0x340442A9, .wRel ⟨0, 34, 0x2a, 9⟩),
   (0x3600C398, .wBind ⟨0, 6, 7, 3⟩),
   (0x3828C018, .wRacq ⟨5, 6, 0, 3⟩),
   (0x3A28C018, .wRrel ⟨5, 6, 0, 3⟩)] : List (BitVec 31 × Instr)).all (fun p => readsAs 3 p.1 p.2) = true := by decide +kernel

/-- Words of slot 4, written from the fields of R190 and the majors of R198. -/
theorem test_decode_vector_1 :
  ([(0x0228C3D0, .vFadd ⟨5, 6, 7, 10⟩ 0),
   (0x0428C3D1, .vFsub ⟨5, 6, 7, 10⟩ 1),
   (0x0628C3D2, .vFmul ⟨5, 6, 7, 10⟩ 2),
   (0x0828C3D3, .vFma ⟨5, 6, 7, 10⟩ 3),
   (0x0A28C3D4, .vFnma ⟨5, 6, 7, 10⟩ 4),
   (0x0C28C3D0, .vFmax ⟨5, 6, 7, 10⟩ 0),
   (0x0E28C3D1, .vFmin ⟨5, 6, 7, 10⟩ 1),
   (0x1028C3D1, .vFceq ⟨5, 6, 7, 10⟩ 1),
   (0x1228C3D2, .vFclt ⟨5, 6, 7, 10⟩ 2),
   (0x1428C3D4, .vFcle ⟨5, 6, 7, 10⟩ 4),
   (0x1628C053, .vFabs ⟨5, 6, 0, 10⟩ 3),
   (0x1828C054, .vFneg ⟨5, 6, 0, 10⟩ 4),
   (0x1A28C3D2, .vXscl ⟨5, 6, 7, 10⟩ 2),
   (0x2028C3D0, .vAdd ⟨5, 6, 7, 10⟩ 0),
   (0x2228C3D1, .vSub ⟨5, 6, 7, 10⟩ 1),
   (0x2428C3D2, .vMul ⟨5, 6, 7, 10⟩ 2),
   (0x2628C3D0, .vAdds ⟨5, 6, 7, 10⟩ 0),
   (0x2828C3D1, .vSubs ⟨5, 6, 7, 10⟩ 1),
   (0x2A28C3D2, .vMin ⟨5, 6, 7, 10⟩ 2),
   (0x2C28C3D0, .vMax ⟨5, 6, 7, 10⟩ 0),
   (0x2E28C3D1, .vAnd ⟨5, 6, 7, 10⟩ 1),
   (0x3028C3D2, .vOr ⟨5, 6, 7, 10⟩ 2),
   (0x3228C3D0, .vXor ⟨5, 6, 7, 10⟩ 0),
   (0x3428C3D1, .vShl ⟨5, 6, 7, 10⟩ 1)] : List (BitVec 31 × Instr)).all (fun p => readsAs 4 p.1 p.2) = true := by decide +kernel

/-- Words of slot 4, written from the fields of R190 and the majors of R198. -/
theorem test_decode_vector_2 :
  ([(0x3628C3D2, .vSra ⟨5, 6, 7, 10⟩ 2),
   (0x3828C3D0, .vShr ⟨5, 6, 7, 10⟩ 0),
   (0x3A28C3D1, .vCeq ⟨5, 6, 7, 10⟩ 1),
   (0x3C28C3D2, .vClt ⟨5, 6, 7, 10⟩ 2),
   (0x4028C398, .vKand ⟨5, 6, 7, 3⟩),
   (0x4028C399, .vKor ⟨5, 6, 7, 3⟩),
   (0x4028C39A, .vKxor ⟨5, 6, 7, 3⟩),
   (0x4028C39B, .vKandn ⟨5, 6, 7, 3⟩),
   (0x4828C051, .vRsum ⟨5, 6, 0, 10⟩ 1),
   (0x4A28C052, .vRmax ⟨5, 6, 0, 10⟩ 2),
   (0x4C28C050, .vRmin ⟨5, 6, 0, 10⟩ 0),
   (0x4E28C052, .vRisum ⟨5, 6, 0, 10⟩ 2),
   (0x5028C3D2, .vPerm ⟨5, 6, 7, 10⟩ 2),
   (0x5228C051, .vBcst ⟨5, 6, 0, 10⟩ 1),
   (0x5428C3D1, .vSlide ⟨5, 6, 7, 10⟩ 1),
   (0x6028C050, .vExp2r ⟨5, 6, 0, 10⟩ 0),
   (0x6228C051, .vExp2f ⟨5, 6, 0, 10⟩ 1),
   (0x6428C052, .vLog2r ⟨5, 6, 0, 10⟩ 2),
   (0x6628C050, .vLog2f ⟨5, 6, 0, 10⟩ 0),
   (0x6828C051, .vRcpr ⟨5, 6, 0, 10⟩ 1),
   (0x6A28C052, .vRcpf ⟨5, 6, 0, 10⟩ 2),
   (0x6C28C050, .vRsqr ⟨5, 6, 0, 10⟩ 0),
   (0x6E28C051, .vRsqf ⟨5, 6, 0, 10⟩ 1),
   (0x7028C052, .vTanhr ⟨5, 6, 0, 10⟩ 2)] : List (BitVec 31 × Instr)).all (fun p => readsAs 4 p.1 p.2) = true := by decide +kernel

/-- Words of slot 4, written from the fields of R190 and the majors of R198. -/
theorem test_decode_vector_3 :
  ([(0x7228C050, .vTanhf ⟨5, 6, 0, 10⟩ 0),
   (0x7428C051, .vSinr ⟨5, 6, 0, 10⟩ 1),
   (0x7628C052, .vSinf ⟨5, 6, 0, 10⟩ 2),
   (0x7828C050, .vCosr ⟨5, 6, 0, 10⟩ 0),
   (0x7A28C051, .vCosf ⟨5, 6, 0, 10⟩ 1)] : List (BitVec 31 × Instr)).all (fun p => readsAs 4 p.1 p.2) = true := by decide +kernel

/-- Words of slot 5, written from the fields of R190 and the majors of R199. -/
theorem test_decode_transposer :
  ([(0x030C5AAD, .xCvt ⟨33, 34, 0x35, 0x16, 1⟩),
   (0x052A55A6, .xBpt ⟨37, 9, 21, 0xa, 6⟩),
   (0x0628C3C8, .xTrr ⟨5, 6, 7, 9⟩),
   (0x0828C3C8, .xTrc ⟨5, 6, 7, 9⟩),
   (0x0A28C3C8, .xMxq ⟨5, 6, 7, 9⟩),
   (0x0C28C3C8, .xMxd ⟨5, 6, 7, 9⟩),
   (0x0E28C3C8, .xSaq ⟨5, 6, 7, 9⟩),
   (0x1028C3C8, .xPack ⟨5, 6, 7, 9⟩),
   (0x1228C3C8, .xUnpk ⟨5, 6, 7, 9⟩),
   (0x1428C3C8, .xVtos ⟨5, 6, 7, 9⟩),
   (0x1628C3C8, .xStov ⟨5, 6, 7, 9⟩)] : List (BitVec 31 × Instr)).all (fun p => readsAs 5 p.1 p.2) = true := by decide +kernel

/-- Words of slot 6, written from the fields of R190 and the majors of R200. -/
theorem test_decode_matrix :
  ([(0x03347916, .mRun8 ⟨9, 10, 3, 12, 17, 6⟩),
   (0x05347916, .mRun4 ⟨9, 10, 3, 12, 17, 6⟩),
   (0x07347916, .mRunt ⟨9, 10, 3, 12, 17, 6⟩),
   (0x1028C018, .mWin ⟨5, 6, 0, 3⟩),
   (0x1228C398, .mWsc ⟨5, 6, 7, 3⟩),
   (0x14000018, .mSwap ⟨0, 0, 0, 3⟩),
   (0x16000018, .mProm ⟨0, 0, 0, 3⟩),
   (0x1828C018, .mDrain ⟨5, 6, 0, 3⟩),
   (0x1A28C398, .mZrd ⟨5, 6, 7, 3⟩),
   (0x1C28C398, .mBrd ⟨5, 6, 7, 3⟩),
   (0x1E00C398, .mZclr ⟨0, 6, 7, 3⟩),
   (0x20280018, .mFold ⟨5, 0, 0, 3⟩),
   (0x2228C018, .mClip ⟨5, 6, 0, 3⟩),
   (0x2428C018, .mCal ⟨5, 6, 0, 3⟩),
   (0x2628C018, .mPin ⟨5, 6, 0, 3⟩)] : List (BitVec 31 × Instr)).all (fun p => readsAs 6 p.1 p.2) = true := by decide +kernel

/-- Words of slot 7, written from the fields of R190 and the majors of R201. -/
theorem test_decode_engine :
  ([(0x0200C398, .eCpush ⟨0, 6, 7, 3⟩),
   (0x0428C018, .eCpop ⟨5, 6, 0, 3⟩),
   (0x0600C398, .eGidx ⟨0, 6, 7, 3⟩),
   (0x1028C398, .eBarm ⟨5, 6, 7, 3⟩),
   (0x1200C398, .eBexp ⟨0, 6, 7, 3⟩),
   (0x1400C018, .eBarv ⟨0, 6, 0, 3⟩),
   (0x2000C398, .eCq ⟨0, 6, 7, 3⟩),
   (0x2228C398, .eCqi ⟨5, 6, 7, 3⟩),
   (0x24280018, .eCqpop ⟨5, 0, 0, 3⟩),
   (0x3028C018, .eOsend ⟨5, 6, 0, 3⟩),
   (0x3200C398, .eUsend ⟨0, 6, 7, 3⟩),
   (0x3428C018, .eCsend ⟨5, 6, 0, 3⟩),
   (0x3628C018, .eRecv ⟨5, 6, 0, 3⟩),
   (0x4000C018, .eSpawn ⟨0, 6, 0, 3⟩),
   (0x4200C018, .eDec ⟨0, 6, 0, 3⟩),
   (0x44000018, .eDone ⟨0, 0, 0, 3⟩),
   (0x4600C398, .eArm ⟨0, 6, 7, 3⟩),
   (0x4800C398, .ePrime ⟨0, 6, 7, 3⟩)] : List (BitVec 31 × Instr)).all (fun p => readsAs 7 p.1 p.2) = true := by decide +kernel

/-- Curd words, written from the layout of R344 and the rows of R345. -/
theorem test_decode_curd :
  ([(0x70000000, .qNop 7),
   (0x11A001FE, .qArg 1 5 0x1FE),
   (0x22B80FFD, .qAddi 2 5 6 0xFFD),
   (0x33B84000, .qRd 3 5 6 4),
   (0x4419A000, .qWr 4 6 3 2),
   (0x55B98000, .qLook 5 5 6 3),
   (0x66B98000, .qLerp 6 5 6 3),
   (0x771980A5, .qTld 7 6 3 0xA5),
   (0x88B98000, .qAdd 8 5 6 3),
   (0x98B99000, .qAdds 9 5 6 3),
   (0xA8B9A000, .qSub 10 5 6 3),
   (0xB8B9B000, .qSubs 11 5 6 3),
   (0xC9B8006B, .qExt 12 5 6 0x6b),
   (0xD9B8106B, .qExts 13 5 6 0x6b),
   (0xEAB9801F, .qIns 14 5 6 3 0x1F),
   (0xFB180FF7, .qLoop 15 6 0xFF7),
   (0x1C000000, .qEnd 1)] : List (BitVec 32 × Instr)).all (fun p => curdReadsAs p.1 p.2) = true := by decide +kernel

/-- Walker words, written from the layout of R55: custom-0, funct3 0 to 5. -/
theorem test_decode_walker :
  ([(0x0006870B, .wkLdp 0 13 14),
   (0x0006970B, .wkLdh 0 13 14),
   (0x0136A00B, .wkDone 19 13 0),
   (0x0136B00B, .wkFail 19 13 0),
   (0x0136C70B, .wkInv 19 13 14),
   (0x0136D70B, .wkChn 19 13 14)] : List (BitVec 32 × Instr)).all (fun p => decodeWalker p.1 == some p.2) = true := by decide +kernel

/-- The words of R344 and R55 as decodeTableWord reads them. -/
theorem test_table_words :
  ([(0x70000000, .qNop 7),
   (0x11A001FE, .qArg 1 5 0x1FE),
   (0x22B80FFD, .qAddi 2 5 6 0xFFD),
   (0x0006870B, .wkLdp 0 13 14),
   (0x0006970B, .wkLdh 0 13 14),
   (0x0136A00B, .wkDone 19 13 0),
   (0x0136B00B, .wkFail 19 13 0),
   (0x0136C70B, .wkInv 19 13 14),
   (0x0136D70B, .wkChn 19 13 14)] : List (BitVec 32 × Instr)).all (fun p => decodeTableWord 32 p.1.toNat == some p.2) = true := by decide +kernel

/-- Slot words that the specification writes out beside their source lines: the examples of encodings (files 08 to 13)
and the programs of files 17 and 19. -/
theorem test_decode_written_words :
    readsAs 1 0x10208010 (.aAddi ⟨4, 4, 1, 0⟩) && readsAs 2 0x0708C520 (.lLdv ⟨33, 3, 5, 2, 0⟩) &&
    readsAs 2 0x07410A00 (.lLdv ⟨40, 4, 10, 0, 0⟩) && readsAs 4 0x08446080 (.vFma ⟨8, 35, 1, 0⟩ 0) &&
    readsAs 3 0x02A10E00 (.wSte ⟨20, 4, 14, 0, 0⟩) && readsAs 4 0x214D1402 (.vAdd ⟨41, 40, 40, 0⟩ 2) &&
    readsAs 4 0x48292000 (.vRsum ⟨5, 9, 0, 0⟩ 0) && readsAs 5 0x1430A000 (.xVtos ⟨6, 5, 0, 0⟩) &&
    readsAs 1 0x28480003 (.aMovi ⟨9, 3⟩) && readsAs 0 0x0C092020 (.cLoop ⟨1, 9, 2, 0⟩) &&
    readsAs 1 0x10514018 (.aAddi ⟨10, 10, 1, 8⟩) && readsAs 1 0x10596059 (.aAddi ⟨11, 11, 5, 9⟩) &&
    readsAs 6 0x02702260 (.mRun8 ⟨3, 8, 1, 1, 6, 0⟩) && readsAs 6 0x11410000 (.mWin ⟨40, 8, 0, 0⟩) &&
    readsAs 6 0x1238A480 (.mWsc ⟨7, 5, 9, 0⟩) && readsAs 2 0x10300600 (.lAdv ⟨6, 0, 12, 0⟩) &&
    readsAs 6 0x14000000 (.mSwap ⟨0, 0, 0, 0⟩) && readsAs 6 0x1AA06000 (.mZrd ⟨20, 3, 0, 0⟩) &&
    readsAs 7 0x1020A300 (.eBarm ⟨4, 5, 6, 0⟩) && readsAs 7 0x02010480 (.eCpush ⟨0, 8, 9, 0⟩) &&
    readsAs 7 0x05414000 (.eCpop ⟨40, 10, 0, 0⟩) && readsAs 0 0x1058A200 (.cWaitb ⟨11, 5, 4, 0⟩) &&
    readsAs 2 0x023007C0 (.lLde ⟨6, 0, 7, 12, 0⟩) && readsAs 4 0x02412500 (.vFadd ⟨8, 9, 10, 0⟩ 0) &&
    readsAs 5 0x06106400 (.xTrr ⟨2, 3, 8, 0⟩) && readsAs 7 0x24600000 (.eCqpop ⟨12, 0, 0, 0⟩) = true := by
  decide +kernel

/-- The curd program that file 14 writes out, word by word. -/
theorem test_decode_written_curd_words :
    ([(0x01200000, .qArg 0 1 0), (0x01A00003, .qArg 0 5 3), (0x02800011, .qAddi 0 4 0 17),
      (0xB3040000, .qRd 11 0 1 0), (0x97020000, .qTld 9 0 4 0), (0x93280000, .qRd 9 1 2 0),
      (0x99240060, .qExt 9 1 1 0x60), (0x0A650004, .qIns 0 3 1 2 4), (0xA58E0000, .qLook 10 4 3 4),
      (0x08B60000, .qAdd 0 5 5 4), (0x02480100, .qAddi 0 2 2 256), (0x0B180FF7, .qLoop 0 6 0xFF7),
      (0x0416A000, .qWr 0 5 5 2), (0x0C000000, .qEnd 0)] : List (BitVec 32 × Instr)).all
      (fun p => curdReadsAs p.1 p.2) = true := by decide +kernel

/-! ### The encoding checks refuse -/

/-- One ill-formed term for each check of the fields d, a and b (R191, R377): a field that is zero by definition is
not, and a register outside its kind. -/
theorem test_illformed_fields :
    encodingCode (.cHalt ⟨1, 0, 0, 0⟩) = some 0x0104 ∧ encodingCode (.cHalt ⟨0, 1, 0, 0⟩) = some 0x0104 ∧
    encodingCode (.cHalt ⟨0, 0, 1, 0⟩) = some 0x0104 ∧ encodingCode (.aCeq ⟨16, 1, 2, 0⟩) = some 0x0106 ∧
    encodingCode (.aPand ⟨1, 16, 2, 0⟩) = some 0x0106 ∧ encodingCode (.aPand ⟨1, 2, 16, 0⟩) = some 0x0106 ∧
    encodingCode (.vFceq ⟨8, 1, 2, 0⟩ 0) = some 0x0106 ∧ encodingCode (.vKor ⟨1, 8, 2, 0⟩) = some 0x0106 ∧
    encodingCode (.vKor ⟨1, 2, 8, 0⟩) = some 0x0106 ∧ encodingCode (.lHld ⟨0, 1, 0, 0⟩) = some 0x0106 ∧
    encodingCode (.lHld ⟨32, 1, 0, 0⟩) = some 0x0106 ∧ encodingCode (.lAdv ⟨32, 1, 2, 0⟩) = some 0x0106 ∧
    encodingCode (.mWsc ⟨1, 32, 2, 0⟩) = some 0x0106 ∧ encodingCode (.mZrd ⟨1, 16, 2, 0⟩) = some 0x0106 ∧
    encodingCode (.cSpop ⟨0, 0, 0, 0⟩) = some 0x0106 ∧ encodingCode (.eCpop ⟨61, 1, 0, 0⟩) = some 0x0106 := by
  decide

/-- The fields must be zero before a register of another kind is looked at: the table of R377 is in order. -/
theorem test_illformed_order : encodingCode (.mZclr ⟨1, 16, 0, 0⟩) = some 0x0104 := by decide

/-- One ill-formed term for each check of control and scalar words: LEN 0, d[5:3] of c.loop, the nest register and the
cursor base of c.nest, an unassigned control register, imm19[18:12] of one, c.trap's upper bits, a shift of 64. -/
theorem test_illformed_control :
    encodingCode (.cLoop ⟨1, 9, 0, 0⟩) = some 0x0103 ∧ encodingCode (.cLoop ⟨8, 9, 1, 0⟩) = some 0x0104 ∧
    encodingCode (.cNest ⟨0, 1, 0, 0⟩) = some 0x0103 ∧ encodingCode (.cNest ⟨6, 1, 1, 0⟩) = some 0x0106 ∧
    encodingCode (.cNest ⟨0, 63, 1, 0⟩) = some 0x0106 ∧ encodingCode (.cRcr ⟨1, 0x01A⟩) = some 0x0108 ∧
    encodingCode (.cWcr ⟨1, 0x060⟩) = some 0x0108 ∧ encodingCode (.cScr ⟨1, 0x1000⟩) = some 0x0104 ∧
    encodingCode (.cTrap ⟨1, 0⟩) = some 0x0104 ∧ encodingCode (.cBrk ⟨0, 0x10000⟩) = some 0x0104 ∧
    encodingCode (.aShli ⟨1, 2, 64, 0⟩) = some 0x0104 := by decide

/-- One ill-formed term for each check of memory words: h0 with zm[1] or W, an action of l.pf that is none, a use that
the atomic does not admit, d of the uses com and quant, b of w.ard, and the immediates of w.acq and w.rel. -/
theorem test_illformed_memory :
    encodingCode (.lLde ⟨1, 0, 2, 2, 0⟩) = some 0x0104 ∧ encodingCode (.wStv ⟨1, 0, 2, 4, 0⟩) = some 0x0104 ∧
    encodingCode (.lLdv ⟨1, 0, 2, 8, 0⟩) = some 0x0104 ∧ encodingCode (.lPf ⟨3, 1, 2, 0, 0⟩) = some 0x0103 ∧
    encodingCode (.lPfL2 ⟨1, 0, 2, 2, 0⟩) = some 0x0104 ∧ encodingCode (.wAadd ⟨0, 1, 2, 0⟩ 6) = some 0x0103 ∧
    encodingCode (.wAswp ⟨0, 1, 2, 0⟩ 2) = some 0x0103 ∧ encodingCode (.wAand ⟨0, 1, 2, 0⟩ 4) = some 0x0103 ∧
    encodingCode (.wAadd ⟨1, 1, 2, 0⟩ 2) = some 0x0104 ∧ encodingCode (.wAadd ⟨16, 1, 2, 0⟩ 4) = some 0x0104 ∧
    encodingCode (.wArd ⟨1, 1, 2, 0⟩ 0) = some 0x0104 ∧ encodingCode (.wAcq ⟨1, 2, 128, 0⟩) = some 0x0104 ∧
    encodingCode (.wRel ⟨0, 2, 64, 0⟩) = some 0x0104 ∧ encodingCode (.wRel ⟨1, 2, 0, 0⟩) = some 0x0104 := by decide

/-- One ill-formed term for each check of vector, transposer and matrix words: a ty that the row does not admit, a
format code that x.cvt does not admit, a lane guard of x.vtos, a split point above 10, and h0 as a run's operand. -/
theorem test_illformed_arrays :
    encodingCode (.vFadd ⟨1, 2, 3, 0⟩ 5) = some 0x0103 ∧ encodingCode (.vAdd ⟨1, 2, 3, 0⟩ 3) = some 0x0103 ∧
    encodingCode (.xCvt ⟨1, 2, 0x0A, 0, 0⟩) = some 0x0103 ∧ encodingCode (.xCvt ⟨1, 2, 0, 0x36, 0⟩) = some 0x0103 ∧
    encodingCode (.xVtos ⟨1, 2, 3, 7⟩) = some 0x0103 ∧ encodingCode (.mRun8 ⟨0, 11, 0, 0, 1, 0⟩) = some 0x0103 ∧
    encodingCode (.mRunt ⟨0, 10, 0, 0, 0, 0⟩) = some 0x0106 := by decide

/-- One ill-formed term for each check of curd words (R345): an argument no AW admits, a width of q.rd and of q.wr that
is none, a block of q.tld, a field of q.ext that passes bit 31, a shift of q.ins. -/
theorem test_illformed_curd :
    encodingCode (.qArg 0 1 511) = some 0x4110 ∧ encodingCode (.qRd 0 1 2 3) = some 0x4110 ∧
    encodingCode (.qWr 0 1 2 4) = some 0x4110 ∧ encodingCode (.qTld 0 1 2 256) = some 0x4110 ∧
    encodingCode (.qExt 0 1 2 0x03F) = some 0x4110 ∧ encodingCode (.qExts 0 1 2 0x400) = some 0x4110 ∧
    encodingCode (.qIns 0 1 2 3 32) = some 0x4110 := by decide

/-- wellFormed refuses each of them, and admits the boundary beside it. -/
theorem test_wellFormed_smoke :
    Instr.wellFormed (.cHalt ⟨1, 0, 0, 0⟩) = false ∧ Instr.wellFormed (.cHalt ⟨0, 0, 0, 15⟩) = true ∧
    Instr.wellFormed (.aCeq ⟨16, 63, 63, 0⟩) = false ∧ Instr.wellFormed (.aCeq ⟨15, 63, 63, 0⟩) = true ∧
    Instr.wellFormed (.eCpop ⟨61, 1, 0, 0⟩) = false ∧ Instr.wellFormed (.eCpop ⟨60, 1, 0, 0⟩) = true ∧
    Instr.wellFormed (.xVtos ⟨1, 2, 3, 8⟩) = true ∧ Instr.wellFormed (.mRun8 ⟨0, 10, 0, 0, 1, 0⟩) = true ∧
    Instr.wellFormed (.qExt 0 1 2 0x01F) = true ∧ Instr.wellFormed (.cRcr ⟨1, 0x019⟩) = true := by decide

/-- The code that a slot word takes. -/
def slotRefuses (n : Fin 8) (w : BitVec 31) (c : EncCode) : Bool :=
  match decodeSlot n w with
  | .error e => e == c
  | .ok _ => false

/-- Words that are no instruction (R377): major 0 with a bit set, major 0x3F, an absent major, an unassigned fn, and a
run's split point above 10. -/
theorem test_words_refused :
    slotRefuses 1 0x00000001 0x0102 && slotRefuses 4 0x7E000000 0x0102 && slotRefuses 0 0x24000000 0x0101 &&
    slotRefuses 2 0x12000000 0x0101 && slotRefuses 1 0x06000007 0x0103 && slotRefuses 7 0x02000001 0x0103 &&
    slotRefuses 6 0x02160010 0x0103 = true := by decide +kernel

/-- Bundles that break a row of R377 take its code in the slot that breaks it: bit 31 of slot 6, a STAMPED bundle with
YIELD, and a register that two slots name (R381). -/
theorem test_bundles_refused :
    (slotCodes ((1 : BitVec 256) <<< 223))[6]? = some (some 0x0105) ∧
    (slotCodes ((1 : BitVec 256) <<< 159 ||| (1 : BitVec 256) <<< 127))[4]? = some (some 0x0304) ∧
    (slotCodes ((0x10208010 : BitVec 256) <<< 32 ||| (0x02204200 : BitVec 256) <<< 64))[2]? = some (some 0x0201) := by
  decide +kernel

/-! ### Small states -/

/-- A bundle of no-operations with STOP. -/
def emptyBundle : Bundle :=
  { stop := true, sync := false, mark := false, yld := false, stamp := none, bcast := false, slots := List.replicate 8 none }

/-- A bundle in progress at 0x1000. -/
def openBundle : Current :=
  { pc := 0x1000, bundle := emptyBundle, left := [], stampWait := false, pre := Regs.zero, gateLen := 0, faults := [], preGroup := [],
    flags := 0, next := 0x1020, taken := false, crWrites := [], pops := [], acquire := false, cIdle := false, bracketed := false, ending := .goOn }

/-- A tile-table entry of a DRAM frame of tower 0, valid, writable and cacheable (R46). -/
def frameEntry (frame : BitVec 64) : BitVec 64 := 0xA00C000000000000 ||| frame

/-- After reset, with pages 0 and 1 of the flat view of context 0 at frames 16 and 17, as core 0, its Churn and its Rennet have found them, and
core 0 in a bundle. -/
def base : State :=
  let s := State.reset
  let s := s.setTower 0 { s.tower 0 with
    tiles := [0, 32, 44].flatMap fun u => [⟨u, 0, 0, 0, 0, frameEntry 16⟩, ⟨u, 0, 0, 0, 1, frameEntry 17⟩] }
  s.setMe { s.me with current := some openBundle }

/-- With another register state of core 0. -/
def onRegs (s : State) (f : Regs → Regs) : State := s.setMe { s.me with regs := f s.me.regs }
/-- With s[n] holding v. -/
def withS (n : Nat) (v : Word) (s : State) : State := onRegs s fun r => { r with s := r.s.setIfInBounds n v }
/-- With memory bytes from key on. -/
def withBytes (key : Nat) (v : Nat) (n : Nat) (s : State) : State := writeNat s key n v

/-- A record of context 0 that runs, of an instance that is deterministic or not. -/
def someRun (det : Bool) : Running :=
  { record := 0x8000, recKey := 0x108000, inst := 0x9000, instKey := 0x109000, ctx := 0, gen := 0, level := 0, group := 1, prio := 1,
    yseq := 0xA000, saveKey := 0x120000, saveFlat := 0xB000, home := 0, stamp := 5, pickup := 0,
    launch := { det := det, lock := false, t0 := 0, flen := 12, lpeer := 0, rbank := 0 }, preemptor := none }

/-- Core 0 runs that record. -/
def runs (det : Bool) (s : State) : State := s.setMe { s.me with run := some (someRun det) }

/-- A descriptor of rank 1 of tensor 5: its format, ESIZE and DIM0 (R42). -/
def rowTensor (fmt esize dim : Nat) : BitVec 512 :=
  BitVec.ofNat 512 (5 * 2 ^ 432 + esize * 2 ^ 428 + 2 ^ 425 + fmt * 2 ^ 408 + (19 - esize) * 2 ^ 384 +
    (2 ^ 32 + 2 ^ 64 + 2 ^ 96 + 2 ^ 128 + 2 ^ 160) + dim)

/-- With handle 1 to an FP32 tensor of 100 elements, handle 2 to an INT4 one of 100, both in frame 17. -/
def tensors (s : State) : State :=
  let s := s.setTower 0 { s.tower 0 with tiles := [⟨0, 0, 0, 5, 0, frameEntry 17⟩, ⟨32, 0, 0, 5, 0, frameEntry 17⟩] ++ (s.tower 0).tiles }
  onRegs s fun r => { r with h := (r.h.setIfInBounds 1 ((rowTensor 0x01 5 100).setWidth 704)).setIfInBounds 2 ((rowTensor 0x13 2 100).setWidth 704) }

/-- The place of tensor 5's only tile. -/
def rowPlace : Place := { tid := 5, tile := 0, tte := frameEntry 17 }

/-- A group of one row and P passes with one column group delivered, to z3. -/
def someGroup (passes p : Nat) : Group :=
  { z := 3, m := 1, wfmt := 0x12, afmt := 0x22, p := p, wsh := 0, wrow := 0, zcg := 0, obg := 0, ng := 1, ea := [0x7F],
    sw := List.replicate 128 0x3F800000, passes := passes, bound := 0, cx := [], sat := false, bundle := 0x1000 }

/-- A digital pass of that group. -/
def somePass (promo poisoned : Bool) : Pass :=
  { seq := 1, bundle := 0x1000, z := 3, sp := 0, m := 1, wfmt := 0x12, pa := 2, planes := [5, 6], seff := 0,
    order := #v[0, 1, 2, 3], par := 4, fb := 0, recon := false, det := false, gpos := 0, early := false, promo := promo, half := false,
    zcg := 0, obg := 0, ng := 1, fdst := 40, nored := false, restarts := 0, nb := [], cx := [], sat := false, poisoned := poisoned }

/-- With core 0's matrix engine changed. -/
def onMat (s : State) (f : Matrix → Matrix) : State := s.setMe { s.me with mat := f s.me.mat }

/-- With handle 6 to an SA2 tensor of two segments and 16 rows in bank 6 of cluster 0, in SA2 format, and one column group set up. -/
def activations (s : State) : State :=
  let d := 6 * 2 ^ 432 + 3 * 2 ^ 428 + 2 * 2 ^ 425 + 0x22 * 2 ^ 408 + 7 * 2 ^ 388 + 9 * 2 ^ 384 + (2 ^ 64 + 2 ^ 96 + 2 ^ 128 + 2 ^ 160) + 16 * 2 ^ 32 + 1024
  let tiles := (List.range 8).map fun n => (⟨0, 0, 0, 6, n, 0x9008000000000000 + BitVec.ofNat 64 (32 * n + 6)⟩ : TileEntry)
  let s := s.setTower 0 { s.tower 0 with tiles := tiles ++ (s.tower 0).tiles }
  let s := s.setCluster 0 { s.cluster 0 with bankfmt := s.cluster 0 |>.bankfmt.setIfInBounds 6 0x8022 }
  onRegs s fun r => { r with h := r.h.setIfInBounds 6 ((BitVec.ofNat 512 d).setWidth 704), msetup := 1 <<< 8 }

/-- The context entry of tag 0 is valid in tower 0 (R51). -/
def current (s : State) : State := withBytes 0 0x10100 8 s

/-! ### Witnesses: states and operands that meet the hypotheses of the statements -/

/-- A result of another slot is in flight for v3; one of slot 1 for s5. -/
def someFlight : List InFlight :=
  [{ slot := 4, reg := some (.v 3), value := 9, rem := 2, bc := false }, { slot := 1, reg := some (.s 5), value := 7, rem := 1, bc := false }]

theorem witness_writesWithoutLatency :
    RegRef.constant (.s 63) = false ∧ Claims.fits (.s 63) (BitVec.ofNat 4096 (2 ^ 64 - 1)) ∧
    Claims.aloneInGroup { base.me with group := [⟨0, .s 62, 0⟩, ⟨2, .s 63, 0⟩] } 2 (.s 63) := by
  refine ⟨by decide, ?_, ?_⟩ <;> simp only [Claims.fits, Claims.aloneInGroup] <;> decide +kernel

theorem witness_writesWithLatency :
    let k := (onRegs base fun r => { r with fly := someFlight }).me
    RegRef.constant (.s 5) = false ∧ Claims.fits (.s 5) 0 ∧ Claims.aloneInGroup k 1 (.s 5) ∧ Claims.ownFlight k 1 (.s 5) ∧
    (2 : Fin 8) ≠ 1 := by
  refine ⟨by decide, ?_, ?_, ?_, by decide⟩ <;> simp only [Claims.fits, Claims.aloneInGroup, Claims.ownFlight] <;> decide +kernel

/-- Both guards occur: p0 holds, p1 does not. -/
theorem witness_guards : base.guard slotA 0 = true ∧ base.guard slotA 1 = false ∧ base.guard slotC 0 = true ∧
    base.guard slotC 15 = false := by decide +kernel

theorem witness_scalarTables :
    (∃ o f lat, Claims.scalarTable (.aRem ⟨63, 1, 2, 0⟩) = some (o, f, lat)) ∧
    (∃ o r, Claims.compareTable (.aCntst ⟨15, 1, 2, 1⟩) = some (o, r)) ∧
    (∃ o f, Claims.predicateTable (.aPandn ⟨15, 15, 0, 1⟩) = some (o, f)) ∧
    (∃ o f, Claims.countTable (.aPopc ⟨0, 63, 0, 0⟩) = some (o, f)) ∧
    (∃ o f, Claims.immediateTable (.aSrai ⟨1, 2, 63, 0⟩) = some (o, f)) ∧ Instr.wellFormed (.aSrai ⟨1, 2, 63, 0⟩) = true ∧
    (∃ o r, Claims.immediateCompareTable (.aCltui ⟨15, 2, 256, 0⟩) = some (o, r)) :=
  ⟨⟨_, _, _, rfl⟩, ⟨_, _, rfl⟩, ⟨_, _, rfl⟩, ⟨_, _, rfl⟩, ⟨_, _, rfl⟩, by decide, ⟨_, _, rfl⟩⟩

theorem witness_branches :
    base.me.current = some openBundle ∧
    Claims.branchTable base (.cBr ⟨0, 0, 0xFFFFF⟩) = some (true, -1) ∧ Claims.branchTable base (.cBr ⟨0, 1, 3⟩) = some (false, 3) ∧
    Claims.branchTable base (.cBsz ⟨5, 0x40000⟩) = some (true, -262144) ∧
    Claims.branchTable base (.cBsnz ⟨5, 1⟩) = some (false, 1) := by decide +kernel

theorem witness_callsAndJumps :
    let s := withS 5 0x20 (withS 6 0x1F base)
    s.me.current = some openBundle ∧ s.guard slotC 0 = true ∧ (s.rdS slotC 5).toNat % 32 = 0 ∧
    (s.rdS slotC 6).toNat % 32 ≠ 0 ∧ s.guard slotC 1 = false := by decide +kernel

/-- A loop-count register entry of a counted loop: REM, EPD and LEN. -/
def loopEntry (nst : Bool) (rem epd cursor len : Nat) : Word := mkLcnt rem nst epd cursor len

/-- With n entries of the loop stack. -/
def withDepth (n : BitVec 64) (s : State) : State := onRegs s fun r => { r with ldep := n }

/-- The clauses of c.loop: each total at the edge of its range, and a depth of 3 and of 4. -/
theorem witness_countedLoops :
    let s := withS 5 0xFFFFFFF9 (withS 6 0xFFFFFFF8 (withDepth 3 base))
    s.me.current = some openBundle ∧ (7 : BitVec 6).toNat < 8 ∧ s.guard slotC 1 = false ∧ s.guard slotC 0 = true ∧
    loopDepth s.me.regs = 3 ∧ loopDepth (withDepth 4 base).me.regs = 4 ∧
    (s.rdS slotC 5).toNat + 7 = 2 ^ 32 ∧ (s.rdS slotC 6).toNat + 7 = 2 ^ 32 - 1 ∧ (s.rdS slotC 0).toNat + 0 = 0 ∧
    (s.rdS slotC 0).toNat + 1 = 1 := by decide +kernel

/-- With the bounds of n0 and n1. -/
def withNest (a b : Word) (s : State) : State := onRegs s fun r => { r with n := (r.n.setIfInBounds 0 a).setIfInBounds 1 b }

theorem witness_nests :
    let total (s : State) := ((s.me.regs.n.toList.take ((1 : BitVec 6).toNat + 1)).map fun w => w.toNat % 2 ^ 24).foldl (fun x y => x * y) 1
    base.me.current = some openBundle ∧ (5 : BitVec 6).toNat ≤ 5 ∧ base.guard slotC 1 = false ∧
    loopDepth (withDepth 4 base).me.regs = 4 ∧ loopDepth (withDepth 3 base).me.regs < 4 ∧
    2 ^ 32 ≤ total (withNest 0x10000 0x10000 base) ∧ total base = 0 ∧ total (withNest 1 1 base) = 1 ∧
    total (withNest 0xFFFF 0x10001 base) = 2 ^ 32 - 1 := by decide +kernel

/-- A counted loop of one bundle, a nest of two dimensions of two bundles, and an entry with nothing left. -/
theorem witness_loopBack :
    let r := (withDepth 1 base).me.regs
    let counted := { r with lcnt := r.lcnt.setIfInBounds 0 (loopEntry false 1 0 0 1), ladd := r.ladd.setIfInBounds 0 0x1000 }
    let nest := { r with lcnt := r.lcnt.setIfInBounds 0 (loopEntry true 2 1 62 2), ladd := r.ladd.setIfInBounds 0 0x1000,
                         n := (r.n.setIfInBounds 0 2).setIfInBounds 1 2 }
    let last := { r with lcnt := r.lcnt.setIfInBounds 0 (loopEntry false 0 0 0 1), ladd := r.ladd.setIfInBounds 0 0x1000 }
    0 < loopDepth r ∧ loopDepth r ≤ 4 ∧
    ((loopAdd counted 0).toNat % 32 = 0 ∧ (0x1000 : Word) = loopAdd counted 0 + BitVec.ofNat 64 (32 * (lcntLen (loopCnt counted 0) - 1)) ∧
      0 < lcntRem (loopCnt counted 0) ∧ lcntNst (loopCnt counted 0) = false) ∧
    ((0x1020 : Word) = loopAdd nest 0 + BitVec.ofNat 64 (32 * (lcntLen (loopCnt nest 0) - 1)) ∧
      0 < lcntRem (loopCnt nest 0) ∧ lcntNst (loopCnt nest 0) = true ∧ lcntCur (loopCnt nest 0) = 62 ∧
      1 ≤ lcntEpd (loopCnt nest 0) ∧ lcntEpd (loopCnt nest 0) ≤ 5 ∧ Claims.dimensionSteps nest (loopCnt nest 0) 1 ∧
      (∀ f ∈ nest.fly, f.reg = none)) ∧
    (lcntRem (loopCnt last 0) = 0 ∧ loopDepth last = 1 ∧
      (0x1000 : Word) = loopAdd last 0 + BitVec.ofNat 64 (32 * (lcntLen (loopCnt last 0) - 1))) := by
  simp only [Claims.dimensionSteps]; decide +kernel

theorem witness_waitsComplete :
    let s := withBytes (dramKey 0 0x100018) 77 4 (withBytes (dramKey 0 0x100020) (1 <<< 56) 8 (withS 5 0x18 (withS 6 0x20 (withS 7 3 (withS 8 4 base)))))
    let q := (withS 7 2 base).setMe { (withS 7 2 base).me with stats := [0], rows := [(0, 0)] }
    s.guard slotC 0 = true ∧ (s.rdS slotC 0).toNat ≤ s.hub.podTime.toNat ∧
    ((q.rdS slotC 7).toNat % 8 < 4 ∧ (q.rdS slotC 7).toNat / 8 % 32 = 0 ∧ (q.rdS slotC 7).toNat / 2 ^ 16 = 0 ∧
      0 < queueCount q q.now.core (q.rdS slotC 7)) ∧
    4 ≤ (s.rdS slotC 8).toNat % 8 ∧ detCore (runs true s) 0 = true ∧ detCore s s.now.core = false ∧
    ((s.rdS slotC 7).toNat % 4 ≠ 0 ∧ (s.rdS slotC 8).toNat % 8 ≠ 0) ∧
    ((reachHome s s.now.core (s.rdS slotC 5) false).1 = .ok (frameEntry 16) ∧
      (reachHome s s.now.core (s.rdS slotC 5) false).2.1 = dramKey 0 0x100018 ∧ (s.rdS slotC 5).toNat % 4 = 0 ∧
      (let s1 := touchHome (reachHome s s.now.core (s.rdS slotC 5) false).2.2 (dramKey 0 0x100018) 4 false
       poisonOf s1 (dramKey 0 0x100018) 4 = none ∧ readNat s1 (dramKey 0 0x100018) 4 ≠ (s.rdS slotC 0).toNat % 2 ^ 32)) ∧
    ((reachHome s s.now.core (s.rdS slotC 6) false).1 = .ok (frameEntry 16) ∧
      (reachHome s s.now.core (s.rdS slotC 6) false).2.1 = dramKey 0 0x100020 ∧ (s.rdS slotC 6).toNat % 8 = 0 ∧
      (let s1 := touchHome (reachHome s s.now.core (s.rdS slotC 6) false).2.2 (dramKey 0 0x100020) 8 false
       poisonOf s1 (dramKey 0 0x100020) 8 = none ∧ barPhase (readWord s1 (dramKey 0 0x100020)) ≠ (s.rdS slotC 0).toNat % 256)) := by
  decide +kernel

/-- A wait for a pod time. -/
def timeWait (t : Word) : Wait := { kind := waitTime, obj := t, arg := 0, key := 0, slot := slotC, dst := 9 }

theorem witness_waitsStall :
    let s := withS 5 1 base
    let w (t : Word) := base.setMe { base.me with stall := some (timeWait t) }
    s.guard slotC 0 = true ∧ s.yieldBit = false ∧ s.hub.podTime.toNat < (s.rdS slotC 5).toNat ∧
    ((w 0).me.stall = some (timeWait 0) ∧ waitResult (w 0) (w 0).now.core (timeWait 0) = some 0 ∧ (timeWait 0).kind ≠ waitBarrier) ∧
    ((w 1).me.stall = some (timeWait 1) ∧ waitResult (w 1) (w 1).now.core (timeWait 1) = none ∧ (timeWait 1).kind < 7) := by
  decide +kernel

theorem witness_controlRegisters :
    let r := (withDepth 1 base).me.regs
    let inUse := { r with lcnt := r.lcnt.setIfInBounds 0 (loopEntry true 2 1 62 2) }
    base.me.current = some openBundle ∧ nestInUse base.me.regs 0x028 = false ∧ nestInUse inUse 0x029 = true ∧
    nestInUse inUse 0x02A = false ∧ (0x0B ∈ [0x0B, 0x0C, 0x0D]) ∧ (0x02D ∈ Claims.plainRegisters) ∧ (0x004 ∈ Claims.plainRegisters) := by
  decide +kernel

theorem witness_trapsAndPops :
    let t (v r : Word) := onRegs base fun x => { x with trapv := v, tret := r }
    base.me.current = some openBundle ∧ base.guard slotC 0 = true ∧ base.me.stats = [] ∧
    (base.setMe { base.me with stats := [7, 8] }).me.stats = 7 :: [8] ∧
    ((t 0x2001 0).me.regs.trapv.getLsbD 0 = true ∧ (t 0x2001 0).me.regs.tret.getLsbD 0 = false) ∧
    (t 0x2000 0).me.regs.trapv.getLsbD 0 = false ∧ (t 0x2001 1).me.regs.tret.getLsbD 0 = true := by decide +kernel

theorem witness_places : descriptorOk (rowTensor 1 5 100) = true ∧ Claims.inside (rowTensor 1 5 100) (fun _ => 99) ∧
    ¬ Claims.inside (rowTensor 1 5 100) (fun _ => 100) ∧ Claims.inside (rowTensor 1 5 100) (fun _ => 0) ∧
    tileAddress (rowTensor 1 5 100) (fun _ => 0) ≠ tileAddress (rowTensor 1 5 100) (fun _ => 99) ∧ 0 < dRank (rowTensor 1 5 100) := by
  refine ⟨by decide +kernel, ?_, ?_, ?_, by decide +kernel, by decide +kernel⟩ <;> unfold Claims.inside
  · intro k hk; have : dRank (rowTensor 1 5 100) = 1 := by decide +kernel
    have : k = 0 := by omega
    subst this; decide +kernel
  · intro h; exact absurd (h 0 (by decide +kernel)) (by decide +kernel)
  · intro k hk; have : dRank (rowTensor 1 5 100) = 1 := by decide +kernel
    have : k = 0 := by omega
    subst this; decide +kernel

theorem witness_operands :
    let s := withS 5 0x1002 (withS 6 99 (tensors base))
    let rank (n : Nat) := onRegs s fun r => { r with h := r.h.setIfInBounds 1 (BitVec.ofNat 704 (n * 2 ^ 425)) }
    dRank (((rank 0).rdH 1).setWidth 512) = 0 ∧ dRank (((rank 7).rdH 1).setWidth 512) = 7 ∧
    (1 ≤ dRank (((rank 2).rdH 1).setWidth 512) ∧ dRank (((rank 2).rdH 1).setWidth 512) ≤ 6 ∧
      64 ≤ (63 : BitVec 6).toNat + dRank (((rank 2).rdH 1).setWidth 512) - 1) ∧
    ((63 : BitVec 6).toNat + dRank ((s.rdH 1).setWidth 512) - 1 < 64 ∧ 1 ≤ dRank ((s.rdH 1).setWidth 512)) ∧
    ((s.rdS slotL 5).toNat % 2 ^ ((8 : BitVec 4).toNat / 4) ≠ 0 ∧ (s.rdS slotL 5).toNat % 2 ^ ((4 : BitVec 4).toNat / 4) = 0 ∧
      (s.rdS slotL 5).toNat % 4 ≠ 0 ∧ (s.rdS slotL 0).toNat % 4 = 0) := by decide +kernel

/-- An element load, a row load and a coordinate outside its dimension (99 and 100 of 100 elements); the store clauses alike. -/
theorem witness_loadsAndStores :
    let s := withS 6 99 (withS 7 100 (tensors base))
    let p : Operand := { desc := some (rowTensor 1 5 100), tid := 5, tile := 0, bit := 99 * 32, width := 32, fmt := some 1, c0 := 99 }
    s.guard slotL 0 = true ∧ evaluate s slotL 1 6 0 false = .at p ∧ evaluate s slotL 1 7 0 false = .outside ∧
    (reachTile s s.now.core p.desc p.tile p.fmt false).1 = .ok (frameEntry 17) ∧
    (evaluate s slotL 1 6 0 true = .at p ∧ s.vectorGuard slotL 0 = true ∧
      (resolveLanes s.now.core p false (rowLanes s slotL p 6 0 0) [] s).1.1 = .ok 0 ∧
      (resolveLanes s.now.core p false (rowLanes s slotL p 6 0 0) [] s).2.1 = [(0, rowPlace, 99 * 32)]) ∧
    s.guard slotL 1 = false ∧ s.vectorGuard slotL 8 = false ∧ s.guard slotW 0 = true ∧
    evaluate s slotW 1 6 0 false = .at p ∧ (reachTile s s.now.core p.desc p.tile p.fmt true).1 = .ok (frameEntry 17) ∧
    s.vectorGuard slotW 0 = true ∧ evaluate s slotW 1 6 0 true = .at p ∧
    (resolveLanes s.now.core p true (rowLanes s slotW p 6 0 0) [] s).1.1 = .ok 0 ∧
    evaluate s slotW 1 7 0 false = .outside ∧ s.guard slotW 1 = false ∧ s.vectorGuard slotW 15 = false := by decide +kernel

theorem witness_rows :
    let s := withS 6 99 (tensors base)
    let p : Operand := { desc := some (rowTensor 1 5 100), tid := 5, tile := 0, bit := 99 * 32, width := 32, fmt := some 1, c0 := 99 }
    32 ∈ [2, 4, 8, 16, 32, 64] ∧ (0, 0, 99 * 32) ∈ rowLanes s slotL p 6 0 0 ∧ p.desc = some (rowTensor 1 5 100) ∧
    dDim (rowTensor 1 5 100) 0 ≤ p.c0 + 1 ∧ s.laneOn slotL 0 128 1 = true ∧ s.laneOn slotL 1 128 127 = false := by decide +kernel

/-- With one outstanding load of core 0. -/
def loading (d : LoadData) (s : State) : State :=
  s.setMe { s.me with loads := [{ slot := slotL, bundle := 0x1000, dst := 9, inv := false, data := d, mapv := 0 }] }

/-- Each kind of outstanding load, and one that meets a poisoned word while its bundle stands. -/
theorem witness_loadDataLand :
    let s := tensors (withBytes (dramKey 0 0x110000) (2 ^ 511 + 8) 64 (withBytes (dramKey 0 0x100040) (rowTensor 1 5 100).toNat 64 base))
    let c := s.now.core
    let flat : Place := { tid := 0, tile := 0, tte := frameEntry 16 }
    let bad := poisonRange s (dramKey 0 0x110000) 8 0x2101
    (0 < 4 ∧ (readElement s c rowPlace 0 4 false).1 = 8 ∧ (readElement s c rowPlace 0 4 false).2.1 = none) ∧
    (readLanes c 32 false [(0, rowPlace, 0), (127, rowPlace, 480)] 0 none s).2.1 = none ∧
    ((readElement s c flat (8 * 64) 512 false).2.1 = none ∧
      descriptorOk (BitVec.ofNat 512 (readElement s c flat (8 * 64) 512 false).1) = true) ∧
    ((readElement bad c rowPlace 0 4 false).2.1 = some 0x2101 ∧ (readElement bad c rowPlace 0 4 false).2.2.me.current = some openBundle ∧
      openBundle.pc = 0x1000) ∧
    (loading (.word 5) s).me.loads = [{ slot := slotL, bundle := 0x1000, dst := 9, inv := false, data := .word 5, mapv := 0 }] := by decide +kernel

theorem witness_prefetches :
    let s := withS 6 99 (tensors base)
    let p : Operand := { desc := some (rowTensor 1 5 100), tid := 5, tile := 0, bit := 99 * 32, width := 32, fmt := some 1, c0 := 99 }
    detCore (runs true s) 0 = true ∧ s.guard slotL 0 = true ∧ s.guard slotL 1 = false ∧ detCore s s.now.core = false ∧
    evaluate s slotL 1 6 0 false = .at p ∧ (reachTile s s.now.core p.desc p.tile p.fmt false).1 = .ok (frameEntry 17) ∧
    cacheable (frameEntry 17) = true ∧ tteKind (frameEntry 17) = 2 := by decide +kernel

/-- l.hld of a misaligned and an aligned address; l.adv that sets a cursor to 99 and adds 1 to a cursor of 99 of 100, and one of a dimension
that the tensor has not; l.gpop of a row and of an empty queue. -/
theorem witness_handles :
    let s := withS 5 0x20 (withS 6 0x40 (withS 7 256 (withS 8 99 (withS 9 5 (withS 10 100 (tensors base))))))
    let stays (x : Nat) (v : Int) : Prop := if x < dRank ((s.rdH 1).setWidth 512) then 0 ≤ v ∧ v < dDim ((s.rdH 1).setWidth 512) x else v = 0
    s.guard slotL 0 = true ∧ (s.rdS slotL 5).toNat % 64 ≠ 0 ∧ (s.rdS slotL 6).toNat % 64 = 0 ∧
    ((reachTile s s.now.core none ((s.rdS slotL 6).toNat / 2 ^ 16) none false).1 = .ok (frameEntry 16)) ∧
    ((s.rdS slotL 7).toNat = 0 + 256 ∧ stays 0 (s.rdS slotL 8).toInt ∧ ¬ stays 0 (s.rdS slotL 10).toInt ∧
      (s.rdS slotL 0).toNat = 0 ∧ stays 0 ((cursor (s.rdH 1) 0 : Int) + (s.rdS slotL 8).toInt) ∧
      (s.rdS slotL 9).toNat = 5 ∧ stays 5 ((cursor (s.rdH 1) 5 : Int) + (s.rdS slotL 0).toInt) ∧ ¬ stays 5 1 ∧
      0 < (1 : BitVec 6).toNat ∧ (31 : BitVec 6).toNat < 32) ∧
    (s.setMe { s.me with rows := [(3, 0), (4, 0)] }).me.rows = (3, 0) :: [(4, 0)] ∧ s.me.rows = [] ∧ s.me.current = some openBundle := by decide +kernel

/-- An element of 4 bits inside a byte and one of 64 bits, in a tile that no L1 may hold and in one that it may. -/
theorem witness_storedElements :
    Memory.wf base.mem = true ∧ cacheable 0xA008000000000011 = false ∧ cacheable (frameEntry 17) = true ∧ tteKind (frameEntry 17) ≠ 3 ∧
    (4 ∈ [2, 4, 8, 16, 32, 64] ∧ 12 % 4 = 0 ∧ (0 < 12 % 8 ∧ 12 % 8 + 4 ≤ 8)) ∧ (64 ∈ [2, 4, 8, 16, 32, 64] ∧ (2 ^ 19 - 64) % 64 = 0) ∧
    2 ^ 19 - 64 < 2 ^ 19 ∧ (8 / 1024 = 12 / 1024 ∧ 8 + 4 ≤ 12) := by decide +kernel

theorem witness_atomics :
    let s := withS 5 0x18 (withS 6 0x1C base)
    (∃ op o u, Claims.atomicTable (.wAcas ⟨1, 5, 2, 0⟩ 0) = some (op, o, u)) ∧ (∃ op o u, Claims.atomicTable (.wArd ⟨1, 5, 0, 0⟩ 5) = some (op, o, u)) ∧
    s.guard slotW 1 = false ∧ s.guard slotW 0 = true ∧ detCore (runs true s) 0 = true ∧ detCore s s.now.core = false ∧
    (s.rdS slotW 6).toNat % 8 ≠ 0 ∧ (s.rdS slotW 5).toNat % 8 = 0 ∧
    (reachHome s s.now.core (s.rdS slotW 5) true).1 = .ok (frameEntry 16) ∧ (reachHome s s.now.core (s.rdS slotW 5) false).1 = .ok (frameEntry 16) ∧
    poisonOf (reachHome s s.now.core (s.rdS slotW 5) true).2.2 (dramKey 0 0x100018) 8 = none ∧
    (s.core (l1Owner (reachHome s s.now.core (s.rdS slotW 5) false).2.2 s.now.core 0 0)).l1 = [] ∧ s.me.gate = [] ∧
    (∀ c ∈ l1Cores (reachHome s s.now.core (s.rdS slotW 5) false).2.2 s.now.core, (s.core c).l1 = []) :=
  ⟨⟨_, _, _, rfl⟩, ⟨_, _, _, rfl⟩, by decide +kernel⟩

theorem witness_atomicAtHome :
    ({ base with now := atomicOccasion 0 0x100018 10 3 9 1 2 } : State).now = atomicOccasion 0 0x100018 10 3 9 1 2 ∧ 10 ≤ 10 ∧ 3 < 4 := by decide +kernel

theorem witness_combining :
    let s := base.setTower 0 { base.tower 0 with combine := [⟨0x100000, 0, 5⟩, ⟨0x100008, 7, 9⟩] }
    Memory.wf s.mem = true ∧ (s.tower s.now.tower).combine.Pairwise (fun c d => c.key + 8 ≤ d.key ∨ d.key + 8 ≤ c.key) := by decide +kernel

theorem witness_fences : ({ base with hub := { base.hub with cxlUp := true } } : State).hub.cxlUp = true ∧ base.guard slotW 1 = false ∧ base.guard slotW 0 = true := by decide +kernel

/-- A binding entry of the flat view whose sync object is at 0x20 of page 0. -/
def binding : BitVec 256 := BitVec.ofNat 256 (4 * 2 ^ 195 + 2 ^ 192 + 0x1FF)

/-- With entry 5 of core 0's bindings. -/
def bound (s : State) : State := s.setMe { s.me with binds := s.me.binds.setIfInBounds 5 binding }

theorem witness_acquires :
    let s := withS 5 4 (bound base)
    let h := s.setMe { s.me with held := 1 <<< 5 }
    let w : Wait := { kind := waitAcquire, obj := 5, arg := 0, key := dramKey 0 0x100020, slot := slotW, dst := 9 }
    let a : State := { (s.setMe { s.me with stall := some w }) with now := { onCore 0 with unit := dramKey 0 0x100020 } }
    s.guard slotW 0 = true ∧ detCore s s.now.core = false ∧ ((s.rdS slotW 5).toNat + (1 : BitVec 9).toNat) % 64 = 5 ∧
    bindBroken s (bindEntry s.me 5) = false ∧ bindBroken s (bindEntry s.me 6) = true ∧ s.me.held.getLsbD 5 = false ∧
    h.me.held.getLsbD 5 = true ∧ bindBroken h (bindEntry h.me 5) = false ∧
    ((reachHome s s.now.core (bSync (bindEntry s.me 5)) true).1 = .ok (frameEntry 16) ∧
      (reachHome s s.now.core (bSync (bindEntry s.me 5)) true).2.1 = dramKey 0 0x100020 ∧
      poisonOf (touchHome (reachHome s s.now.core (bSync (bindEntry s.me 5)) true).2.2 (dramKey 0 0x100020) 8 true) (dramKey 0 0x100020) 8 = none ∧
      s.awaitsPasses = false) ∧
    (a.me.stall = some w ∧ Memory.wf a.mem = true ∧ (a.tower (towerNo (a.now.unit / 2 ^ 40))).syncs = [] ∧
      syncStale a (readWord a a.now.unit) = false ∧ syncHeld (readWord a a.now.unit) = false ∧
      syncCompatible (readWord a a.now.unit) (decide (w.arg = 0)) = true ∧ 0 < w.dst.toNat) := by decide +kernel

theorem witness_acquireWritesAlone : Claims.aloneInGroup (bound base).me slotW (.s 9) := by
  simp only [Claims.aloneInGroup]; decide +kernel

theorem witness_releases :
    let s := withS 5 4 (bound base)
    let h := s.setMe { s.me with held := 1 <<< 5 }
    s.guard slotW 0 = true ∧ s.me.held.getLsbD 5 = false ∧ h.me.held.getLsbD 5 = true ∧ detCore h h.now.core = false ∧
    ((h.rdS slotW 5).toNat + (1 : BitVec 9).toNat) % 64 = 5 ∧ bindBroken h (bindEntry h.me 5) = false ∧
    ((reachHome h h.now.core (bSync (bindEntry h.me 5)) true).1 = .ok (frameEntry 16) ∧
      poisonOf (touchHome (reachHome h h.now.core (bSync (bindEntry h.me 5)) true).2.2 (dramKey 0 0x100020) 8 true) (dramKey 0 0x100020) 8 = none) ∧
    Memory.wf h.mem = true ∧ (h.tower (towerNo (dramKey 0 0x100020 / 2 ^ 40))).syncs = [] := by decide +kernel

/-- Context 0 valid in tower 0, with range entry 31 valid and owned by the device. -/
def ranged : State :=
  let s := withBytes (0x4000 + 16 * 31) (2 ^ 80 + 2 ^ 56 + 2 ^ 52) 16 (withBytes 0 0x10100 8 base)
  s.setMe { s.me with rngt := 0x4000, bindb := 0x800 }

theorem witness_bindings :
    let s := withS 5 64 (withS 6 63 (withS 7 0x20 (withS 8 0x10 (withBytes (dramKey 0 0x100020) binding.toNat 32 ranged))))
    let r1 := reachTile s s.now.core none ((s.rdS slotW 7).toNat / 2 ^ 16) none false
    let r2 := readElement r1.2 s.now.core { tid := 0, tile := 0, tte := frameEntry 16 } (8 * 0x20) 256 false
    s.guard slotW 0 = true ∧ 64 ≤ (s.rdS slotW 5).toNat ∧ (s.rdS slotW 6).toNat < 64 ∧ (s.rdS slotW 8).toNat % 32 ≠ 0 ∧
    (s.rdS slotW 7).toNat % 32 = 0 ∧ (s.setMe { s.me with held := 1 <<< 63 }).me.held.getLsbD 63 = true ∧ Memory.wf s.mem = true ∧
    s.me.held.getLsbD 63 = false ∧ r1.1 = .ok (frameEntry 16) ∧ (r2.1 = binding.toNat ∧ r2.2.1 = none ∧ bValid binding = true ∧ bindBroken r2.2.2 binding = false) ∧
    (reachTile r2.2.2 s.now.core none ((s.me.bindb + BitVec.ofNat 64 (32 * 63)).toNat / 2 ^ 16) none true).1 = .ok (frameEntry 16) := by
  decide +kernel

theorem witness_rangeRequests :
    let s := withS 5 32 (withS 6 31 ranged)
    let v := coreView s s.now.core
    s.guard slotW 0 = true ∧ detCore s s.now.core = false ∧ s.yieldBit = false ∧ 32 ≤ (s.rdS slotW 5).toNat ∧ (s.rdS slotW 6).toNat < 32 ∧
    ctxValid s v.ctx = true ∧ rValid (rangeEntry s v 31) = true ∧ rOwn (rangeEntry s v 31) ≠ 3 ∧
    (∀ x, (s.tower x).answers = []) := by decide +kernel

/-- A load that carries the version in force, and one that an old version has a retired slice refuse; a prefetch whose tile misses; memory without
combined operands and without lines of it. -/
theorem witness_versionsAndMisses :
    let l : Load := { slot := slotL, bundle := 0x1000, dst := 9, inv := false, data := .element rowPlace 0 4 false, mapv := 0 }
    let s := tensors base
    let t := s.setTower 0 { s.tower 0 with mapv := 1, retired := BitVec.allOnes 32 }
    let p : Operand := { desc := none, tid := 0, tile := 9, bit := 0, width := 8, fmt := none, c0 := 0x90000 }
    l.mapv = (s.tower (towerOf s.now.core)).mapv ∧ refusedLoad t l = true ∧
    evaluate (withS 6 0x90000 s) slotL 0 6 0 false = .at p ∧ (reachTile s s.now.core p.desc p.tile p.fmt false).1 = .miss ∧
    (∀ t : TowerId, (s.tower t).combine = []) ∧ (∀ o ∈ l1Cores s s.now.core, (s.core o).l1 = []) := by decide +kernel
/-- Every format has a code that is no NaN: its largest code that is one. -/
theorem witness_representable : ∀ F ∈ [fp32, bf16, fp16, e4m3, e5m2, e3m2, e2m3, e2m1], 1 < 2 ^ F.width ∧ F.decode 1 ≠ .nan := by decide +kernel

/-- Rounding: nothing discarded at q = exp, a tie, and exactness with q above. -/
theorem witness_rounding : (3 : Int) ≤ 3 ∧ (3 : Int) < 4 ∧ 6 % 2 ^ ((4 : Int) - 3).toNat = 0 ∧ 4 < 5 ∧
    2 * (3 % 2 ^ ((4 : Int) - 3).toNat) = 2 ^ ((4 : Int) - 3).toNat := by decide

theorem witness_fused : (-3 : Int) ≤ -1 + -2 ∧ (-3 : Int) ≤ 0 := by decide

/-- No flag enabled; flag 2 the lowest of the enabled ones raised; flag 5 raised and enabled alone. -/
theorem witness_flags :
    let n (v : Word) := onRegs base fun r => { r with nflags := v }
    base.me.current = some openBundle ∧
    (∀ k, k < 6 → ((0x3F : Flags).getLsbD k && base.me.regs.nflags.getLsbD (16 + k)) = false) ∧
    (((0x3F : Flags).getLsbD 2 && (n 0x240000).me.regs.nflags.getLsbD (16 + 2)) = true ∧
      ∀ m, m < 2 → ((0x3F : Flags).getLsbD m && (n 0x240000).me.regs.nflags.getLsbD (16 + m)) = false) ∧
    (((0x20 : Flags).getLsbD 5 && (n 0x3F0000).me.regs.nflags.getLsbD (16 + 5)) = true ∧
      ∀ m, m < 5 → ((0x20 : Flags).getLsbD m && (n 0x3F0000).me.regs.nflags.getLsbD (16 + m)) = false) := by decide +kernel

/-- Guards of vector instructions: none, a lane mask, and p8 to p15, false after reset and true where set. -/
theorem witness_vectorGuards :
    let s := onRegs base fun r => { r with p := 0x8101 }
    base.vectorGuard slotV 0 = true ∧ base.vectorGuard slotV 7 = true ∧ base.vectorGuard slotV 8 = false ∧ base.vectorGuard slotV 15 = false ∧
    s.vectorGuard slotV 8 = true ∧ s.vectorGuard slotV 15 = true ∧ base.vectorGuard slotX 0 = true ∧ base.vectorGuard slotX 8 = false := by
  decide +kernel

theorem witness_vectorTables :
    (∃ o ty f, Claims.vectorIntTable (.vSra ⟨1, 2, 3, 7⟩ 2) = some (o, ty, f)) ∧ (2 : BitVec 3).toNat < 3 ∧
    (∃ o f, Claims.maskTable (.vKandn ⟨7, 7, 7, 7⟩) = some (o, f)) ∧
    (∃ o ty f, Claims.vectorFloatTable (.vFnma ⟨1, 2, 3, 7⟩ 4) = some (o, ty, f)) ∧
    (∃ o ty f n, Claims.floatCompareTable (.vFcle ⟨7, 2, 3, 0⟩ 4) = some (o, ty, f, n)) ∧
    (∃ o ty f r, Claims.transcendentalTable (.vCosf ⟨1, 2, 0, 0⟩ 2) = some (o, ty, f, r)) :=
  ⟨⟨_, _, _, rfl⟩, by decide, ⟨_, _, rfl⟩, ⟨_, _, _, rfl⟩, ⟨_, _, _, _, rfl⟩, ⟨_, _, _, _, rfl⟩⟩

/-- Words of the majors 0x20, 0x0B and 0x0C of slot 4. -/
theorem witness_vectorWords :
    (0x403820BB : BitVec 31).toNat / 2 ^ 25 = 0x20 ∧ readsAs 4 0x403820BB (.vKandn ⟨7, 1, 1, 7⟩) = true ∧
    (0x16000000 : BitVec 31).toNat / 2 ^ 25 = 0x0B ∧ readsAs 4 0x16000000 (.vFabs ⟨0, 0, 0, 0⟩ 0) = true ∧
    (0x18000004 : BitVec 31).toNat / 2 ^ 25 = 0x0C ∧ readsAs 4 0x18000004 (.vFneg ⟨0, 0, 0, 0⟩ 4) = true := by decide +kernel

theorem witness_permutesAndScales :
    (2 : BitVec 3).toNat < 3 ∧ (base.rdSB slotV 0).toNat ∉ [0x20, 0x21, 0x22, 0x30, 0x31, 0x32, 0x33, 0x34, 0x35] ∧
    ((withS 5 0x35 base).rdSB slotV 5).toNat = 0x35 ∧ ((withS 5 0x20 base).rdSB slotV 5).toNat = 0x20 := by decide +kernel

/-- A special value, and a finite operand of a fast form whose reproducible result is inexact (exp2 of 0.5 in FP32). -/
theorem witness_transcendentals :
    specialValue .exp2 fp32 (fp32.decode 0xFF800000) = some (0, 0) ∧ fp32.decode 0x3F000000 = .fin false 0x800000 (-24) ∧
    specialValue .exp2 fp32 (.fin false 0x800000 (-24)) = none ∧ (reproducible .exp2 fp32 0x3F000000).2.getLsbD 4 = true := by decide +kernel

theorem witness_conversions : (Instr.xCvt ⟨1, 2, 0x35, 0x12, 1⟩).wellFormed = true ∧ (Instr.xCvt ⟨1, 2, 0, 0, 0⟩).wellFormed = true := by
  decide +kernel

/-- With XMODE. -/
def withMode (v : Word) (s : State) : State := onRegs s fun r => { r with xmode := v }

theorem witness_quantisation :
    (xMxf base < 0x30 ∧ Claims.planesOf (xMxf base) = none) ∧ 0x35 < xMxf (withMode (0x36 <<< 26) base) ∧
    (0x30 ≤ xMxf (withMode (0x35 <<< 26) base) ∧ xMxf (withMode (0x35 <<< 26) base) ≤ 0x35) ∧
    Claims.planesOf (xMxf (withMode (0x22 <<< 26) base)) = some 2 := by decide +kernel

/-- x.trc of 2 elements of 32 bits (128 of them), of 128 that do not fit, and x.trr of 128 rows of one and of 256 rows. -/
theorem witness_shuffles :
    let s := withMode (3 <<< 16 ||| 6 <<< 20) base
    let n := 4096 / (4 * 2 ^ xEw s)
    n = 128 ∧ (∃ o f, Claims.shuffleTable s n (.xTrc ⟨1, 2, 3, 0⟩) = some (o, f)) ∧ 2 ^ xTs s < n ∧
    n ≤ 2 ^ xTs (withMode (3 <<< 16 ||| 7 <<< 20) base) ∧
    (((withS 5 7 s).rdSB slotX 5).toNat < 16 ∧ 2 ^ ((withS 5 7 s).rdSB slotX 5).toNat ≤ n) ∧
    n < 2 ^ ((withS 5 8 s).rdSB slotX 5).toNat ∧ 16 ≤ ((withS 5 16 s).rdSB slotX 5).toNat :=
  ⟨by decide +kernel, ⟨_, _, rfl⟩, by decide +kernel⟩

/-- x.bpt into quarters of a segment of the SA2 tensor: the second, one that is none, and a tensor that is no SA tensor. -/
theorem witness_planeStores :
    let s := withS 7 64 (withS 9 32 (tensors (activations base)))
    let at_ (c0 : Nat) : Operand := { desc := some ((s.rdH 6).setWidth 512), tid := 6, tile := 0, bit := 8 * c0, width := 8, fmt := some 0x22, c0 := c0 }
    let ls := (planeLanes s (at_ 64) 6 0 2).getD []
    s.guard slotX 0 = true ∧ s.guard slotX 1 = false ∧ evaluate s slotX 6 6 0 false = .at (at_ 64) ∧
    (at_ 64).fmt.bind Claims.planesOf = some 2 ∧ (at_ 64).c0 % 64 = 0 ∧ (at_ 64).c0 % (256 * 2) < 256 ∧
    planeLanes s (at_ 64) 6 0 2 = some ls ∧ (resolveLanes s.now.core (at_ 64) true ls [] s).1.1 = .ok 0 ∧
    (∀ l ∈ (resolveLanes s.now.core (at_ 64) true ls [] s).2.1, tteKind l.2.1.tte = 1) ∧
    (evaluate s slotX 6 8 0 false = .at (at_ 32) ∧ (at_ 32).c0 % 64 ≠ 0) ∧ 256 ≤ 256 % (256 * 2) ∧
    (match evaluate s slotX 1 0 0 false with | .at p => p.fmt.bind Claims.planesOf == none | _ => false) = true := by decide +kernel

theorem witness_setup :
    let s := withS 5 0xBCB (withS 6 0x1000 (withS 7 12 (withS 8 0xD0 (withS 9 0xFFFFFFFF base))))
    s.guard slotM 1 = false ∧ s.guard slotM 0 = true ∧
    ((s.rdSB slotM 5).toNat < 2 ^ 12 ∧ (s.rdSB slotM 5).toNat % 16 ≤ 11 ∧ (s.rdSB slotM 5).toNat / 16 % 16 ≤ 12 ∧
      (s.rdSB slotM 5).toNat / 256 ≤ 11) ∧
    2 ^ 12 ≤ (s.rdSB slotM 6).toNat ∧ 11 < (s.rdSB slotM 7).toNat % 16 ∧ 12 < (s.rdSB slotM 8).toNat / 16 % 16 ∧
    (s.rdSB slotM 9).toNat < 2 ^ 32 ∧ 2 ^ 32 ≤ ((withS 9 0x100000000 s).rdSB slotM 9).toNat ∧ s.me.mat.passes = [] ∧
    (onMat s fun m => { m with passes := [somePass false false] }).me.mat.passes ≠ [] := by decide +kernel

/-- What a run of one row reads, and the state after it. -/
def planesRead (s : State) : Bool × List (BitVec 2048) × Bool × State :=
  match runPlanes (s.rdH 6) 6 2 [0] s with
  | .ok p b t => (true, p, b, t)
  | _ => (false, [], false, s)

/-- The reads of a run of one row of the SA2 tensor succeed. -/
theorem witness_runReads (s : State) (h : (planesRead s).1 = true) (ha : activationPlanes (s.rdH 6) 1 = some 2)
    (hm : muAsh s.me.regs.msetup = 0) :
    Claims.runReads s ⟨3, 0, 0, 0, 6, 0⟩ 2 (planesRead s).2.1 (planesRead s).2.2.1 [0x7F] false (planesRead s).2.2.2 := by
  refine ⟨(planesRead s).2.2.2, ha, ?_, .inl ⟨hm, rfl, rfl, rfl⟩⟩
  unfold planesRead at h ⊢
  change runPlanes (s.rdH 6) 6 2 [0] s = _
  split <;> simp_all

/-- A run with an idle engine: no group, a group that it joins and one that it does not (other z), and every stop before it. -/
theorem witness_runs :
    let o : OpMR := ⟨3, 0, 0, 0, 6, 0⟩
    let s := activations base
    let joined := onMat s fun m => { m with group := some { someGroup 0 1 with ng := 1 } }
    let other := onMat s fun m => { m with group := some { someGroup 0 1 with z := 4 } }
    let w := (s.tower (towerOf s.now.core)).tiers
    let setup : RunSetup := { wfmt := 0x12, pa := 2, afmt := dFmt ((s.rdH 6).setWidth 512), ng := 1, ea := [0x7F], eaBad := false, seff := effectiveSplit s s.now.core 0 (fallbackMask w s.me.regs.mpin), fb := fallbackMask w s.me.regs.mpin }
    Claims.runTable (.mRun8 o) = some (o, 0x12) ∧ s.guard slotM 1 = false ∧ s.guard slotM 0 = true ∧
    Claims.engineIdle s ∧ ¬ Claims.engineIdle (onMat s fun m => { m with passes := [somePass false false] }) ∧
    w.lost = 0 ∧ (s.setTower 0 { s.tower 0 with tiers := { w with lost := 1 } } |>.tower 0).tiers.lost ≠ 0 ∧
    (muZcg s.me.regs.msetup + 1 ≤ 12 ∧ muObg s.me.regs.msetup + 1 ≤ Claims.runOutputs 0x12 / 128 ∧ muNg s.me.regs.msetup = 1) ∧
    ¬ (muZcg (0x1C0 : Word) + 1 ≤ 12) ∧
    ((planesRead s).1 = true ∧ activationPlanes (s.rdH 6) 1 = some 2 ∧ muAsh s.me.regs.msetup = 0 ∧ muWsh s.me.regs.msetup = 0) ∧
    (s.me.regs.mpin.getLsbD 8 = false ∧ s.me.mat.group = none) ∧
    ((planesRead joined).1 = true ∧ joinsGroup (someGroup 0 1) o setup joined.me.regs.msetup = true) ∧
    ((planesRead other).1 = true ∧ joinsGroup { someGroup 0 1 with z := 4 } o setup other.me.regs.msetup = false ∧
      muWsh (promoteEarly (planesRead other).2.2.2 other.now.core 1).me.regs.msetup = 0) := by
  simp only [Claims.engineIdle]; decide +kernel

/-- With NORED, and a tier of the tower skipped: a reduced run. -/
theorem witness_reducedRun :
    let s := onRegs (activations base) fun r => { r with mpin := 0x100 }
    let w := (s.tower 0).tiers
    let s := s.setTower 0 { s.tower 0 with tiers := { w with skip := some 2 } }
    s.me.regs.mpin.getLsbD 8 = true ∧ (s.tower (towerOf s.now.core)).tiers.skip.isSome = true ∧ (planesRead s).1 = true ∧
    (s.tower (towerOf s.now.core)).tiers.lost = 0 := by decide +kernel

theorem witness_swaps :
    let pre := base.setMe { base.me with run := some { someRun false with preemptor := some 7 } }
    base.guard slotM 1 = false ∧ base.guard slotM 0 = true ∧ base.me.run.bind Running.preemptor = none ∧
    pre.me.run.bind Running.preemptor = some 7 ∧ (onMat base fun m => { m with swaps := 1 }).me.mat.swaps = 0 + 1 := by decide +kernel

theorem witness_promotions :
    let p : Promo := { group := { someGroup 1 1 with m := 16, zcg := 11 }, nb := [(1408, 5)], seq := 1 }
    let s := onMat base fun m => { m with promos := [p] }
    base.guard slotM 0 = true ∧ base.me.mat.passes = [] ∧ base.me.mat.group = none ∧
    (onMat base fun m => { m with group := some (someGroup 0 1) }).me.mat.group = some (someGroup 0 1) ∧
    (s.me.mat.promos = [p] ∧ swf 0 s.me.mat.z = true ∧ swf 0 s.me.mat.zb = true ∧ p.group.m ≤ 16 ∧ p.group.zcg + p.group.ng ≤ 12) := by
  decide +kernel

theorem witness_drains :
    let s := withS 5 0x1BF (withS 6 0x200 (withS 7 0xC0 base))
    s.guard slotM 0 = true ∧ 2 ^ 9 ≤ (s.rdSB slotM 6).toNat ∧ 11 < (s.rdSB slotM 7).toNat / 16 % 16 ∧
    ((s.rdSB slotM 5).toNat < 2 ^ 9 ∧ (s.rdSB slotM 5).toNat / 16 % 16 ≤ 11 ∧ s.me.mat.passes = []) ∧
    (onMat s fun m => { m with passes := [somePass false false] }).me.mat.passes ≠ [] := by decide +kernel

theorem witness_accumulators :
    let s := withS 5 0xBF (withS 6 0xC0 (withS 7 0x100 (withS 8 0xFFF (withS 9 0x1000 base))))
    let g := onMat s fun m => { m with group := some (someGroup 0 1) }
    s.guard slotM 0 = true ∧ 11 < (s.rdSB slotM 6).toNat / 16 ∧ 2 ^ 8 ≤ (s.rdSB slotM 7).toNat ∧ (s.rdSB slotM 5).toNat / 16 ≤ 11 ∧
    (g.me.mat.passes = [] ∧ g.me.mat.promos = [] ∧ ∀ x ∈ g.me.mat.group, x.z.toNat ≠ (4 : BitVec 6).toNat % 16) ∧
    2 ^ 12 ≤ (s.rdSB slotM 9).toNat ∧ (s.rdSB slotM 8).toNat < 2 ^ 12 ∧ swf 0 s.me.mat.z = true ∧ swf 0 s.me.mat.zb = true := by
  decide +kernel

/-- The selectors of m.clip, m.cal and m.pin at the edges of what they admit. -/
theorem witness_foldClipTrimPin :
    let s := base
    let clip : Nat := 2 ^ 9 + 64 * 4 + 4 * 11 + 3
    let cal : Nat := 4096 * 255 + 256 * 11 + 32 * 4
    s.guard slotM 0 = true ∧ s.me.mat.passes = [] ∧ (onMat s fun m => { m with passes := [somePass false false] }).me.mat.passes ≠ [] ∧
    (clip < 2 ^ 10 ∧ clip / 64 % 8 ≤ 4 ∧ clip / 4 % 16 ≤ 11 ∧ swf false s.me.mat.clip = true ∧ 512 ≤ clip) ∧
    (2 ^ 10 ≤ 2 ^ 10 ∧ 4 < 64 * 5 / 64 % 8 ∧ 11 < 4 * 12 / 4 % 16) ∧
    (cal % 4 = 0 ∧ cal < 2 ^ 20 ∧ cal / 4 % 8 = 0 ∧ cal / 32 % 8 ≤ 4 ∧ cal / 256 % 16 ≤ 11) ∧
    detCore (runs true s) (runs true s).now.core = true ∧ detCore s s.now.core = false ∧ 2 ≤ 2 % 4 ∧
    (0x10C < 2 ^ 9 ∧ 0x10C / 16 % 16 = 0 ∧ 0x10C % 8 ≤ 4 ∧ 0x107 / 8 % 2 = 0) ∧
    ((withS 5 (BitVec.ofNat 64 clip) s).rdSB slotM 5).toNat = clip := by decide +kernel

/-- A pass of SEFF 0 clips nothing (R116): no free residual is read. -/
theorem digitalPass_noClips (s : State) (c : CoreId) (p : Pass) (h : p.seff = 0) : (passSums s c p).clips = [] := by
  have h1 : ∀ m n col t, (tierSum s c p m n col t).2 = [] := by
    intro m n col t
    unfold tierSum
    refine foldl_keeps (fun a : Int × List ClipNote => a.2 = []) _ (fun a x ha => ?_) _ _ rfl
    refine foldl_keeps (fun a : Int × List ClipNote => a.2 = []) _ (fun b j hb => ?_) _ _ ha
    simp only [h]
    rw [if_neg (by rw [decide_eq_false (Nat.not_lt_zero _), Bool.and_false, Bool.false_and]; decide)]
    exact hb
  have h2 : ∀ m n col a, a.clips = [] → (passOutput s c p m n col a).clips = [] := by
    intro m n col a ha
    have : ((List.range 4).foldl (fun (a : Int × Bool × List ClipNote) t =>
      let x := tierSum s c p m n col t
      let y := satAdd 32 a.1 x.1
      (y.1, a.2.1 || y.2, a.2.2 ++ x.2)) (0, false, [])).2.2 = [] :=
      foldl_keeps (fun a : Int × Bool × List ClipNote => a.2.2 = []) _ (fun a t ha => by simp [ha, h1]) _ _ rfl
    simp only [passOutput, ha, this, List.append_nil]
  unfold passSums
  refine foldl_keeps (fun a : PassSums => a.clips = []) _ (fun a m ha => ?_) _ _ rfl
  exact foldl_keeps (fun a : PassSums => a.clips = []) _ (fun b i hb => h2 _ _ _ _ hb) _ _ ha

/-- A pass that ends, one whose poison was read, and one that promotes; a pass of SEFF 0 meets no clip storm. -/
theorem witness_passEnds :
    let s (promo bad : Bool) := onMat base fun m => { m with passes := [somePass promo bad], group := some (someGroup 1 1) }
    (s false false).me.mat.passes = somePass false false :: [] ∧ (s false true).me.mat.passes = somePass false true :: [] ∧
    (somePass false true).poisoned = true ∧ (somePass false false).poisoned = false ∧ (s false false).now.unit = 0 ∧
    (somePass false false).promo = false ∧ (somePass true false).promo = true ∧ (s true false).me.mat.group = some (someGroup 1 1) ∧
    0 < (somePass false false).fdst.toNat ∧
    clipStorm (somePass false false) (passSums (s false false) 0 (somePass false false)).clips = none ∧
    clipStorm (somePass true false) (passSums (s true false) 0 (somePass true false)).clips = none := by
  simp only [digitalPass_noClips _ _ _ (show (somePass false false).seff = 0 from rfl),
    digitalPass_noClips _ _ _ (show (somePass true false).seff = 0 from rfl)]
  decide +kernel

/-- Tier events: the last column, a tower with a failed tier whose rebuild ends, and one whose roles change. -/
theorem witness_tierEvents :
    let w := (base.tower 0).tiers
    let failed := base.setTower 0 { base.tower 0 with tiers := { w with failed := some 1 } }
    let rebuilt := base.setTower 0 { base.tower 0 with tiers := { w with failed := some 1, rebuilt := true } }
    let last : State := { base with now := { Occasion.none with unit := 15359, value := 1 } }
    (last.now.unit < 15360 ∧ last.now.value ≠ 0 ∧ swf false last.me.mat.digital = true) ∧ base.now.value = 0 ∧
    (towerOf 0 = base.now.tower ∧ swf 0 (base.core 0).mat.nextTrim = true ∧ calReady base base.now.tower (base.now.unit % 5) = false ∧
      calReady { base with hub := { base.hub with ready := 1 } } base.now.tower 0 = true) ∧
    ((reconPosition (failed.tower failed.now.tower).tiers).isSome = true ∧ (failed.tower failed.now.tower).tiers.lost = 0) ∧
    ((reconPosition (rebuilt.tower rebuilt.now.tower).tiers).isSome = true ∧ (rebuilt.tower rebuilt.now.tower).tiers.rebuilt = true ∧
      rolesFree rebuilt rebuilt.now.tower = true) := by decide +kernel

theorem witness_digitalPass : (somePass false false).seff = 0 ∧ 3 < 4 ∧ (somePass false false).wfmt ∈ [0x12, 0x13, 0x17] := by decide

/-- A gather of template 7 on channel 14, open. -/
def someGather : Gather := { tmpl := 7, chan := 14, ctx := 0, gen := 0, bundle := 0x1000, serial := 1 }

theorem witness_pushes :
    let sel (n : Nat) := ((withS 5 (BitVec.ofNat 64 n) base).rdSB slotE 5).toNat
    let ok (n : Nat) : Prop := n < 2 ^ 21 ∧ n / 16 % 16 = 0 ∧ (n / 2 ^ 16 % 4 = 0 ∧ n % 16 ≠ 15 ∨ n / 2 ^ 16 % 4 = 1 ∧ n < 2 ^ 20)
    (∃ o maj, Claims.pushTable (.ePrime ⟨0, 5, 6, 1⟩) = some (o, maj)) ∧ base.guard slotE 1 = false ∧ base.guard slotE 0 = true ∧
    (sel 0xDFF0F = 0xDFF0F ∧ ok 0xDFF0F ∧ 0xDFF0F < 2 ^ 20) ∧ (ok 0x1CFF0E ∧ 2 ^ 20 ≤ 0x1CFF0E ∧ base.me.regs.gather = none) ∧
    (¬ ok 0x0F ∧ ¬ ok 0x10 ∧ ¬ ok 0x200000 ∧ ¬ ok 0x110000) :=
  ⟨⟨_, _, rfl⟩, by decide +kernel⟩

/-- An index with nothing out, with 64 rows out, with a selector of 2, and without a gather; addresses and levels at their edges. -/
theorem witness_indicesAndCommands :
    let s := withS 5 0x40 (withS 6 0x3F (withS 7 3 (withS 8 4 (withS 9 1 (onRegs base fun r => { r with gather := some someGather })))))
    let full := s.setMe { s.me with rows := List.replicate 16 (1, 0), gidx := List.replicate 48 ⟨someGather, 0x1000, 0, false⟩ }
    base.me.regs.gather = none ∧ s.me.regs.gather = some someGather ∧ indicesOut s.me < 64 ∧ 64 ≤ indicesOut full.me ∧
    (s.rdSB slotE 0).toNat = 0 ∧ (s.rdSB slotE 9).toNat = 1 ∧ 2 ≤ (s.rdSB slotE 7).toNat ∧
    (s.rdSB slotE 5).toNat % 64 = 0 ∧ (s.rdSB slotE 6).toNat % 64 ≠ 0 ∧ (s.rdSB slotE 7).toNat < 4 ∧ 4 ≤ (s.rdSB slotE 8).toNat := by
  decide +kernel

/-- Headers of ordered and unordered sends at the edge of LEN and just beyond, reserved bits, a class that is none, and the own tag. -/
theorem witness_sendHeaders :
    let reserved (h : Nat) : Bool := decide (h / 2 ^ 43 % 32 = 0 ∧ h / 2 ^ 24 % 256 = 0)
    let good (h : Nat) : Bool := decide (reserved h = true ∧ h / 2 ^ 40 % 8 = 0 ∧ h / 2 ^ 32 % 256 ≤ 16)
    let ok (h : Nat) : Bool := decide (reserved h = true ∧ h % 2 ^ 16 ≠ 0xFFFF ∧ ((h / 2 ^ 40 % 8 = 0 ∨ h / 2 ^ 40 % 8 = 1) ∧ h / 2 ^ 32 % 256 ≤ 8 ∨ h / 2 ^ 40 % 8 = 3 ∧ h / 2 ^ 32 % 256 ≤ 128))
    let s := withS 5 0x8000000003 (withS 6 0x20 (withS 7 0x21 base))
    let near := (reachTile s s.now.core none 0 none false)
    good 0x1000000003 ∧ ¬ good 0x1100000003 ∧ ¬ good 0x10000000003 ∧ ¬ good 0x80000000003 ∧
    ok 0x800000003 ∧ ok 0x10800000003 ∧ ok 0x38000000003 ∧ ¬ ok 0x900000003 ∧ ¬ ok 0xFFFF ∧ ¬ ok 0x20000000003 ∧ ok 3 ∧
    s.guard slotE 0 = true ∧ (s.rdSB slotE 6).toNat % 32 = 0 ∧ (s.rdSB slotE 7).toNat % 32 ≠ 0 ∧
    near.1 = .ok (frameEntry 16) ∧ poisonOf near.2 (tteKey near.2 (frameEntry 16) 0x20) 32 = none ∧
    (let far := reachTile near.2 near.2.now.core none ((0x20 + BitVec.ofNat 64 (32 * 127) : Word).toNat / 2 ^ 16) none false
     far.1 = .ok (frameEntry 16) ∧ poisonOf far.2 (tteKey far.2 (frameEntry 16) ((0x20 + BitVec.ofNat 64 (32 * 127) : Word).toNat % 2 ^ 16)) 32 = none) := by
  decide +kernel

/-- Circuit-table entries of slot 255: valid with a size, without V, without a size. -/
theorem witness_circuitSends :
    let s (v : Nat) := withBytes (dramKey 0 (0x100200 + 8 * 255)) v 8 (base.setMe { base.me with cirt := 0x200 })
    let entry (v : Nat) : Nat := match circuitEntry (s v) 0 255 with | .ok e => e | .error _ => 0
    2 ^ 8 ≤ 256 ∧ 255 < 2 ^ 8 ∧
    (entry (2 ^ 63 + 2 ^ 36) / 2 ^ 63 % 2 = 1 ∧ entry (2 ^ 63 + 2 ^ 36) / 2 ^ 36 % 8 ≠ 0) ∧
    entry (2 ^ 36) / 2 ^ 36 % 8 = 1 ∧ entry (2 ^ 36) / 2 ^ 63 % 2 = 0 ∧ entry (2 ^ 63) / 2 ^ 63 = 1 ∧ entry (2 ^ 63) / 2 ^ 36 % 8 = 0 := by
  decide +kernel

theorem witness_queries :
    let s := withS 5 0xFFFF (withS 6 0x10000 base)
    let q (n : Nat) := s.setMe { s.me with results := List.replicate n 0 }
    s.guard slotE 0 = true ∧ s.guard slotE 1 = false ∧ (s.rdSB slotE 5).toNat < 2 ^ 16 ∧ 2 ^ 16 ≤ (s.rdSB slotE 6).toNat ∧
    (q 14).me.results.length + reservedElements (q 14) (q 14).now.core ≤ 14 ∧
    ¬ ((q 15).me.results.length + reservedElements (q 15) (q 15).now.core ≤ 14) ∧
    (q 2).me.results = 0 :: [0] ∧ (q 0).me.results = [] := by decide +kernel

/-- A ring header at 0x100 of page 0 with 4 slots, empty, with a record, and claimed. -/
theorem witness_ringPops :
    let s (v : Nat) := withS 5 0x100 (withBytes (dramKey 0 0x100100) v 32 base)
    let full := 2 ^ 128 * 2 + 2 ^ 32
    let r (v : Nat) := reachHome (s v) 0 ((s v).rdSB slotE 5) true
    let key := dramKey 0 0x100100
    base.guard slotE 0 = true ∧ detCore (s full) (s full).now.core = false ∧
    (r full).1 = .ok (frameEntry 16) ∧ (r full).2.1 = key ∧ poisonOf (r full).2.2 key 32 = none ∧
    (let s2 := touchHome (r full).2.2 key 32 true
     poisonOf s2 key 32 = none ∧ key ∉ (s2.tower (towerNo (key / 2 ^ 40))).claims ∧ readNat s2 key 4 ≠ readNat s2 (key + 4) 4 ∧
     (let q := reachHome s2 s2.now.core ((s full).rdSB slotE 5 + 32) false
      q.1 = .ok (frameEntry 16) ∧ poisonOf (touchHome q.2.2 q.2.1 32 false) q.2.1 32 = none)) ∧
    (let s2 := touchHome (r (2 ^ 129)).2.2 key 32 true
     readNat s2 key 4 = readNat s2 (key + 4) 4) ∧
    key ∈ ((base.setTower 0 { base.tower 0 with claims := [key] }).tower (towerNo (key / 2 ^ 40))).claims := by decide +kernel

/-- Receive queues: one of the core's context with a packet, an empty one, one that is claimed, one of no context. -/
theorem witness_receives :
    let s := withBytes (recvKey base 255) (2 ^ 128 + 2 ^ 96) 32 (withBytes (recvKey base 254) (2 ^ 128) 32 base)
    let mine (q : Nat) : Prop := recvValid (recvEntry s q) = true ∧ recvCtx (recvEntry s q) = coreCtx s s.now.core ∧ recvGen (recvEntry s q) = coreGen s s.now.core
    mine 255 ∧ mine 254 ∧ ¬ mine 253 ∧ recvCount s 255 ≠ 0 ∧ recvCount s 254 = 0 ∧ 255 ∉ s.hub.claims ∧ 2 ^ 9 ≤ 512 ∧ 511 < 2 ^ 9 ∧
    255 ∈ ({ s with hub := { s.hub with claims := [255] } } : State).hub.claims := by decide +kernel

theorem witness_nodeEnds :
    let s : State := { base with hub := { base.hub with cxlUp := true } }
    s.guard slotE 1 = false ∧ s.guard slotE 0 = true ∧ (s.setMe { s.me with held := 1 }).me.held ≠ 0 ∧ s.me.held = 0 ∧
    (onMat s fun m => { m with passes := [somePass false false] }).me.mat.passes ≠ [] ∧ Claims.engineIdle s ∧ s.me.mat.group = none ∧
    s.me.gate = [] ∧ s.me.replay = [] ∧ s.hub.cxlUp = true ∧ s.me.current = some openBundle := by
  simp only [Claims.engineIdle]; decide +kernel

/-- Barriers at 0x18 of page 0: selectors at their edges, a deterministic core, a closed and an open barrier. -/
theorem witness_barriers :
    let s := withS 5 0x18 (withS 6 0x1C (withS 7 0xFFFFFFFF00000FFF (withS 8 0x1000 (withS 9 0xFFFFFFFF (withS 10 0x100000000 base)))))
    let h (v : Nat) : State := { withBytes (dramKey 0 0x100018) v 8 s with now := { onCore 0 with unit := dramKey 0 0x100018 } }
    let word (v : Nat) := readWord (homeWord (h v) 0 (dramKey 0 0x100018)) (dramKey 0 0x100018)
    s.guard slotE 0 = true ∧ detCore (runs true s) 0 = true ∧ detCore s s.now.core = false ∧ (s.rdSB slotE 6).toNat % 8 ≠ 0 ∧
    (s.rdSB slotE 5).toNat % 8 = 0 ∧ (s.rdSB slotE 8).toNat / 2 ^ 12 % 2 ^ 20 ≠ 0 ∧ (s.rdSB slotE 7).toNat / 2 ^ 12 % 2 ^ 20 = 0 ∧
    (s.rdSB slotE 9).toNat < 2 ^ 32 ∧ 2 ^ 32 ≤ (s.rdSB slotE 10).toNat ∧
    (reachHome s s.now.core (s.rdSB slotE 5) true).1 = .ok (frameEntry 16) ∧
    poisonOf (touchHome (reachHome s s.now.core (s.rdSB slotE 5) true).2.2 (dramKey 0 0x100018) 8 true) (dramKey 0 0x100018) 8 = none ∧
    (word 0).getLsbD 55 = false ∧ (word (2 ^ 55)).getLsbD 55 = true := by decide +kernel

/-- A push of major maj in core 0's window, for the destination. -/
def windowEntry (maj : Nat) (d : Dest4) (a b : Word) : ReplayEntry :=
  { dest := d, seq := 0, naks := 0, held := none, key := gatherKey someGather,
    push := { word := BitVec.ofNat 32 (maj * 2 ^ 25), a := a, b := b, v := 0, bundle := 0x1000 }, record := 0x8000, ctx := 0, gen := 0,
    rbank := none, payload := [], exit := 0 }

/-- With that window and the occasion of its destination. -/
def windowState (e : ReplayEntry) (s : State) : State :=
  { s.setMe { s.me with replay := [e], live := [{ gather := someGather, closed := false, reopened := false, opening := none }] } with now := { onCore 0 with unit := e.dest.code } }

theorem witness_acceptance :
    let rennet : Dest4 := { kind := 0, unit := 3, chan := 0 }
    let churn : Dest4 := { kind := 1, unit := 31, chan := 15 }
    let hub : Dest4 := { kind := 2, unit := 3, chan := 15 }
    let link : Dest4 := { kind := 3, unit := 0, chan := 0 }
    let s (maj : Nat) (d : Dest4) := windowState (windowEntry maj d 0x40 0x100E) (current base)
    (∀ d ∈ [rennet, churn, hub, link], (windowEntry 1 d 0 0).dest = Dest4.ofCode (s 1 d).now.unit) ∧
    (s 0x20 rennet).me.replay = [windowEntry 0x20 rennet 0x40 0x100E] ∧ (s 0x20 rennet).me.freed = 0 ∧
    ctxCurrent (s 0x20 rennet) 0 0 = true ∧ ctxCurrent base 0 0 = false ∧
    (∀ maj ∈ [0x20, 0x21, 0x23, 0x24, 0x01, 0x03, 0x18], pushMajor (windowEntry maj rennet 0x40 0x100E).push = maj) ∧
    (churn.chan < 16 ∧ churn.kind = 1) ∧ (hub.kind = 2 ∧ hub.unit < 4) ∧
    (((s 0x03 churn).me.live.find? fun l => gatherKey l.gather = (windowEntry 0x03 churn 0x40 0x100E).key).map LiveGather.gather = some someGather) ∧
    (isDuplicate (s 0x20 rennet).me (windowEntry 0x20 rennet 0x40 0x100E) = false ∧
      isDuplicate { (s 0x20 rennet).me with expected := [(rennet, 1)] } (windowEntry 0x20 rennet 0x40 0x100E) = true) ∧ link.kind = 3 := by
  decide +kernel

theorem witness_refusals :
    let d : Dest4 := { kind := 0, unit := 3, chan := 0 }
    let s := windowState (windowEntry 0x20 d 0x40 0) base
    let x : Offer := { ring := 0x100, hdr := 0x200, ctx := 0, gen := 0, entry := 5, naks := 1, held := 0 }
    let r := current (withBytes 0x100110 2 1 (base.setTower 0 { base.tower 0 with offers := [x] }))
    let r0 := r.setTower 0 { r.tower 0 with offers := [] }
    let key := rennetKey r0 0 0 0 0x100 32
    let slot := rennetKey key.2 0 0 0 (0x100 + BitVec.ofNat 64 (ringNext key.2 0x100100)) 0
    (s.me.replay.find? fun y => y.dest = Dest4.ofCode s.now.unit) = some (windowEntry 0x20 d 0x40 0) ∧ s.now.value = 0 ∧
    ({ r with now := { Occasion.none with value := 1 } } : State).now.value = 1 ∧ (r.tower r.now.tower).offers = x :: [] ∧ x.held ≤ r.clk ∧
    offerWaits r 0 x = false ∧ offerWaits r0 0 x = false ∧ (match key.1 with | .ok n => n == 0x100100 | .error _ => false) = true ∧
    (match ringPut slot.2 0x100100 slot.1.toOption x.entry with | .taken _ => true | _ => false) = true := by decide +kernel

/-- Rings of one slot, of four with three and with four records, and with counters about to wrap. -/
theorem witness_rings :
    let s (nlog head tail : Nat) := withBytes 0x100110 nlog 1 (withBytes 0x100100 (head + 2 ^ 32 * tail) 8 base)
    let slots (x : State) := 2 ^ (readNat x (0x100100 + 16) 1 % 16)
    let used (x : State) := (readNat x (0x100100 + 4) 4 + 2 ^ 32 - readNat x 0x100100 4) % 2 ^ 32
    Memory.wf (s 2 0 3).mem = true ∧ slots (s 0 0 0) = 1 ∧ (1 < slots (s 2 0 3) ∧ used (s 2 0 3) < slots (s 2 0 3)) ∧
    slots (s 2 0 4) ≤ used (s 2 0 4) ∧ 0x100100 + 32 ≤ 0x100100 + ringNext (s 2 0 3) 0x100100 ∧ (used (s 2 0xFFFFFFFF 0) < slots (s 2 0xFFFFFFFF 0) ∧ used (s 2 0xFFFFFFFF 0) = 1) := by decide +kernel

/-- A template of 99 elements between tensors 5 and 7, with its ring and barrier (R311). -/
def someTemplate (ring bara : Nat) : BitVec 1024 :=
  BitVec.ofNat 1024 (1 * 2 ^ 966 + 2 * 2 ^ 908 + ring / 32 * 2 ^ 849 + bara / 8 * 2 ^ 785 + 99 * 2 ^ 288 +
    (2 ^ 304 + 2 ^ 320 + 2 ^ 336 + 2 ^ 352 + 2 ^ 368) + 2 ^ 240 + 2 ^ 192 + 1)

/-- Tensor 7, in frame 18. -/
def otherTensor (fmt esize dim : Nat) : BitVec 512 := rowTensor fmt esize dim + BitVec.ofNat 512 (2 * 2 ^ 432)

/-- Context 0 with template 7 at 0x8380, both descriptors, every unit ready, and the tensors' tiles known. -/
def copying (template : BitVec 1024) : State :=
  let s := withBytes 56 0x8000 8 (current base)
  let s := withBytes (dramKey 0 0x108380) template.toNat 128 s
  let s := withBytes (dramKey 0 0x100040) (rowTensor 1 5 100).toNat 64 s
  let s := withBytes (dramKey 0 0x100080) (otherTensor 1 5 100).toNat 64 s
  let s := s.setTower 0 { s.tower 0 with tiles := [⟨32, 0, 0, 5, 0, frameEntry 17⟩, ⟨32, 0, 0, 7, 0, frameEntry 18⟩, ⟨32, 0, 0, 0, 2, 0x9008000000000000⟩] ++ (s.tower 0).tiles }
  { s with hub := { s.hub with ready := 0xFFFFFFFFFFFFFFFF, cxlUp := true } }

/-- A copy by template 7 that core 0 has pushed to its Churn, or that the host has started. -/
def someRequest (source : CopySource) : CopyReq :=
  { param := 0, tmpl := 7, gath := none, ctx := 0, gen := 0, rbank := none, source := source, ordinal := 3 }

/-- Channel 14 of cluster 0's Churn. -/
def someChannel : Dest4 := { kind := 1, unit := 0, chan := 14 }

/-- With that channel changed, and the occasion of it. -/
def onChannel (s : State) (f : Channel → Channel) : State :=
  { s.setChurnChan someChannel (f (s.churnChan someChannel)) with now := { Occasion.none with unit := someChannel.code } }

/-- A copy of that request, running. -/
def someCopy (m : BitVec 1024) (source : CopySource) (ended : Bool) : Copy :=
  { newCopy (someRequest source) m (rowTensor 1 5 100) (otherTensor 1 5 100) with ended := ended }

theorem witness_nestIndex : (∀ k, k < 6 → tCount (someTemplate 0 0) k ≠ 0) ∧ 98 < copyTotal (someTemplate 0 0) := by decide +kernel

theorem witness_copyOfBits :
    let s := copying (someTemplate 0 0)
    let cp := { someCopy (someTemplate 0 0) .host false with src := rowTensor 0x13 2 100, dst := otherTensor 0x13 2 100 }
    Memory.wf s.mem = true ∧ (∀ t, (s.tower t).combine = []) ∧ dFmt cp.src = dFmt cp.dst ∧ dEsize cp.src = dEsize cp.dst ∧
    4 = 2 ^ dEsize cp.src ∧ 1 ≤ dEsize cp.src ∧ dEsize cp.src ≤ 6 ∧ 396 % 4 = 0 ∧ 4 % 4 = 0 ∧
    poisonOf s (tteKey s (frameEntry 17) (396 / 8)) ((4 + 7) / 8) = none ∧ (0 < 4 % 8 ∧ 4 % 8 + 4 ≤ 8) := by decide +kernel

/-- A good template, a template without V, a stale request, and a copy that runs. -/
theorem witness_copyStarts :
    let m := someTemplate 0 0
    let s := onChannel (copying m) fun c => { c with queue := [someRequest .host] }
    let bad := onChannel (copying (m - 1)) fun c => { c with queue := [someRequest .host] }
    let busy := onChannel (copying m) fun c => { c with running := some (someCopy m .host false) }
    Dest4.ofCode s.now.unit = someChannel ∧ (s.churnChan someChannel).running = none ∧ (s.churnChan someChannel).queue = someRequest .host :: [] ∧
    ctxCurrent s 0 0 = true ∧ ctxCurrent base 0 0 = false ∧
    (readTemplate s (copyView s someChannel (someRequest .host)) 7 false).1 = .ready m (rowTensor 1 5 100) (otherTensor 1 5 100) ∧
    (match (readTemplate bad (copyView bad someChannel (someRequest .host)) 7 false).1 with | .bad _ _ _ _ => true | _ => false) = true ∧
    (someChannel.chan < 16 ∧ someChannel.kind = 1) ∧
    ((busy.churnChan someChannel).running = some (someCopy m .host false) ∧ (someCopy m .host false).ended = false ∧
      (someCopy m .host false).hold = false) := by decide +kernel

/-- Copies that have ended: with a ring of four slots that takes the record and one that is full, with a ring that is on no frame, without ring. -/
theorem witness_copyCompletes :
    let m (r : Nat) := someTemplate r 0
    let s (r v : Nat) := onChannel (withBytes (dramKey 0 0x100100) v 32 (copying (m r))) fun c => { c with running := some (someCopy (m r) .host true) }
    let at_ (r v : Nat) := copyTargets (s r v) someChannel (someCopy (m r) .host true)
    let slot (r v : Nat) := (at_ r v).1.bind CopyTargets.slot
    let entry := completionEntry someChannel (someCopy (m 0x100) .host true)
    ((s 0x100 (2 ^ 129)).churnChan someChannel).running = some (someCopy (m 0x100) .host true) ∧ (someCopy (m 0x100) .host true).ended = true ∧
    tRing (m 0x100) ≠ 0 ∧ ((at_ 0x100 (2 ^ 129)).1.bind CopyTargets.ring) = some (dramKey 0 0x100100) ∧
    (match ringPut (at_ 0x100 (2 ^ 129)).2 (dramKey 0 0x100100) (slot 0x100 (2 ^ 129)) entry with | .taken _ => true | _ => false) = true ∧
    (match ringPut (at_ 0x100 (2 ^ 129 + 4 * 2 ^ 32)).2 (dramKey 0 0x100100) (slot 0x100 (2 ^ 129 + 4 * 2 ^ 32)) entry with | .full _ => true | _ => false) = true ∧
    ((at_ 0x20000 0).1.map CopyTargets.ring) = some none ∧ (at_ 0x90000 0).1 = none ∧
    (tRing (m 0) = 0 ∧ tBara (m 0) = 0 ∧ (someCopy (m 0) .host true).status = 0 ∧ (someCopy (m 0) .host true).req.source = .host) ∧
    (base.churnChan (Dest4.ofCode base.now.unit)).running = none ∧ someChannel.chan < 16 ∧ someChannel.unit < 32 := by decide +kernel

/-- Whether the next element of a copy is held. -/
def isHeld : Element → Bool
  | .held _ => true
  | _ => false

theorem isHeld_of (e : Element) (h : isHeld e = false) : ∀ u, e ≠ .held u := by
  intro u hu; subst hu; cases h

/-- A held copy whose pass has ended, and the rows of an index that is good and of a gather that was refused. -/
theorem witness_heldAndGathered :
    let m := someTemplate 0 0
    let held := { someCopy m (.push 0 0x1000) false with hold := true, held := 0 }
    let s := onChannel (copying m) fun c => { c with running := some held }
    let i : GatherIndex := ⟨someGather, 0x1000, 0, true⟩
    let g (status : Code) := s.setMe { s.me with gidx := [i], rows := List.replicate 15 (1, 0), live := [{ gather := someGather, closed := true, reopened := false, opening := some { status := status, tmpl := m, src := rowTensor 1 5 100 } }] }
    (s.churnChan someChannel).running = some held ∧ held.hold = true ∧ isHeld (copyElement s someChannel held) = false ∧
    (g 0).me.gidx = i :: [] ∧ (g 0).me.rows.length < 16 ∧
    ((gatherRow (g 0) 0 i).1.map fun x => x.1) = some 0 ∧ ((gatherRow (g 0x4001) 0 i).1.map fun x => x.1) = some 0x4001 := by decide +kernel

/-- Apertures of the last channel of cluster 31's Churn and of hub Churn 3, an offset of none; bound and ready, unbound, unready. -/
theorem witness_apertures :
    let s (b : Word) (ready : Word) : State :=
      let s := onChannel (current base) fun c => { c with binding := b }
      { s with hub := { s.hub with ready := ready } }
    apertureChannel (0x9F000 + 14 * 0x40 + 8) = some ({ kind := 1, unit := 31, chan := 14 }, 8) ∧
    apertureChannel (0x3000 + 15 * 0x40) = some ({ kind := 2, unit := 3, chan := 15 }, 0) ∧ apertureChannel (0x9F000 + 15 * 0x40) = none ∧
    (((s 0x1000000 (1 <<< 32)).churnChan someChannel).binding.toNat / 2 ^ 24 % 2 = 1 ∧ (s 0x1000000 (1 <<< 32)).hub.ready.toNat.testBit 32 = true ∧
      ctxCurrent (s 0x1000000 (1 <<< 32)) 0 0 = true ∧ (s 0 0).now.extra = 0) ∧
    ((s 0 0).churnChan someChannel).binding.toNat / 2 ^ 24 % 2 = 0 ∧ (s 0 0).hub.ready.toNat.testBit 32 = false ∧
    apertureChannel 0x80380 = some (someChannel, 0) := by decide +kernel

/-! ### Curd programs and queries -/

/-- Whether a result is that value. -/
def gives {α : Type} [DecidableEq α] (x : Except Code α) (v : α) : Bool :=
  match x with
  | .ok y => decide (y = v)
  | .error _ => false

/-- A unit with i[1] = 0x400, i[2] = 2, i[3] = 3, i[4] = 1, w[1] all ones, w[2] ones in every lane but 0, and w[3] indices 0, 1, 2, …. -/
def someUnit : CurdUnit :=
  { i := #v[0, 0x400, 2, 3, 1, 0x20000, 0x401, 0],
    w := #v[0, BitVec.allOnes 8192, lanes32 fun e => if e = 0 then 0 else 1, lanes32 fun e => e * 256 + e, lanes32 fun _ => 0x80000000, 0, 0, 0],
    fly := [] }

/-- A program of two units at its second of three words, clock 100, with a window of pages 0 and 1. -/
def someProgram : CurdProgram :=
  { record := 0x8000, recKey := 0x108000, inst := 0x9000, instKey := 0x109000, ctx := 0, gen := 0, words := [0x70000000, 0x70000000, 0x0C000000],
    pc := 1, clock := 100, lastRow := none, refresh := 0, fu := 0, nu := 2, aw := 2, args := [1, 2, 3, 4], wbase := 0,
    pages := [frameEntry 16, frameEntry 17], cflg := 0, units := [someUnit, someUnit], writes := [], loads := [] }

/-- Directory entries (R335): 2, of 300 INT16 entries for units 0 and 1; 3, raw, of 8 bits; 4, of 300 FP32 entries. -/
def someTable (bits fmt len : Nat) : Nat := 2 * 2 ^ 214 + bits * 2 ^ 212 + fmt * 2 ^ 204 + 2 ^ 202 + (len - 1) * 2 ^ 176

/-- Tower 0 with that program, those tables, 64 KiB of lane space, and every unit ready. -/
def onCurd (f : CurdProgram → CurdProgram) : State :=
  let s := withBytes 64 (someTable 1 0x11 300) 32 (withBytes 96 (someTable 0 0 256) 32 (withBytes 128 (someTable 2 1 300) 32 (current base)))
  let s := s.setTower 0 { s.tower 0 with curd := some (f someProgram), curdLs := Vector.replicate 12 1 }
  { s with hub := { s.hub with ready := 0xFFFFFFFFFFFFFFFF }, now := { onCore 0 with tower := 0 } }

/-- The lane, scalar and loop instructions, at the first and the last program clock; saturation up and down; the loop's ends. -/
theorem witness_curdInstructions :
    let s := onCurd id
    let late := onCurd fun p => { p with clock := 2 ^ 32 - 64 }
    let r := curdSettle s someProgram
    (Claims.curdLaneTable (.qIns 15 7 1 2 0x41F)).isSome = true ∧ (Claims.curdLaneTable (.qExts 0 0 0 0x3FF)).isSome = true ∧
    (Claims.curdScalarTable (.qArg 3 1 1)).isSome = true ∧ (Claims.curdScalarTable (.qAddi 3 1 1 0x800)).isSome = true ∧
    ((s.tower s.now.tower).curd = some someProgram ∧ someProgram.pc + 1 < someProgram.words.length) ∧
    (2 ^ 32 - 64 + 4 * ((15 : BitVec 4).toNat + 1) ≤ 2 ^ 32 ∧ (late.tower late.now.tower).curd.isSome = true) ∧
    r.2.units = someUnit :: [someUnit] ∧ (∀ x ∈ someUnit.fly, x.lane = true → x.reg ≠ 1) ∧
    Claims.curdClamps (.qAdds 0 0 4 4) (lane32 (someUnit.rw 4) 0) (lane32 (someUnit.rw 4) 0) = true ∧
    Claims.curdClamps (.qSubs 0 0 4 2) (lane32 (someUnit.rw 4) 1) (lane32 (someUnit.rw 2) 1) = true ∧
    Claims.curdClamps (.qSubs 0 0 4 2) (lane32 (someUnit.rw 4) 0) (lane32 (someUnit.rw 2) 0) = false ∧
    someUnit.ri 4 = 1 ∧ someUnit.ri 2 ≠ 1 ∧ ((someProgram.pc : Int) + (0xFFF : BitVec 12).toInt).toNat = 0 ∧ (0 : Nat) < 3 := by decide +kernel

/-- Rows of one, two and four bytes, at the window's start and end, the port free and busy; tables and their last entries. -/
theorem witness_curdRows :
    let s := onCurd id
    let r := curdSettle s someProgram
    (someProgram.lastRow = none ∧ (some 60 : Option Nat) = some 60 ∧ 60 + 40 ≤ someProgram.clock ∧ ¬ (61 + 40 ≤ someProgram.clock)) ∧
    (∀ u ∈ r.2.units, gives (rowKey r.1 someProgram (u.ri 0) (256 * 4) false) 0x100000 = true ∧ gives (rowKey r.1 someProgram (u.ri 1) (256 * 4) true) 0x100400 = true ∧
      gives (rowKey r.1 someProgram 0x1FF00 256 true) 0x11FF00 = true ∧ poisonOf r.1 0x100000 1024 = none) ∧
    (∀ u ∈ r.2.units, (match rowKey r.1 someProgram (u.ri 5) 256 false with | .error x => decide (x = 0x4113) | .ok _ => false) = true) ∧
    r.1.badLanes = [] ∧
    (∀ j ∈ [0, 1], gives (programTable r.1 s.now.tower someProgram j (someUnit.ri 2)) (BitVec.ofNat 256 (someTable 1 0x11 300), j) = true ∧
      gives (programTable r.1 s.now.tower someProgram j (someUnit.ri 3)) (BitVec.ofNat 256 (someTable 0 0 256), j) = true ∧
      gives (programTable r.1 s.now.tower someProgram j 4) (BitVec.ofNat 256 (someTable 2 1 300), j) = true) ∧
    tableFmt (BitVec.ofNat 256 (someTable 1 0x11 300)) ≠ 0 ∧ lane32 (someUnit.rw 3) 255 / 2 ^ 8 % 2 ^ 16 < tableLen (BitVec.ofNat 256 (someTable 1 0x11 300)) ∧
    (255 : BitVec 12).toNat < 256 := by decide +kernel

/-- A row operation too early, and the last word of a program. -/
theorem witness_curdFaults :
    let early := onCurd fun p => { p with lastRow := some 61 }
    let last := onCurd fun p => { p with pc := 2 }
    (∃ p, (early.tower early.now.tower).curd = some p ∧ ¬ Claims.portFree p ∧ p.pc + 1 < p.words.length ∧ p.clock + 4 * 16 ≤ 2 ^ 32) ∧
    (∃ p, (last.tower last.now.tower).curd = some p ∧ p.pc + 1 = p.words.length) :=
  ⟨⟨{ someProgram with lastRow := some 61 }, by decide +kernel, fun h => absurd (h 61 rfl) (by decide), by decide +kernel, by decide +kernel⟩,
   ⟨{ someProgram with pc := 2 }, by decide +kernel, by decide +kernel⟩⟩

/-- The instance of the program's node, armed at tower 0. -/
def someArmed : Armed :=
  { hdr := 0x9000, hdrKey := 0x109000, ctx := 0, gen := 0, launch := (someRun false).launch, part := 0, abandoned := false, named := [], origin := none }

/-- A curd node's record (R341): two words from 0x1000 on, units 383 (and 1 of them), one argument word at 0x2000, a window of two pages from page 0. -/
def curdBody (plen fu nu : Nat) : Nat :=
  0x1000 / 64 * 2 ^ 390 + plen * 2 ^ 377 + fu * 2 ^ 368 + nu * 2 ^ 359 + 1 * 2 ^ 350 + 2 * 2 ^ 332 + 0x2000 / 8 * 2 ^ 3

/-- Whether a window is translated to those pages. -/
def pagesAre (r : Option (Except Code (List (BitVec 64))) × State) (ps : List (BitVec 64)) : Bool :=
  match r.1 with
  | some (.ok xs) => decide (xs = ps)
  | _ => false

/-- A program about to start, with a good body at the edge of the units, and with bodies out of range; its end. -/
theorem witness_curdStarts :
    let s (plen fu nu : Nat) : State :=
      withBytes 0x101000 0x0C00000070000000 8 (withBytes 0x108000 (curdBody plen fu nu) 64 (onCurd fun p => { p with words := [] }))
    let armed : State :=
      let x := onCurd id
      x.setTower 3 { x.tower 3 with armed := [someArmed] }
    let rec_ (plen fu nu : Nat) := readRecord (s plen fu nu) 0x108000
    let good := s 2 383 1
    let v := ctxView good 0 0 0
    bodyBroken (rec_ 2 383 1) = false ∧ bodyBroken (rec_ 2 384 1) = true ∧ bodyBroken (rec_ 2 383 2) = true ∧ bodyBroken (rec_ 0 0 1) = true ∧
    bodyBroken (rec_ 4097 0 1) = true ∧ bodyBroken (rec_ 2 0 0) = true ∧
    (good.tower good.now.tower).curd = some { someProgram with words := [] } ∧
    gives (flatItems good v 4 (qProg (rec_ 2 383 1)) (qPlen (rec_ 2 383 1))) [0x70000000, 0x0C000000] = true ∧
    gives (flatItems good v 8 (qArgs (rec_ 2 383 1)) (qNu (rec_ 2 383 1) * qAw (rec_ 2 383 1))) [0] = true ∧
    wordOk 2 1 0 0x70000000 = true ∧ wordOk 2 1 1 0x0C000000 = true ∧
    pagesAre (windowPages v (qWpg (rec_ 2 383 1)) (qWnp (rec_ 2 383 1)) good) [frameEntry 16, frameEntry 17] = true ∧
    findArmed (armed.setTower 0 { armed.tower 0 with curd := none }) someProgram.instKey = some (3, someArmed) ∧
    someProgram.writes = [] ∧ someProgram.loads = [] := by decide +kernel

/-- A query of core 1 for a table, with index 0 in every element. -/
def someQuery (lerp : Bool) (table : Nat) : Query :=
  { core := 1, push := { word := BitVec.ofNat 32 ((if lerp then 0x11 else 0x10) * 2 ^ 25), a := 0, b := BitVec.ofNat 64 table, v := 0, bundle := 0x1000 },
    ctx := 0, gen := 0, frac := 0, naks := 0, held := 0, result := none, orphan := false }

/-- Queries of tables of 16, 8 and 32 bits, of no table, by a unit that a program holds, refused, and answered. -/
theorem witness_curdQueries :
    let s (b : Bool) (n : Nat) : State :=
      let x := onCurd id
      x.setTower 0 { x.tower 0 with
        curd := if b then some someProgram else none, queries := [someQuery false n],
        dirCache := [2, 3, 4, 5].map fun i => { index := i, key := tableKey x 0 i, entry := tableEntry x 0 i } }
    let answered := (s false 2).setTower 0 { (s false 2).tower 0 with queries := [{ someQuery false 2 with core := 0, result := some [0] }] }
    (∀ n ∈ [2, 3, 4, 5], openQuery (s false n) 0 = some (someQuery false n) ∧ queryBlocked (s false n) 0 (someQuery false n) = false ∧ queryMisses (s false n) 0 (someQuery false n) = false) ∧
    queryMisses (s false 6) 0 (someQuery false 6) = true ∧ openQuery (s false 6) 0 = some (someQuery false 6) ∧
    (∀ n ∈ [2, 3, 4], queryRefused (s false n) 0 (someQuery false n) = none) ∧ queryRefused (s false 5) 0 (someQuery false 5) = some 0x4101 ∧
    queryRefused (s false 3) 0 (someQuery true 3) = some 0x4103 ∧ queryRefused (s false 4096) 0 (someQuery false 4096) = some 0x4101 ∧
    (s false 2).badLanes = [] ∧ (someQuery false 2).lerps = false ∧ tableBits (tableEntry (s false 2) 0 2) = 16 ∧ tableBits (tableEntry (s false 4) 0 4) = 32 ∧
    queryBlocked (s true 2) 0 (someQuery false 2) = true ∧ openQuery (s true 2) 0 = some (someQuery false 2) ∧
    (answered.tower (towerOf answered.now.core)).queries = [{ someQuery false 2 with core := 0, result := some [0] }] := by decide +kernel

/-! ### The walkers -/

/-- A request of context 0 with tag 9, from core 0. -/
def someReq (kind : Nat) (a2 : Word) : WalkReq :=
  { kind := kind, record := 0x8000, ctx := 0, gen := 0, a2 := a2, a3 := 7, acc := 1, tag := 9, tid := 5, core := some 0, dst := 6, entry := kind, unit := 0, tile := if kind = 0 then 7 else 1, leaf := 0 }

/-- Tower 0's walker with x5 and x6 as given, at offset 0x400. -/
def walking (x5 x6 : Word) (f : Walker → Walker) (s : State) : State :=
  let k := (s.tower 0).walker
  { s.setWalker 0 (f { k with x := (k.x.set 5 x5).set 6 x6, pc := 0x400 }) with now := onTower 0 }

/-- Addresses: misaligned, the last word of the frames, just beyond, and a poisoned one; the link up and down. -/
theorem witness_walkerLoads :
    let n (x : Word) : Nat := ((walking x 0 id base).tower 0).walker.get 5 |>.toNat
    let s := walking 0 0 id base
    let up : State := { s with hub := { s.hub with cxlUp := true } }
    let bad (k : Nat) : State := poisonRange up k 8 0x2012
    n 0x1004 % 8 ≠ 0 ∧ n 0x11FFFFFFF8 % 8 = 0 ∧ n 0x11FFFFFFF8 < 1179648 * 65536 ∧ n 0x1200000000 % 8 = 0 ∧ 1179648 * 65536 ≤ n 0x1200000000 ∧
    poisonOf (touchHome s 0x1000 8 false) 0x1000 8 = none ∧ poisonOf (touchHome (bad 0x1000) 0x1000 8 false) 0x1000 8 ≠ none ∧ s.hub.cxlUp = false ∧ up.hub.cxlUp = true ∧
    poisonOf up (2 ^ 64 + 0x1000) 8 = none ∧ poisonOf (bad (2 ^ 64 + 0x1000)) (2 ^ 64 + 0x1000) 8 ≠ none := by decide +kernel

/-- A current request of each kind, with its tag and with another, entries with V = 1 and 0, codes 0 and not. -/
theorem witness_walkerRequests :
    let s (k : Nat) := walking 9 (1 <<< 63) (fun w => { w with cur := some (someReq k 0x10000) }) (current base)
    (∀ k ∈ [0, 2, 3, 4], ((s k).tower 0).walker.cur = some (someReq k 0x10000) ∧ (someReq k 0x10000).tag = (((s k).tower 0).walker.get 5).setWidth 16) ∧
    (walking 8 0 id base |>.tower 0).walker.cur = none ∧ (someReq 0 0).tag ≠ (8 : Word).setWidth 16 ∧ (someReq 2 0).kind ≤ 2 ∧
    (((s 0).tower 0).walker.get 6).getLsbD 63 = true ∧ (((s 0).tower 0).walker.get 5).getLsbD 63 = false ∧
    ctxCurrent (s 0) 0 0 = true ∧ (someReq 0 0).unit ≠ pageUnit ∧ (((s 0).tower 0).walker.get 6).toNat % 2 ^ 16 = 0 ∧ (((s 0).tower 0).walker.get 5).toNat % 2 ^ 16 ≠ 0 := by decide +kernel

/-- Selectors: one tile, every tile of a tensor, everything; copies between tower and host, from a poisoned source, beyond the frames and with the link down. -/
theorem witness_invalidationsAndChunks :
    let s := walking 0x100000 0x8000000000200000 id base
    let up : State := { s with hub := { s.hub with cxlUp := true, ready := 1 <<< 28 } }
    (Claims.named 0x0000000000000001 0 1 ∧ ¬ Claims.named 0x0000000000000001 0 2 ∧ Claims.named 0x0000000000FFFFFF 0 2 ∧ Claims.named 0xFFFF000000FFFFFF 7 2) ∧
    up.hub.cxlUp = true ∧ (∀ e ∈ (up.tower 0).tiles, e.ctx = 0 ∧ e.gen = 0) ∧ Memory.wf up.mem = true ∧
    chunkFault up 0 0x100000 = none ∧ chunkFault up 0 0x8000000000200000 = none ∧
    (up.poison.find? fun e => decide (dramKey 0 0x100000 / 8 ≤ e.1) && decide (e.1 < dramKey 0 0x100000 / 8 + 8192)) = none ∧
    chunkFault s 0 0x8000000000200000 = some 0x4011 ∧ chunkFault up 0 0x1200000000 = some 0x4003 ∧ chunkFault s 0 0x100000 = some 0x4006 ∧ (∀ u, (up.tower u).combine = []) ∧
    (let l : L1Line := { ctx := 0, gen := 0, tid := 0, tile := 2, line := 0, home := hostKey 0, data := 0, dirty := 1, inv := false, bad := [] }
     let d := walking 0x0000000000FFFFFF 0 id (base.setMe { base.me with l1 := [l] })
     d.hub.cxlUp = false ∧ l ∈ (d.core 0).l1 ∧ l.dirty ≠ 0 ∧ l.ctx.toNat = ((d.tower 0).walker.get 6).toNat / 2 ^ 8 % 2 ^ 16 ∧
      Claims.named ((d.tower 0).walker.get 5).toNat l.tid.toNat l.tile) := by
  refine ⟨⟨?_, ?_, ?_, ?_⟩, ?_⟩ <;> (try simp only [Claims.named]) <;> decide +kernel

/-- A range entry 31 of context 0 with OWN as given, and tables that map its page. -/
def handing (own : Nat) : State :=
  let s := withBytes (0x4000 + 16 * 31) (2 ^ 80 + 2 ^ 56 + own * 2 ^ 54 + 2 ^ 52) 16 (current base)
  let s := withBytes 24 0x4000 8 (withBytes 16 0x20000 8 s)
  withBytes 0x20000 0xE000000000000003 8 (withBytes 0x30000 0xE000000000000004 8 (withBytes 0x40000 0xE000000000000005 8 s))

/-- Requests of a layout unit, taken where the store holds no routine: for a tile of a tensor whose table maps it, and one whose table does not; an invalidation that
waits for the link; a routine that has come to ADDI and to SD. -/
theorem witness_walkerTiles :
    let s (r : WalkReq) := walking 0x1000 77 (fun w => { w with queue := [r] }) (current base)
    let at_ (r : WalkReq) := tensorWalk (s r) (tileView (s r) 0 r) r.a2 r.tile
    let r : WalkReq := { someReq 0 0x100 with core := none }
    let good := withBytes 0x60138 0xA00C000000000011 8 <| withBytes 0x50000 (frameEntry 6).toNat 8 (walking 0 0 (fun w => { w with queue := [r] }) (handing 1))
    let l : L1Line := { ctx := 0, gen := 0, tid := 0, tile := 2, line := 0, home := hostKey 0, data := 0, dirty := 1, inv := false, bad := [] }
    let waits := (s { someReq 5 0xFFFF000000FFFFFF with core := none }).setMe { base.me with l1 := [l] }
    let routine (w : BitVec 32) : State :=
      let x := walking 0x1000 77 (fun k => { k with running := true }) (current base)
      x.setTower 0 { x.tower 0 with store := (List.range 4).map fun i => (0x400 + i, w.extractLsb' (8 * i) 8) }
    ((s r).tower 0).handover = none ∧ ((s r).tower 0).walker.running = false ∧ ((s r).tower 0).walker.queue = [r] ∧
    (storeWord (s r) 0 (4 * r.entry)).toNat = 0 ∧ walkerBlocked (s r) 0 = false ∧ ctxCurrent (s r) 0 0 = true ∧ r.kind < 3 ∧
    (match at_ r with | .fault _ => true | _ => false) = true ∧ walkerBlocked waits 0 = true ∧
    ((routine 0x00128393).tower 0).walker.running = true ∧ ((routine 0x00128393).tower 0).handover = none ∧
    (storeWord (routine 0x00128393) 0 0x400 = (1 : BitVec 12) ++ (5 : BitVec 5) ++ (0 : BitVec 3) ++ (7 : BitVec 5) ++ (0x13 : BitVec 7)) ∧
    (storeWord (routine 0x0062B423) 0 0x400 = (0 : BitVec 7) ++ (6 : BitVec 5) ++ (5 : BitVec 5) ++ (3 : BitVec 3) ++ (8 : BitVec 5) ++ (0x23 : BitVec 7)) ∧
    ((((routine 0x0062B423).tower 0).walker.get 5 + (8 : BitVec 12).signExtend 64).toNat % 8 = 0) ∧
    (match tensorWalk good (tileView good 0 r) r.a2 r.tile with | .ok e => e == 0xA00C000000000011 | _ => false) = true := by decide +kernel

/-- Requests as they are taken: with a routine of R55, to an owner that is right, and to one that is not; routines at 4,096 clk and beyond. -/
theorem witness_walkerServes :
    let s (kind own : Nat) := walking 0 0 (fun w => { w with queue := [someReq kind 31] }) (handing own)
    let r := (s 3 0).setTower 0 { (s 3 0).tower 0 with store := [(13, 0x04), (0x400, 0x0B), (0x401, 0x87), (0x402, 0x06)] }
    let running (since : Nat) : State := { walking 0 0 (fun w => { w with running := true, since := since, cur := some (someReq 0 0) }) base with clk := 4097 }
    ((s 3 0).tower 0).handover = none ∧ ((s 3 0).tower 0).walker.running = false ∧ walkerBlocked (s 3 0) 0 = false ∧ walkerBlocked (s 4 1) 0 = false ∧ ((s 3 0).tower 0).walker.queue = someReq 3 31 :: [] ∧
    (storeWord r 0 (4 * 3)).toNat = 0x400 ∧ (decodeWalker (storeWord r 0 0x400)).isSome = true ∧ (storeWord (s 3 0) 0 (4 * 3)).toNat = 0 ∧
    ctxCurrent (s 3 0) 0 0 = true ∧ (∀ own ∈ [0, 1], rOwn (rangeEntry (s 3 own) (reqView (s 3 own) 0 (someReq 3 31)) ((someReq 3 31).a2.toNat % 32)) = own) ∧
    rOwn (rangeEntry (s 4 1) (reqView (s 4 1) 0 (someReq 4 31)) 31) = 1 ∧
    (((running 0).tower 0).walker.running = true ∧ 0 + 4096 < (running 0).clk) ∧ (running 1).clk ≤ 1 + 4096 := by decide +kernel

/-- Handovers of one page: an acquire that finds its tables, one without a frame for them, a release; before the timeout and at it; the core that waits for a release. -/
theorem witness_handovers :
    let h (acquire : Bool) : Handover := { req := someReq (if acquire then 3 else 4) 31, index := 31, acquire := acquire, since := 0 }
    let s (acquire : Bool) (value : Word) (clk : Nat) : State :=
      let x := handing 2
      { x.setTower 0 { x.tower 0 with handover := some (h acquire) } with now := { onTower 0 with value := value }, clk := clk }
    let e := rangeEntry (s true 0 0) (reqView (s true 0 0) 0 (h true).req) 31
    let empty : Moved := { frames := [], leaves := [] }
    let a := acquirePages 0 (reqView (s true 0 0) 0 (h true).req) e (rLen e) (rBase e) empty (s true 0 0)
    let lacking := acquirePages 0 { reqView (s true 0 0) 0 (h true).req with flatb := 0x50000 } e (rLen e) (rBase e) empty (s true 0 0)
    let w : Wait := { kind := 6, obj := 31, arg := 1, key := 0, slot := 3, dst := 6 }
    let waiting := (runs false (s false 0 0)).setMe { (runs false (s false 0 0)).me with stall := some w }
    Memory.wf (s true 0 0).mem = true ∧ ((s true 0 0).tower 0).handover = some (h true) ∧ ((s false 0 0).tower 0).handover = some (h false) ∧
    (s true 1 0).now.value = 1 ∧ (s true 0 0).now.value ≠ 1 ∧ rMigr e = false ∧ rLen e = 1 ∧ (h false).acquire = false ∧
    (a.1 = none ∧ a.2.1.frames = [] ∧ a.2.1.leaves.length = 1) ∧ lacking.1 = some 0x1110 ∧
    1024 * max 1 ((s true 0 0).hub.htmo.toNat % 2 ^ 32) = 2 ^ 26 ∧ (s true 0 (2 ^ 26 - 1)).clk < 0 + 2 ^ 26 ∧ 0 + 2 ^ 26 ≤ (s true 0 (2 ^ 26)).clk ∧
    (h false).req.core = some 0 ∧ (waiting.core 0).stall = some w ∧ (waiting.core 0).run = some (someRun false) ∧ w.obj = (h false).req.a2 ∧
    w.arg = (if (h false).req.kind = 4 then 1 else 0) ∧ (someRun false).record = (h false).req.record ∧ 0 < w.dst.toNat ∧
    Claims.aloneInGroup (waiting.core 0) w.slot (.s w.dst) := by
  simp only [Claims.aloneInGroup]; decide +kernel

/-! ### Rennet -/

/-- A node record of instance 0x9000 (R13), with its save area at page 1. -/
def node (kind level group preds state : Nat) : Nat :=
  0x9000 / 64 * 2 ^ 454 + (if kind = 0 then 0x10000 / 256 * 2 ^ 328 else 0) + preds * 2 ^ 160 + preds * 2 ^ 144 + group * 2 ^ 136 + level * 2 ^ 128 +
    state * 2 ^ 92 + kind * 2 ^ 90 + 2 * 2 ^ 88

/-- An instance header (R19) with its launch descriptor at 0xC000 and its roots at 0xD000. -/
def header (state remain nodes nroots armcnt : Nat) : Nat :=
  0xC000 * 2 ^ 256 + 0xD000 * 2 ^ 128 + armcnt * 2 ^ 96 + state * 2 ^ 60 + remain * 2 ^ 44 + nroots * 2 ^ 32 + nodes

/-- Context 0 with that record at 0x8000 and that header at 0x9000, the instance armed at tower 0, every unit ready, and an occasion of tower 0. -/
def instanceOf (rec_ hdr : Nat) (o : Occasion → Occasion) : State :=
  let s := withBytes 0x108000 rec_ 64 (withBytes 0x109000 hdr 64 (withBytes 48 0xE000 8 (current base)))
  let s := s.setTower 0 { s.tower 0 with armed := [someArmed] }
  { s with hub := { s.hub with ready := 0xFFFFFFFFFFFFFFFF, cxlUp := true, devid := 0x20007 }, now := o { onTower 0 with unit := 1 } }

/-- Stores to GARM: a good header, headers in STATE 1, with NROOTS 0 and 1025, with a launch descriptor that is reserved, low bits, another context's, and a host's store. -/
theorem witness_arming :
    let s (h : Nat) (v : Word) := instanceOf 0 h fun o => { o with value := v }
    let r (h : Nat) := storeHeader (s h 0x9000) (0, 0)
    let bad := withBytes 0x10C000 1 8 (s (header 0 0 3 1 5) 0x9000)
    let host (b : Bool) : State := { s 0 0 with now := { onTower 0 with unit := 0 }, hub := { (s 0 0).hub with ready := if b then 1 <<< 40 else 0 } }
    hostBlocked (s 0 0) = false ∧ storeContext (s 0 0) = some (0, 0) ∧ hostBlocked (host false) = true ∧ hostBlocked (host true) = false ∧
    storeContext (host true) = none ∧ gives (r (header 0 0 3 1 5)).1 0x109000 = true ∧
    headerState (r (header 1 0 3 1 5)).2 0x109000 ≠ 0 ∧ headerState (r (header 0 0 3 1 5)).2 0x109000 = 0 ∧
    (s 0 0x9001).now.value.toNat % 64 ≠ 0 ∧ (s 0 0x9000).now.value.toNat % 64 = 0 ∧ headerBroken (r (header 0 0 3 0 5)).2 0x109000 = true ∧
    headerBroken (r (header 0 0 3 1025 5)).2 0x109000 = true ∧ headerBroken (r (header 0 0 3 1024 5)).2 0x109000 = false ∧
    readLaunch (storeHeader bad (0, 0)).2 0 (0, 0) 0x109000 = none ∧ readLaunch (r (header 0 0 3 1 5)).2 0 (0, 0) 0x109000 = some 0 ∧
    (launchOf 0).det = false ∧ Memory.wf (r (header 0 0 3 1 5)).2.mem = true := by decide +kernel

/-- Records that become ready: at core 31, with a group that is none, with PREDS at a root. -/
theorem witness_ready :
    let s (r : Nat) := instanceOf r (header 1 3 3 1 5) id
    let k (r : Nat) := rennetKey (s r) 0 0 0 0x8000 64
    let r (n : Nat) := readRecord (k n).2 0x108000
    gives (k (node 0 0 31 0 0)).1 0x108000 = true ∧ ctxCurrent (k (node 0 0 31 0 0)).2 0 0 = true ∧
    nodeFault (k 0).2 someArmed (r (node 0 0 31 0 0)) true = none ∧ nodeFault (k 0).2 someArmed (r (node 0 0 32 0 0)) true = some 0x0210 ∧
    nodeFault (k 0).2 someArmed (r (node 0 0 31 1 0)) true = some 0x0214 ∧ nodeFault (k 0).2 someArmed (r (node 1 0 31 0 0)) true = some 0x0211 ∧
    Memory.wf (k (node 0 0 31 0 0)).2.mem = true ∧ groupTower (nLevel (r (node 0 0 31 0 0))) (nGroup (r (node 0 0 31 0 0))) = some 0 ∧
    ((k (node 0 0 31 0 0)).2.tower 0).ready.length < 4096 + 2 ^ 20 := by decide +kernel

/-- Decrements of a successor with PREDS 0, 1 and 2, in the middle of its list and at its end; spawns of a fresh record and of one in STATE 1; the last node but one. -/
theorem witness_decrements :
    let s (preds : Nat) (x : Word) := instanceOf (node 0 0 3 preds 0) (header 1 2 3 1 5) fun o => { o with unit := 0x109000, addr := 0x8000, extra := x }
    let k (preds : Nat) := rennetKey (s preds 0) 0 0 0 0x8000 64
    let spawn (state remain : Nat) := instanceOf (node 0 0 3 0 state) (header 1 remain 3 1 5) fun o => { o with addr := 0x8000 }
    let p (state remain : Nat) := pushedRecord (spawn state remain) 0 0 0 0x8000
    (s 1 0).now.extra.toNat / 4 % 2 = 0 ∧ findArmed (s 1 0) (s 1 0).now.unit = some (0, someArmed) ∧
    gives (k 1).1 0x108000 = true ∧ (∀ n ∈ [0, 1, 2], nPreds (readRecord (k n).2 0x108000) = n) ∧ (s 1 1).now.extra.toNat % 2 = 1 ∧ Memory.wf (k 1).2.mem = true ∧
    gives (p 0 2).1 (0x108000, 0x109000, some (0, someArmed)) = true ∧ headerState (p 0 2).2 0x109000 = 1 ∧ nState (readRecord (p 0 2).2 0x108000) = 0 ∧
    nCtx (readRecord (p 0 2).2 0x108000) = 0 ∧ nGen (readRecord (p 0 2).2 0x108000) = 0 ∧ nInst (readRecord (p 0 2).2 0x108000) = 0x9000 ∧
    headerRemain (p 0 2).2 0x109000 = 2 ∧ headerRemain (p 0 65535).2 0x109000 = 65535 ∧ nState (readRecord (p 1 2).2 0x108000) ≠ 0 ∧
    (someArmed.hdrKey + 64 ≤ 0x108000 ∨ 0x108000 + 64 ≤ someArmed.hdrKey) ∧ 1 < headerRemain (s 1 0) someArmed.hdrKey := by decide +kernel

/-- Commands: resume and restart of a faulted continuation with a forced save, restart of a copy node, abandon of an armed and of an ended instance, and of nothing. -/
theorem witness_commands :
    let s (rec_ hdr : Nat) (v : Word) := withBytes (0x110000 + 0x1B00) (2 ^ 99) 16 (instanceOf rec_ hdr fun o => { o with value := v, unit := 1 })
    let k (rec_ hdr : Nat) (v : Word) := rennetKey (s rec_ hdr v) 0 0 0 (v &&& ~~~(63 : Word)) 64
    let fo := k (node 0 0 3 0 5) (header 2 2 3 1 5) 0x8000
    let copy := k (node 1 1 0 0 5) (header 2 2 3 1 5) 0x8001
    let ab (state : Nat) := k 0 (header state 2 3 1 5) 0x9002
    let area := saveAreaKey fo.2 (coreNo 0) 0 0 (nSave (readRecord fo.2 0x108000))
    let done := (s 0 0 0).setTower 0 { (s 0 0 0).tower 0 with armed := [{ someArmed with abandoned := true }] }
    (([0x8000, 0x8001, 0x9002] : List Word).all fun v => decide (hostBlocked (s 0 0 v) = false ∧ storeContext (s 0 0 v) = some (0, 0) ∧ v.toNat / 4 % 16 = 0)) = true ∧
    (0x8000 : Word).toNat % 4 = 0 ∧ (0x8001 : Word).toNat % 4 = 1 ∧ (0x9002 : Word).toNat % 4 = 2 ∧
    gives fo.1 0x108000 = true ∧ gives copy.1 0x108000 = true ∧ gives (ab 1).1 0x109000 = true ∧
    faultedInstance fo.2 0 (0, 0) 0x108000 = some (0, someArmed) ∧ faultedInstance copy.2 0 (0, 0) 0x108000 = some (0, someArmed) ∧
    faultedInstance (k (node 0 0 3 0 4) (header 2 2 3 1 5) 0x8000).2 0 (0, 0) 0x108000 = none ∧ nKind (readRecord fo.2 0x108000) = 0 ∧
    nLevel (readRecord fo.2 0x108000) ≠ 3 ∧ nKind (readRecord copy.2 0x108000) ≠ 0 ∧ nLevel (readRecord copy.2 0x108000) ≠ 3 ∧
    (nodeTower 0 (readRecord fo.2 0x108000) 0) = 0 ∧ area.1 = some 0x110000 ∧ readNat area.2 (0x110000 + 0x1B00) 16 / 2 ^ 99 % 2 = 1 ∧
    headerCtx (ab 1).2 0x109000 = 0 ∧ headerGen (ab 1).2 0x109000 = 0 ∧ headerState (ab 1).2 0x109000 = 1 ∧ headerState (ab 2).2 0x109000 = 2 ∧
    headerState (ab 0).2 0x109000 = 0 ∧ Memory.wf (ab 1).2.mem = true ∧ findArmed (ab 1).2 0x109000 = some (0, someArmed) ∧
    findArmed ((ab 1).2.setTower 0 { (ab 1).2.tower 0 with armed := [] }) 0x109000 = none ∧
    ((({ done with now := { done.now with unit := 0x109000 } } : State).tower 0).armed.find? fun a => a.hdrKey = 0x109000 && a.abandoned) =
      some { someArmed with abandoned := true } := by decide +kernel

/-- A ready entry of the record for a target. -/
def someEntry (target : Target) (prio : BitVec 2) : ReadyEntry :=
  { target := target, prio := prio, record := 0x8000, recKey := 0x108000, inst := 0x9000, instKey := 0x109000, ctx := 0, gen := 0, stamp := 0, head := false,
    only := none, level := 0 }

/-- With those entries ready on tower 0. -/
def readied (es : List ReadyEntry) (rec_ : Nat) (o : Occasion → Occasion) : State :=
  let s := instanceOf rec_ (header 1 2 3 1 5) o
  { s.setTower 0 { s.tower 0 with ready := es } with clk := 1 }

/-- Two records for core 3, of which the more urgent is chosen; its first pick-up. -/
theorem witness_pickUps :
    let low := someEntry (.core 3) 1
    let high := someEntry .tower 3
    let s := readied [low, high] (node 0 0 3 0 1) id
    let r := readRecord s 0x108000
    chooseFor s 3 = some high ∧ findArmed s high.instKey = some (0, someArmed) ∧ ctxCurrent s 0 0 = true ∧ recordBroken r = false ∧ nState r ≠ 4 ∧
    (saveAreaKey s 3 0 0 (nSave r)).1 = some 0x110000 := by decide +kernel

/-- Dispatches: to a core, to channels of a Churn and of the hub's, to the curd units, and from a reserved core; stagings that succeed, fail, and lose their instance. -/
theorem witness_dispatches :
    let s (t : Target) (prio : BitVec 2) (rec_ : Nat) (u : Nat) (v : Word) := readied [someEntry t prio] rec_ fun o => { o with unit := u, value := v }
    let stage (prio : BitVec 2) (failed : Code) : Staging := { entry := someEntry (.core 3) prio, core := 3, list := [], mac := false, failed := failed, ticket := 1, ended := false }
    let reserved := (s (.core 3) 3 0 4 0).setTower 0 { (s (.core 3) 3 0 4 0).tower 0 with staging := [stage 2 0] }
    let staged (failed : Code) (hdr : Nat) : State :=
      let x := instanceOf 0 hdr fun _ => onCore 3
      x.setTower 0 { x.tower 0 with staging := [stage 2 failed] }
    dispatchCore (s (.core 3) 1 0 0 0) 0 = some 3 ∧ chooseFor (s (.core 3) 1 0 0 0) 3 = some (someEntry (.core 3) 1) ∧
    clusterNo (s (.churn 7) 1 0 1 7).now.value.toNat = 7 ∧ chooseTarget (s (.churn 7) 1 0 1 7) 0 (fun g => g = .churn 7) = some (someEntry (.churn 7) 1) ∧
    freeChannel (s (.churn 7) 1 0 1 7) 1 7 = some 0 ∧
    chooseTarget (s .hubChurn 1 0 2 0) 0 (fun g => g = .hubChurn) = some (someEntry .hubChurn 1) ∧ freeChannel (s .hubChurn 1 0 2 0) 2 0 = some 0 ∧
    chooseTarget (s .curd 1 0 3 0) 0 (fun g => g = .curd) = some (someEntry .curd 1) ∧ ((s .curd 1 0 3 0).tower 0).curd = none ∧
    reservedCore reserved 0 = some (stage 2 0, someEntry (.core 3) 3) ∧
    (let d := dropReady (s (.churn 7) 1 (node 1 1 7 0 1) 1 7) 0 (someEntry (.churn 7) 1)
     findArmed d 0x109000 = some (0, someArmed) ∧ ctxCurrent d 0 0 = true ∧ recordBroken (readRecord d 0x108000) = false ∧
     Memory.wf (s (.churn 7) 1 (node 1 1 7 0 1) 1 7).mem = true) ∧
    (((staged 0 (header 1 2 3 1 5)).tower (towerOf (staged 0 0).now.core)).staging.find? fun g => g.core = 3) = some (stage 2 0) ∧
    coreMayRun (staged 0 (header 1 2 3 1 5)) 3 (stage 2 0).entry = true ∧ coreMayRun (staged 0 (header 3 2 3 1 5)) 3 (stage 2 0).entry = false ∧
    fusionWaits (staged 0 0) (clusterOf 3) = false ∧
    fusionWaits ((staged 0 0).setCluster (clusterOf 3) { (staged 0 0).cluster (clusterOf 3) with fuseReq := some true }) (clusterOf 3) = true ∧
    (stage 2 0).failed = 0 ∧ (stage 2 0x1102).failed ≠ 0 ∧ findArmed (staged 0x1102 0) 0x109000 = some (0, someArmed) := by decide +kernel

/-- A core that runs with and without yields, a displaced record, a suspended one whose walker has answered, and a cluster whose cores are idle. -/
theorem witness_displacements :
    let s := runs false (instanceOf 0 (header 1 2 3 1 5) fun _ => onCore 0)
    let d : Displaced := { core := 3, run := someRun false, aff := true }
    let w : Wait := { kind := 6, obj := 31, arg := 1, key := 0, slot := 3, dst := 6 }
    let x : Suspended := { entry := someEntry .tower 1, wait := w }
    let sus := (instanceOf 0 (header 1 2 3 1 5) fun o => { o with addr := 0x8000 }).setTower 0 { s.tower 0 with susp := [x], answers := [(0x8000, 63, 0)] }
    let fusing : State := { base.setCluster 5 { base.cluster 5 with fuseReq := some true } with now := { Occasion.none with unit := 5 }, hub := { base.hub with cxlUp := true } }
    s.me.run = some (someRun false) ∧ (someRun false).yseq ≠ 0 ∧ s.me.seqMode = .none ∧ (s.setMe { s.me with displace := some 0 }).me.displace.isSome = true ∧
    (undoBundle s 0).me.mat.passes = [] ∧ (undoBundle (onMat s fun m => { m with passes := [somePass false false] }) 0).me.mat.passes ≠ [] ∧
    s.me.displace = none ∧ ((s.setTower 0 { s.tower 0 with displaced := [d] }).tower 0).displaced = d :: [] ∧
    headerState (fullRelease s d.core) d.run.instKey ≠ 3 ∧ ((sus.tower 0).susp.find? fun x => x.entry.record = sus.now.addr && suspReady sus 0 x) = some x ∧
    (sus.tower 0).susp = [x] ∧ findArmed (sus.setTower 0 { sus.tower 0 with susp := [] }) 0x109000 = some (0, someArmed) ∧
    (fusing.cluster 5).fuseReq = some true ∧ clusterNo fusing.now.unit = 5 ∧ (∀ c ∈ clusterCores 5, (fusing.core c).run = none) ∧ fusing.hub.cxlUp = true := by
  decide +kernel

/-- Pod entries of 0, 1, 8 and 9 places, the first place on this device and on another; a response to a request that was sent. -/
theorem witness_podRecords :
    let s (n dev : Nat) : State := withBytes 0x10E060 (n * 2 ^ 252 + dev * 2 ^ 8 + 2) 32 (withBytes 0 0x50100 8
      (instanceOf (node 0 3 3 0 0) (header 1 2 3 1 5) fun o => { o with unit := 0x108000, value := 0x109000, addr := 0x8000 }))
    let k (n dev : Nat) := rennetKey (s n dev) 0 0 0 (ctxWord (s n dev) 0 384 + BitVec.ofNat 64 (32 * 3)) 32
    let e (n dev : Nat) := readNat (k n dev).2 0x10E060 32
    let f : BitVec 16 × Nat × Nat × Word := (9, 0x109000, 0x108000, 0x8000)
    let r := (instanceOf 0 (header 1 2 3 1 5) fun o => { o with value := 9 }).setTower 0 { (s 1 7).tower 0 with forwarded := [f] }
    (s 1 7).now.data = [] ∧ findArmed (s 1 7) (s 1 7).now.value.toNat = some (0, someArmed) ∧ nGroup (readRecord (s 1 7) 0x108000) = 3 ∧
    gives (k 1 7).1 0x10E060 = true ∧ (∀ n ∈ [0, 1, 8, 9], e n 7 / 2 ^ 252 = n) ∧ sget 0 ((k 1 7).2.tower 0).podPos 3 % 1 = 0 ∧
    e 1 7 / 2 ^ 8 % 2 ^ 16 = ownId (k 1 7).2 ∧ e 1 8 / 2 ^ 8 % 2 ^ 16 ≠ ownId (k 1 8).2 ∧ towerNo (e 1 7 / 2 ^ (24 * 0) % 4) = 2 ∧
    (k 1 7).2.hub.ready.getLsbD (40 + 2) = true ∧ (ctxTowers (k 1 7).2 0).getLsbD 2 = true ∧ Memory.wf (k 1 7).2.mem = true ∧
    ((k 1 7).2.tower 2).ready.length < 4096 ∧ swf 0 ((k 1 7).2.tower 0).podPos = true ∧ r.now.extra ≠ 1 ∧
    ((r.tower 0).forwarded.find? fun f => f.1 = BitVec.ofNat 16 r.now.value.toNat) = some f ∧
    ((r.tower 0).armed.find? fun a => a.hdrKey = f.2.1) = some someArmed ∧ r.now.addr = 0 ∧
    ({ r with now := { r.now with addr := 0x1102 } } : State).now.addr ≠ 0 := by decide +kernel

/-! ### Bundles, faults and yields -/

/-- Core 0 runs from 0x1000, with that word there and no bundle in progress. -/
def running (word : Nat) : State :=
  let s := runs false (withBytes 0x101000 word 32 (withBytes 0x10A020 (0x3000 * 2 ^ 128 + 0x2000 * 2 ^ 64 + 0x1000) 32 (withBytes 0x10A000 1 8 (current base))))
  { s.setMe { s.me with current := none, pc := 0x1000 } with hub := { s.hub with ready := 0xFFFFFFFFFFFFFFFF } }

/-- Whether a fetch has brought that word. -/
def fetchedWord (f : Fetched) (w : BitVec 256) : Bool :=
  match f with
  | .ok x => x == w
  | _ => false

/-- A bundle of a.movi s9 with a reserved word in slot 2 or without, and a pc without translation. -/
theorem witness_bundleEntry :
    let word (bad : Nat) : Nat := (0x28480003 * 2 ^ 32 + bad * 2 ^ 64) + 2 ^ 31
    let s (bad : Nat) := running (word bad)
    let far := (s 0).setMe { (s 0).me with pc := 0x50000 }
    let looped := (onRegs (s 0) fun r => { r with ldep := 1, lcnt := r.lcnt.set 0 (mkLcnt 2 false 0 62 2), ladd := r.ladd.set 0 0x1000 }).me
    let odd := (s 0).setTower 0 { (s 0).tower 0 with tiles := [⟨0, 0, 0, 0, 0, frameEntry 0x100000010⟩] }
    (s 0).me.run = some (someRun false) ∧ (s 0).me.current = none ∧ detCore (s 0) 0 = false ∧
    fetchedWord (nextBundle (s 0) 0).1 (BitVec.ofNat 256 (word 0)) = true ∧ fetchedWord (nextBundle (s 0x7FFFFFFF) 0).1 (BitVec.ofNat 256 (word 0x7FFFFFFF)) = true ∧
    bufferedBundle ((s 0).core 0) ((s 0).core 0).pc = none ∧
    (decodeBundle (BitVec.ofNat 256 (word 0))).toBool = true ∧ (decodeBundle (BitVec.ofNat 256 (word 0x7FFFFFFF))).toBool = false ∧
    (match (nextBundle far far.now.core).1 with | .miss => true | _ => false) = true ∧
    (match (nextBundle odd odd.now.core).1 with | .fault _ => true | _ => false) = true ∧
    bufferedBundle { looped with loopBuf := some { first := 0x1000, off := false, words := [(0x1000, 5)] } } 0x1000 = some 5 := by decide +kernel

/-- Bundles that commit with a branch taken, without one, and with a hold; a result whose distance is over. -/
theorem witness_commits :
    let s (cur : Current) : State := let x := running 0
      x.setMe { x.me with current := some cur }
    let taken := { openBundle with taken := true, next := 0x2000 }
    let bracketed := { openBundle with bracketed := true, bundle := { emptyBundle with slots := List.replicate 7 none ++ [some (Instr.eCpop { d := 5, a := 0, b := 0, g := 0 })] } }
    let landing : State := onRegs (running 0) fun r => { r with fly := [{ slot := 1, reg := some (.s 9), value := 7, rem := 0, bc := false }] }
    (s taken).me.current = some taken ∧ (s taken).me.run = some (someRun false) ∧ taken.crWrites = [] ∧ taken.pops = [] ∧ taken.acquire = false ∧ taken.ending = .goOn ∧
    (s taken).me.displace = none ∧ (s taken).me.stats = [] ∧ openBundle.taken = false ∧ openBundle.next = openBundle.pc + 32 ∧ (s openBundle).me.regs.ldep = 0 ∧
    openBundle.bracketed = false ∧ bracketed.bracketed = true ∧
    landing.me.regs.fly = [{ slot := 1, reg := some (.s 9), value := 7, rem := 0, bc := false }] ∧ RegRef.constant (.s 9) = false ∧ (7 : Vec).toNat < 2 ^ 64 ∧
    (running 0).me.gate = [] := by decide +kernel

/-- Stamps that are due, ahead by the most, and past by one. -/
theorem witness_stamps :
    let cur (st : BitVec 31) : Current := { openBundle with stampWait := true, bundle := { emptyBundle with stamp := some st } }
    let s (st : BitVec 31) : State := let x := running 0
      x.setMe { x.me with current := some (cur st) }
    let d (st : BitVec 31) : Nat := (st.toNat + 2 ^ 31 - (schedClock (s st) (s st).now.core).toNat % 2 ^ 31) % 2 ^ 31
    (s 5).me.current = some (cur 5) ∧ (cur 5).stampWait = true ∧ (cur 5).bundle.stamp = some 5 ∧ d 0 = 0 ∧ d 0x3FFFFFFF = 2 ^ 30 - 1 ∧ 2 ^ 30 ≤ d 0x7FFFFFFF ∧
    (s 5).me.regs.fly = [] := by decide +kernel

/-- A bundle with faults of slots 2 and 7, of the codes that INFO goes with and of the others. -/
theorem witness_preciseFaults :
    let cur : Current := { openBundle with faults := [(7, 0x0110, 0), (2, 0x1102, 0x50000)] }
    let s : State := let x := running 0
      x.setMe { x.me with current := some cur }
    Memory.wf s.mem = true ∧ s.me.run = some (someRun false) ∧ (someRun false).launch.det = false ∧ s.me.current = some cur ∧ (2, 0x1102, 0x50000) ∈ cur.faults ∧
    (cur.faults.all fun y => decide (y.1 = 2 → y = (2, 0x1102, 0x50000)) && decide (2 ≤ y.1.val)) = true ∧ cur.pc.toNat % 32 = 0 ∧ s.me.stats.length ≤ 32 ∧ s.me.regs.fly = [] ∧
    cur.pre.fly = [] ∧ s.me.gate = [] ∧ s.me.replay = [] ∧ (s.tower (towerOf s.now.core)).queries = [] ∧ cur.pops = [] ∧ s.me.results = [] ∧ s.me.rows = [] ∧
    s.me.gidx = [] ∧ Claims.engineIdle s ∧ s.me.mat.group = none ∧ (0x1102 : Code).toNat / 2 ^ 12 = 1 ∧ (0x0110 : Code).toNat / 2 ^ 12 ≠ 1 ∧
    someArmed.hdrKey + 64 ≤ 0x10C000 := by
  simp only [Claims.engineIdle]; decide +kernel

/-- A yield point at 0x1000, with the registers that a forced save takes at their bounds. -/
theorem witness_yields :
    let s : State := { running 0 with now := { onCore 0 with addr := 0x1000 } }
    let h := readHead s 0x110000
    coreYield s s.now.core s.now.addr = some { save := 0x2000, rest := 0x3000 } ∧ s.me.run = some (someRun false) ∧ s.me.seqMode = .none ∧ s.me.current = none ∧
    (∀ n ∈ [0, 2, 3, 4, 5], ({ s with now := { s.now with unit := n } } : State).now.unit < 7) ∧
    s.me.stats.length ≤ 32 ∧ s.me.regs.fly.length ≤ 64 ∧ ([] : List (Push × Nat)).length ≤ 128 ∧ s.me.gate = [] ∧ s.me.mat.passes = [] ∧
    (onMat s fun m => { m with passes := [somePass false false] }).me.mat.passes ≠ [] ∧ s.me.results.length ≤ 16 ∧ s.me.rows.length ≤ 16 ∧ s.me.gidx.length ≤ 64 ∧
    h.res.toNat % 32 = 0 ∧ h.skind < 16 ∧ h.wkind < 2 ^ 8 ∧ Memory.wf s.mem = true ∧
    (s.setMe { s.me with seqMode := .save 3 }).me.seqMode ≠ .none := by decide +kernel

/-! ### Beneath the programs -/

theorem witness_slicesAndPoison :
    let s : State := { (base.setTower 0 { base.tower 0 with retired := 0x80000000 }) with now := { onTower 0 with unit := 31 } }
    let p := poisonRange base 0x1007 2 0x2012
    (s.tower s.now.tower).retired.getLsbD (s.now.unit % 32) = true ∧ (base.tower 0).retired.getLsbD 31 = false ∧
    swf (0 : Code) base.poison = true ∧ swf (0 : Code) p.poison = true ∧ p.poison ≠ [] ∧ (0x2012 : Code) ≠ 0 ∧
    poisonOf p 0x1000 8 ≠ none ∧ poisonOf p 0x1010 8 = none ∧ poisonOf p 0xFF8 8 = none := by decide +kernel

/-- Errors of every event; rows with parity, without it, and with a failed tier. -/
theorem witness_softErrors :
    let s (u : Nat) (a : Word) : State := { base with now := { onCore 0 with unit := u, addr := a } }
    let without (s : State) := s.setTower (rowTower s.now.addr.toNat) { s.tower (rowTower s.now.addr.toNat) with tiers := { (s.tower (rowTower s.now.addr.toNat)).tiers with parity := 7 } }
    let failed (s : State) := s.setTower (rowTower s.now.addr.toNat) { s.tower (rowTower s.now.addr.toNat) with tiers := { (s.tower (rowTower s.now.addr.toNat)).tiers with failed := some 2 } }
    let row : Word := BitVec.ofNat 64 (2 ^ 44 - 512)
    (s 7 row).now.addr.toNat < 2 ^ 44 ∧ ¬ (s 7 0x100000000000).now.addr.toNat < 2 ^ 44 ∧
    ((s 7 row).tower (rowTower row.toNat)).tiers.parity ≠ 7 ∧ ((s 7 row).tower (rowTower row.toNat)).tiers.failed = none ∧
    ((without (s 7 row)).tower (rowTower row.toNat)).tiers.parity = 7 ∧ ((failed (s 7 row)).tower (rowTower row.toNat)).tiers.failed ≠ none ∧
    (s 10 5).now.unit = 10 ∧ 8 < (s 9 5).now.unit ∧ (s 9 5).now.unit ≠ 10 ∧ swf false (s 9 5).badLanes = true := by decide +kernel

/-- The reset tier map with parity A4: the next parity tier is at K position 3; a copy made, and a pass in flight. -/
theorem witness_parityRotation :
    let s : State := base.setTower 0 { base.tower 0 with tiers := { (base.tower 0).tiers with rotating := true } }
    let w := (s.tower 0).tiers
    let busy := onMat s fun m => { m with passes := [somePass false false] }
    w.parity ≠ 7 ∧ w.failed = none ∧ w.down = 0 ∧ w.rotating = true ∧ (base.tower 0).tiers.rotating = false ∧
    (∀ c, towerOf c = 0 → (s.core c).mat.passes = [] ∧ detCore s c = false) ∧ (busy.core 0).mat.passes ≠ [] ∧
    BitVec.ofNat 3 ((w.parity.toNat + 1) % 5) = w.map.get 3 ∧ (∀ j, w.map.get j = w.map.get 3 → j = 3) := by decide +kernel

/-- Readings: tower 0 with one tier at 112, tower 1 with two, tower 2 at 111; then tier 4 of tower 1, its parity tier, and tier 0, a compute tier, at 125. -/
theorem witness_heat :
    let s (bs : List Nat) : State := { base with now := { onTower 0 with data := bs.map (BitVec.ofNat 8) } }
    let warm := s ([112, 104, 0, 0, 0] ++ [112, 124, 0, 0, 0] ++ [111, 111, 111, 111, 111] ++ [0, 0, 0, 0, 0])
    let hot (p : Nat) := s ((List.range 20).map fun i => if i = 5 + p then 125 else 104)
    let skipping : State := base.setTower 0 { base.tower 0 with tiers := { (base.tower 0).tiers with skip := some 1 } }
    (∀ c, detCore warm c = false) ∧ (∀ t, ∀ a ∈ (warm.tower t).armed, a.launch.det = false) ∧ (∀ t, (warm.tower t).tiers.failed = none ∧ (warm.tower t).tiers.down = 0) ∧
    (∀ t : TowerId, ∀ p, p < 5 → Claims.reads warm t p < 125) ∧ Claims.hotTiers warm 0 = 1 ∧ Claims.hotTiers warm 1 = 2 ∧ Claims.hotTiers warm 2 = 0 ∧
    (skipping.tower 0).tiers.skip = some 1 ∧ Claims.reads warm 0 1 = 104 ∧ (warm.tower 0).tiers.skip = none ∧
    (∀ p0 ∈ [0, 4], 125 ≤ Claims.reads (hot p0) 1 p0 ∧ (∀ t : TowerId, ∀ p, p < 5 → (t, p) ≠ (1, p0) → Claims.reads (hot p0) t p < 105)) ∧
    (∀ t, ((hot 0).tower t).tiers.skip = none) ∧ (∀ c, towerOf c = 1 → ((hot 0).core c).mat.passes = []) ∧
    (∃ i : Fin 4, ((hot 0).tower 1).tiers.map.get i = BitVec.ofNat 3 0) ∧ ((hot 0).tower 1).tiers.parity ≠ 7 ∧
    (¬ ∃ i : Fin 4, ((hot 4).tower 1).tiers.map.get i = BitVec.ofNat 3 4) ∧ ((hot 4).tower 1).tiers.parity = BitVec.ofNat 3 4 := by decide +kernel

/-- With that READY, identifier, and occasion. -/
def readyFor (r dev : Word) (n : Nat) (data : List Byte) : State :=
  { base with hub := { base.hub with ready := r, devid := dev }, now := { Occasion.none with unit := n, data := data } }

theorem readyFor_ready (r dev : Word) (n : Nat) (data : List Byte) : (readyFor r dev n data).hub.ready = r := rfl
theorem readyFor_devid (r dev : Word) (n : Nat) (data : List Byte) : (readyFor r dev n data).hub.devid = dev := rfl

/-- Bits of READY: FW first of all; a calibration bit with and without its tower's L2; a Gengilon port without an identifier; DRAM, WALK, HUBCH, CXL and PTIME; values that come with a bit. -/
theorem witness_readiness :
    (Claims.required base 45 ∧ ¬ Claims.required (readyFor 0 0 19 []) 19 ∧ Claims.required (readyFor 0x800000000 0 19 []) 19 ∧
      ¬ Claims.required (readyFor 0x200000000000 0xFFFF 48 []) 48 ∧ Claims.required (readyFor 0x200000000000 7 63 []) 63 ∧
      Claims.required (readyFor 0 0x2FFFF 47 []) 47 ∧ ¬ Claims.required (readyFor 0 7 47 []) 47 ∧ Claims.required (readyFor 0x8000000000000000 7 47 []) 47 ∧
      Claims.required (readyFor 0x200000000000 0 32 []) 32 ∧ Claims.required (readyFor 0x10100000 0 36 []) 36 ∧
      Claims.required (readyFor 0x200000800000 0 44 []) 44 ∧ Claims.required (readyFor 0x200000000000 0 46 []) 46 ∧ Claims.required (readyFor 0x200000000 0 29 []) 29) ∧
    (readyFor 0 0 45 []).hub.ready.getLsbD 45 = false ∧ (readyFor 0x200000000000 0 45 []).hub.ready.getLsbD 45 = true ∧
    (readyFor 0 0 32 [3, 2, 1, 0, 4]).now.data.length = 5 ∧ (∀ p, p < 5 → BitVec.ofNat 8 p ∈ (readyFor 0 0 32 [3, 2, 1, 0, 4]).now.data) ∧
    0 < (readyFor 0 0 36 [0]).now.data.length ∧ (readyFor 0 0 36 [0]).now.data.length ≤ 65536 := by
  refine ⟨⟨?_, ?_, ?_, ?_, ?_, ?_, ?_, ?_, ?_, ?_, ?_, ?_, ?_⟩, by decide +kernel⟩
  · show base.hub.fwstat = 0; decide +kernel
  · simp [Claims.required, readyFor_ready]
  · simp [Claims.required, readyFor_ready]
  · simp [Claims.required, readyFor_ready, readyFor_devid]
  · simp [Claims.required, readyFor_ready, readyFor_devid]
  · simp [Claims.required, readyFor_ready, readyFor_devid]
  · simp [Claims.required, readyFor_ready, readyFor_devid]
  · simp only [Claims.required, readyFor_ready, readyFor_devid]; exact .inr ⟨15, by decide, by decide⟩
  · simp [Claims.required, readyFor_ready]
  · simp [Claims.required, readyFor_ready]
  · simp only [Claims.required, readyFor_ready]; exact ⟨by decide, 3, by decide, by decide⟩
  · simp [Claims.required, readyFor_ready]
  · simp [Claims.required, readyFor_ready]

theorem witness_reset :
    Memory.wf base.mem = true ∧ base.now.value = 0 ∧ ({ base with now := { base.now with value := 0x101 } } : State).now.value ≠ 0 := by decide +kernel

/-! ### Links and lockstep -/

/-- A packet of class cls from source to device dst for queue q, with len units of payload. -/
def somePacket (dst src q cls len : Nat) (unit : Bool) (stamp : Word) : Packet :=
  { hdr := mkHeader { dst := dst, drq := q, unit := unit, sep := 3, cls := cls, len := len, tag := 0, ctx := 0, gen := 0 } stamp 5 src,
    pay := List.replicate (32 * len) 1 }

/-- Device 7 with every unit ready, port 1 in the domain and up, with that retry buffer. -/
def linked (retry : List Flit) (o : Occasion) : State :=
  let s : State := { current base with hub := { (current base).hub with ready := 0xFFFFFFFFFFFFFFFF, devid := 0x20007, domain := 2, podTime := 1000 }, clk := 5000, now := o }
  s.setPort 1 { s.port 1 with up := true, retry := retry, iw := 900, hasIw := true, replayed := 9, replays := 7 }

/-- A flit with link sequence n. -/
def someFlit (n : BitVec 12) : Flit := { seq := n, ack := 0, wm := 0, credits := 0, chan := 0, packet := none, part := 0 }

/-- Device 7 whose port on a route holds packets, in channel 4 of it, and has as many free buffers as given. -/
def holding (o : Nat) (ps : List Packet) (free : Word) : State :=
  let s := linked [] Occasion.none
  s.setPort o { s.port o with waiting := ps.map fun p => (p, 0, 4), credits := free }

/-- Headers at their bounds; a port without buffers; a flow that its port still holds, one that no port holds, with a dynamic channel free and without. -/
theorem witness_headersAndPackets (o : Fin 16) :
    let q := somePacket 8 7 3 0 1 false 0
    let p (ps : List Packet) (free : Word) := (holding o ps free).port o
    ((p [] 0).waiting = [] ∧ creditsOf (p [] 0).credits 4 = 0 ∧ (heldPackets (p [q] 1)).any (fun x => sameFlow x.1 q) = true) ∧
    ((heldPackets (p [] 1)).all (fun x => !sameFlow x.1 q && x.2 ≠ 5) = true ∧ 0 < creditsOf (p [] 1).credits 0 ∧ ¬ 0 < creditsOf (p [] 0).credits 0) := by
  revert o; decide +kernel

theorem witness_headers :
    (0xFFFF : Nat) < 2 ^ 16 ∧ 255 < 2 ^ 8 ∧ 7 < 2 ^ 3 ∧ (19 : Nat) < 20 ∧ ((linked [] Occasion.none).port 1).retry.length ≤ 256 := by decide +kernel

/-- An output that rises to IW of its domain, one that stands because pod time is lost; beacons from an output that is quiet and one that is not. -/
theorem witness_watermarks :
    let s := linked [someFlit 9] { Occasion.none with unit := 1 }
    let lost : State := { s with hub := { s.hub with ready := 0 } }
    let full := linked (List.replicate 256 (someFlit 9)) { Occasion.none with unit := 1 }
    watermark s 1 = 900 ∧ (s.port 1).lastW = 0 ∧ lost.hub.ready.getLsbD 47 = false ∧ s.hub.ready.getLsbD 47 = true ∧
    ((s.port 1).up = true ∧ (s.port 1).lastSent + 500 ≤ s.clk ∧ (s.port 1).retry.length < 256) ∧ ¬ (full.port 1).retry.length < 256 ∧ (base.port 1).up = false := by
  decide +kernel

/-- A flit of port 1 with link sequence, acknowledgement, watermark and packet bytes, on channel 4. -/
def arriving (seq ack wm : Nat) (bytes : List Byte) (value : Word) : State :=
  linked [someFlit 8, someFlit 9] { Occasion.none with
    unit := 1, value := value, extra := 0x400, data := leBytes 16 (seq + ack * 2 ^ 12 + wm * 2 ^ 24 + 2 ^ 64) ++ bytes }

/-- Flits that are next, damaged, and out of sequence; without a buffer and with a full reorder buffer; with a watermark below IW and at it; that acknowledge the second flit of two and none; NAKs
and the eighth replay. -/
theorem witness_flits :
    let s := arriving 0 9 900 [] 0
    let h (s : State) := leNat (s.now.data.take 16)
    let full : State := { s with hub := { s.hub with inbound := [{ port := 1, chan := 0, flits := 976, since := 0, told := false, packet := somePacket 7 8 3 0 1 false 0 }] } }
    let ordered := somePacket 7 8 3 2 1 false 950
    let wire := leBytes 32 ordered.hdr.toNat ++ ordered.pay
    let crowd : State := let x := arriving 0 9 900 wire 0
      { x with hub := { x.hub with reorder := List.replicate 2048 ordered } }
    let later := s.setPort 1 { s.port 1 with part := [(4, [1, 2])] }
    (s.port 1).up = true ∧ (base.port 1).up = false ∧ s.now.value.getLsbD 0 = false ∧ (arriving 0 9 900 [] 1).now.value.getLsbD 0 = true ∧
    h s % 2 ^ 12 = (s.port 1).rxSeq.toNat ∧ h (arriving 1 9 900 [] 0) % 2 ^ 12 ≠ (s.port 1).rxSeq.toNat ∧
    noFlitRoom s 1 (arrival s 1) = false ∧ noOrderedRoom s (arrival s 1).packets = false ∧
    noFlitRoom { full with now := (arriving 0 9 900 [1] 0).now } 1 (arrival (arriving 0 9 900 [1] 0) 1) = true ∧ noOrderedRoom crowd (arrival crowd 1).packets = true ∧
    (s.port 1).waiting = [] ∧ extendMark s (BitVec.ofNat 40 (h s / 2 ^ 24)) = 900 ∧ (s.port 1).iw ≤ 900 ∧ (s.port 1).hasIw = true ∧
    extendMark (arriving 0 9 899 [] 0) (BitVec.ofNat 40 (h (arriving 0 9 899 [] 0) / 2 ^ 24)) < (s.port 1).iw ∧
    ((s.port 1).retry = [someFlit 8] ++ someFlit 9 :: [] ∧ (someFlit 9).seq.toNat = h s / 2 ^ 12 % 2 ^ 12 ∧ ∀ g ∈ [someFlit 8], g.seq ≠ (someFlit 9).seq) ∧
    (∀ f ∈ (s.port 1).retry, f.seq.toNat ≠ h (arriving 0 7 900 [] 0) / 2 ^ 12 % 2 ^ 12) ∧ (arrival (arriving 0 9 900 [1] 0) 1).rest ≠ [] ∧
    (((later.port 1).part.find? fun e => e.1 = (arrival later 1).chan).map Prod.snd = some [1, 2] ∧ ∀ e ∈ (s.port 1).part, e.1 ≠ (arrival s 1).chan) ∧
    ordered.pay.length = 32 * pLen ordered.hdr ∧ 63 < wire.length := by decide +kernel

/-- NAKs that name a flit and none, the eighth replay, and one of an ordered packet of this device. -/
theorem witness_naks :
    let q := somePacket 8 7 3 2 1 false 950
    let f : Flit := { someFlit 9 with packet := some q }
    let s (value : Word) := linked [someFlit 8, f] { Occasion.none with unit := 1, value := value }
    ((s 9).port 1).up = true ∧ (∃ f ∈ ((s 9).port 1).retry, f.seq.toNat = (s 9).now.value.toNat % 2 ^ 12) ∧ (¬ ∃ f ∈ ((s 7).port 1).retry, f.seq.toNat = 7) ∧
    ((s 9).port 1).replays ≠ 0 ∧ ((s 9).port 1).replayed.toNat = 9 ∧ 8 ≤ ((s 9).port 1).replays + 1 ∧
    (∀ f ∈ ((s 9).port 1).retry, ∀ y, f.packet = some y → pSep y.hdr ≠ 4) ∧ (s 0x1009).now.value.getLsbD 12 = true ∧
    ((s 0x1009).port 1).retry.find? (fun f => f.seq.toNat = 9) = some f ∧ pCls q.hdr = 2 ∧ pSrc q.hdr = (s 9).hub.devid.toNat % 2 ^ 16 ∧ pSep q.hdr < 128 := by
  refine ⟨by decide +kernel, by decide +kernel, by decide +kernel, by decide +kernel, by decide +kernel, by decide +kernel, ?_, by decide +kernel⟩
  intro f hf y hy
  have h : f = someFlit 8 ∨ f = { someFlit 9 with packet := some (somePacket 8 7 3 2 1 false 950) } := by
    simpa [linked, State.setPort, State.port, State.mapHub] using hf
  rcases h with rfl | rfl
  · cases hy
  · obtain rfl := Option.some.inj hy; decide +kernel

/-- Packets for this device and another, of an ordered class with a stamp at D and below it, and as a broadcast; of a circuit in time and late. -/
theorem witness_packets :
    let s := linked [] { Occasion.none with addr := 999 }
    let q (dst cls : Nat) (stamp : Word) := somePacket dst 8 3 cls 0 false stamp
    s.hub.devid.toNat % 2 ^ 16 = 7 ∧ pCls (q 8 0 0).hdr ≠ 2 ∧ ¬ (pCls (q 8 0 0).hdr = 5 ∧ pDst (q 8 0 0).hdr = 7) ∧
    (pDst (q 7 5 0).hdr = 7 ∧ pCls (q 7 5 0).hdr = 5) ∧ s.now.addr < s.hub.podTime ∧ deliveryMark s = 900 ∧ s.hub.dmark = 0 ∧
    ¬ pStamp (q 7 2 900).hdr < deliveryMark s ∧ pStamp (q 7 2 899).hdr < deliveryMark s ∧ (pDst (q 8 2 0).hdr ≠ 7 ∧ pDst (q 8 2 0).hdr ≠ 0xFFFF) ∧
    pDst (q 0xFFFF 2 0).hdr = 0xFFFF ∧ s.hub.domain.getLsbD 1 = true := by decide +kernel

/-- Ports that are up and down and may train; a domain port whose watermark has stalled; slewing at its interval. -/
theorem witness_portsAndTime :
    let s := linked [] { Occasion.none with unit := 1, value := 1 }
    let t : State := { (s.setPort 1 { s.port 1 with up := false }) with now := { Occasion.none with unit := 1 } }
    let early : State := { s with hub := { s.hub with slewClk := 905 } }
    (s.port 1).up = true ∧ (t.port 1).up = false ∧ Claims.required t 49 ∧ ¬ Claims.required base 49 ∧
    (s.hub.domain.getLsbD 1 = true ∧ (s.port 1).stalled = false ∧ (s.port 1).lastAccepted + 2000 ≤ s.clk) ∧ base.hub.domain.getLsbD 1 = false ∧
    s.hub.slewClk + 4096 ≤ s.clk ∧ s.now.value = 1 ∧ t.now.value ≠ 1 ∧ early.clk < early.hub.slewClk + 4096 ∧
    (let y : InPacket := { port := 19, chan := 0, flits := 1, since := 0, told := false, packet := somePacket 8 9 3 0 1 false 0 }
     let held : State := { base with hub := { base.hub with inbound := [{ y with port := 20 }, y] }, clk := 2 ^ 20 }
     held.hub.inbound = [{ y with port := 20 }] ++ y :: [] ∧ (y.told = false ∧ y.port < 20 ∧ y.since + 2 ^ 20 ≤ held.clk) ∧ ¬ (20 : Nat) < 20) := by
  refine ⟨by decide +kernel, by decide +kernel, ?_, ?_, by decide +kernel⟩
  · refine ⟨?_, ?_⟩ <;> decide +kernel
  · rintro ⟨h, -⟩; revert h; decide +kernel

/-- Which of its three answers a ring gives. -/
def ringAnswer (r : RingWrite) : Nat :=
  match r with
  | .written _ => 0
  | .full _ => 1
  | .discarded _ => 2

/-- With receive queue 3 at 0x4000 of page 0 with 64-byte slots, as many as given, and that many of them taken. -/
def ringed (s : State) (nlog tail : Nat) : State :=
  withBytes (recvKey s 3) (0x4000 / 64 * 2 ^ 198 + 6 * 2 ^ 164 + nlog * 2 ^ 160 + 2 ^ 128 + tail * 2 ^ 96) 32 s

/-- A receive-queue table off the context table's frames. -/
def linkedRings : State := let s := linked [] Occasion.none
  { s with hub := { s.hub with rqtb := 0x40000 } }

/-- Rings with room, full, too small for the packet, and of no queue; a packet whose slot is the last of the ring. -/
theorem witness_rings_of_packets :
    let p := somePacket 7 8 3 0 1 false 0
    let s (nlog tail : Nat) := ringed linkedRings nlog tail
    let v := ctxView (s 1 1) (lowTower (s 1 1) 0) 0 0
    (Claims.ringOpen (s 1 1) p ∧ ¬ Claims.ringOpen (s 1 1) (somePacket 7 8 3 0 2 false 0) ∧ ¬ Claims.ringOpen linkedRings p) ∧
    ringAnswer (ringWrite (s 1 1) p) = 0 ∧ ringAnswer (ringWrite (s 1 2) p) = 1 ∧ ringAnswer (ringWrite linkedRings p) = 2 ∧
    recvCount (s 1 1) 3 < 2 ^ 1 ∧ 2 ^ 1 ≤ recvCount (s 1 2) 3 ∧ recvTail (s 1 1) 3 % 2 ^ 1 = 1 ∧
    (writeUnits v 0x4040 (packetUnits p) (s 1 1)).isSome = true ∧ gives (flatKeyOf (s 1 1) v 0x4040).1 0x104040 = true ∧
    Memory.wf (s 1 2).mem = true ∧ p.pay.length = 32 * pLen p.hdr := by
  simp only [Claims.ringOpen]; decide +kernel

/-- One packet that waits: for another device, of another device, of this one, behind one that was refused, and for a Rennet. -/
theorem witness_waitingPackets :
    let y (p : Packet) : InPacket := { port := 1, chan := 4, flits := 1, since := 0, told := false, packet := p }
    let s (p : Packet) (tail : Nat) (refused : List (BitVec 256)) : State := let s := ringed linkedRings 1 tail
      { s with hub := { s.hub with inbound := [y p], refused := refused } }
    let out := somePacket 8 9 3 0 1 false 0
    let far := somePacket 7 8 3 0 1 false 0
    let own := somePacket 7 7 3 0 1 false 0
    let pod := somePacket 7 8 3 0 2 true 0
    (s far 1 []).hub.inbound = [y far] ∧ (s far 1 []).hub.refused = [] ∧ pDst out.hdr ≠ 7 ∧ pDst far.hdr = 7 ∧ pUnit far.hdr = false ∧ pSrc far.hdr ≠ 7 ∧
    pSrc own.hdr = 7 ∧ pDst own.hdr = 7 ∧ ringAnswer (ringWrite (s far 1 []) far) = 0 ∧ ringAnswer (ringWrite (s far 2 []) far) = 1 ∧ ringAnswer (ringWrite (s own 2 []) own) = 1 ∧
    pSep own.hdr < 128 ∧ (pUnit pod.hdr = true ∧ pDst pod.hdr = 7 ∧ pDrq pod.hdr < 4) := by decide +kernel

/-- An earlier packet of the flow that was refused; an output with room. -/
theorem witness_refusedFlow :
    let h := mkHeader { dst := 7, drq := 3, unit := false, sep := 3, cls := 0, len := 1, tag := 0, ctx := 0, gen := 0 } 0 4 8
    let far := somePacket 7 8 3 0 1 false 0
    sameFlow { hdr := h, pay := [] } far = true ∧ pSeq h ≠ pSeq far.hdr ∧ ∀ x : Fin 16, (linkedRings.port x).waiting.length < 256 := by decide +kernel

/-- An output on which 256 parts wait. -/
theorem witness_fullOutput : ∀ o : Fin 16, 256 ≤ ((holding o (List.replicate 256 (somePacket 8 9 3 0 1 false 0)) 0).port o).waiting.length := by
  decide +kernel

/-- Ordered packets at D and below it, two with one stamp, and one for a Rennet. -/
theorem witness_orderedDelivery :
    let p (stamp : Word) (src : Nat) := somePacket 7 src 3 2 1 false stamp
    let s (ps : List Packet) (tail : Nat) : State := let s := ringed linkedRings 1 tail
      { s with hub := { s.hub with reorder := ps } }
    deliveryMark linkedRings = 900 ∧ nextOrdered (s [p 899 9, p 899 8] 1) = some (p 899 8) ∧ nextOrdered (s [p 900 9] 1) = none ∧
    (∀ q ∈ (s [p 900 9] 1).hub.reorder, ¬ pStamp q.hdr < deliveryMark (s [p 900 9] 1)) ∧ pUnit (p 899 8).hdr = false ∧
    ringAnswer (ringWrite (s [p 899 8] 1) (p 899 8)) = 0 ∧ ringAnswer (ringWrite (s [p 899 8] 2) (p 899 8)) = 1 ∧
    (s [] 1).hub.ringFull = false ∧ ({ s [] 1 with hub := { (s [] 1).hub with ringFull := true } } : State).hub.ringFull = true := by decide +kernel

/-- Broadcasts, packets for this device and for another that wait for a stamp; circuits before their slot and in it, delivered in time, late, and refused. -/
theorem witness_injectionAndCircuits :
    let q (dst : Nat) := somePacket dst 7 3 2 1 false 0
    let s (dst : Nat) : State := { linkedRings with hub := { linkedRings.hub with inject := [q dst] } }
    let x (dst src start : Nat) (due : Word) : Circuit := { slot := 255, start := start, due := due, late := decide (due = 0), packet := somePacket dst src 3 5 1 false 0 }
    let c (x : Circuit) : State := { linkedRings with hub := { linkedRings.hub with circuits := [x] } }
    let a (x : Circuit) (tail : Nat) : State := let s := ringed linkedRings 1 tail
      { s with hub := { s.hub with arrived := [x] } }
    (s 0xFFFF).hub.inject = q 0xFFFF :: [] ∧ pDst (q 0xFFFF).hdr = 0xFFFF ∧ pDst (q 7).hdr = 7 ∧ pDst (q 8).hdr ≠ 7 ∧ (s 8).hub.ready.getLsbD 47 = true ∧
    (c (x 8 7 1001 0)).hub.podTime.toNat < (x 8 7 1001 0).start ∧ (x 8 7 1000 0).start ≤ (c (x 8 7 1000 0)).hub.podTime.toNat ∧
    pDst (x 7 7 1000 0).packet.hdr = 7 ∧ pDst (x 8 7 1000 0).packet.hdr ≠ 7 ∧
    (a (x 7 8 0 1001) 1).hub.podTime < (x 7 8 0 1001).due ∧ (x 7 8 0 1000).due ≤ (a (x 7 8 0 1000) 1).hub.podTime ∧
    ringAnswer (ringWrite { a (x 7 8 0 0) 1 with hub := { (a (x 7 8 0 0) 1).hub with arrived := [] } } (x 7 8 0 0).packet) = 0 ∧ (x 7 8 0 0).late = true ∧
    (x 7 8 0 1000).late = false ∧ ringAnswer (ringWrite { a (x 7 7 0 0) 2 with hub := { (a (x 7 7 0 0) 2).hub with arrived := [] } } (x 7 7 0 0).packet) = 1 ∧
    ringAnswer (ringWrite linkedRings (x 7 8 0 0).packet) = 2 ∧ pSrc (x 7 7 0 0).packet.hdr = 7 ∧ pSrc (x 7 8 0 0).packet.hdr ≠ 7 := by decide +kernel

/-- A lockstep instance at the end of its first frame of 256 clk, with a record of it, before the end, and without an instance; signatures that are equal, different, of another device, and late. -/
theorem witness_lockstep :
    let l (own : List (Nat × Word)) : Lockstep :=
      { key := 0x109000, ctx := 0, gen := 0, launch := { det := true, lock := true, t0 := 1000, flen := 8, lpeer := 8, rbank := 0 }, records := [(5, 0, [1])],
        frame := 0, own := own, partner := [], last := none }
    let s (time : Word) (own : List (Nat × Word)) (v : Word) (u : Nat) (src : Word) : State :=
      { linkedRings with hub := { linkedRings.hub with podTime := time, lockstep := [l own] }, now := { Occasion.none with value := v, unit := u, addr := 1000, extra := src } }
    base.hub.lockstep = [] ∧ (s 0 [] 0 0 8).hub.lockstep = [l []] ∧ (l []).last = none ∧ (l []).partner = [] ∧
    ((l []).launch.t0 ≤ (s 1256 [] 0 0 8).hub.podTime ∧ (0 + 1) * 256 ≤ (s 1256 [] 0 0 8).hub.podTime.toNat - (l []).launch.t0.toNat) ∧
    ¬ ((0 + 1) * 256 ≤ (s 1255 [] 0 0 8).hub.podTime.toNat - (l []).launch.t0.toNat) ∧ ¬ (l []).launch.t0 ≤ (s 999 [] 0 0 8).hub.podTime ∧
    ((l []).partner.find? fun e => e.1 = 0) = none ∧ (l []).launch.lpeer.toNat ≠ (s 0 [] 0 0 8).hub.devid.toNat % 2 ^ 16 ∧
    ((l []).launch.lpeer.toNat = (s 0 [] 0 0 8).now.extra.toNat ∧ (l []).launch.t0 = (s 0 [] 0 0 8).now.addr) ∧ (l []).launch.lpeer.toNat ≠ (s 0 [] 0 0 9).now.extra.toNat ∧
    ((l []).own.find? fun e => e.1 = 3) = none ∧ (l [(3, 5)]).own = [((s 0 [(3, 5)] 5 3 8).now.unit, 5)] ∧ (s 0 [(3, 5)] 5 3 8).now.value = 5 ∧ (s 0 [(3, 5)] 6 3 8).now.value ≠ 5 ∧
    (0 + 1) * 256 + 256 + 8192 ≤ (s (1000 + 8704) [] 0 0 8).hub.podTime.toNat - (l []).launch.t0.toNat ∧
    ¬ (0 + 1) * 256 + 256 + 8192 ≤ (s (1000 + 8703) [] 0 0 8).hub.podTime.toNat - (l []).launch.t0.toNat := by decide +kernel

/-- Pod time with PTIME and without it, and an ordered send that waits for it. -/
theorem witness_drift :
    let e := windowEntry 0x18 { kind := 3, unit := 0, chan := 0 } 0 0
    let s := windowState e base
    base.hub.ready.getLsbD 47 = false ∧ linkedRings.hub.ready.getLsbD 47 = true ∧ s.hub.ready.getLsbD 47 = false ∧
    ((s.core 0).replay.find? fun x => x.dest = e.dest) = some e ∧ pushMajor e.push = 0x18 := by decide +kernel

/-! ### The host and the management space -/

/-- A load of core 0 from host memory, of an uncommitted bundle or of an earlier one; a channel's running copy; a walker's routine. -/
theorem witness_hostLink :
    let l (b : Word) : Load := { slot := 2, bundle := b, dst := 9, inv := false, mapv := 0, data := .element { tid := 0, tile := 0, tte := 0xB000000000000000 } 0 32 false }
    let s (ls : List Load) (x : Word) : State := { base.setMe { base.me with loads := ls } with now := { onCore 0 with extra := x } }
    let busy : State := let x := onChannel (copying (someTemplate 0 0)) fun c => { c with running := some (someCopy (someTemplate 0 0) .host false) }
      { x with now := { x.now with extra := 1 } }
    let w : State := { walking 0 0 (fun k => { k with running := true }) base with now := { onTower 0 with extra := 2 } }
    (s [] 0).now.extra = 0 ∧ (s [] 0).me.loads.find? hostLoad = none ∧ (s [l 0x1000] 0).me.loads.find? hostLoad = some (l 0x1000) ∧
    (s [l 0x1000] 0).me.current = some openBundle ∧ openBundle.pc = (l 0x1000).bundle ∧ openBundle.pc ≠ (l 0xFE0).bundle ∧
    busy.now.extra = 1 ∧ Dest4.ofCode busy.now.unit = someChannel ∧ (busy.churnChan someChannel).running = some (someCopy (someTemplate 0 0) .host false) ∧
    (someCopy (someTemplate 0 0) .host false).ended = false ∧ (base.churnChan (Dest4.ofCode 0)).running = none ∧ 2 ≤ w.now.extra.toNat ∧
    (w.tower w.now.tower).walker.running = true := by decide +kernel

/-- Accesses of the last bytes of a tower, read and written, of a frame that the host has given away and of one that it has not. -/
theorem witness_hostAccesses :
    let s (v : Word) (data : List Byte) : State := { base with now := { onTower 3 with addr := 0x11FFFFFFFE, value := v, data := data, extra := 2 } }
    let given (s : State) : State := { s with migrated := [((3 * 2 ^ 40 + 0x11FFFFFFFE) / 65536, true)] }
    let key := 3 * 2 ^ 40 + 0x11FFFFFFFE
    (∀ c ∈ ((s 0 []).tower 3).combine, c.key + 8 ≤ key ∨ key + 2 ≤ c.key) ∧ (flushRange (s 0 []) 3 key 2).migrated = [] ∧
    (flushRange (given (s 0 [])) 3 key 2).migrated = [(key / 65536, true)] ∧
    Memory.wf (s 0 []).mem = true ∧ (s 1 [5, 6]).now.data.length = 2 ∧ (s 0 []).now.extra.toNat = 2 ∧ (s 1 [5, 6]).now.addr.toNat + 2 ≤ 1179648 * 65536 ∧
    (s 0 []).now.value ≠ 1 ∧ (s 1 [5, 6]).now.value = 1 ∧
    (∃ e ∈ (given (s 0 [])).migrated, key / 65536 ≤ e.1 ∧ e.1 ≤ (key + 2 - 1) / 65536) ∧
    (¬ ∃ e ∈ (s 0 []).migrated, key / 65536 ≤ e.1 ∧ e.1 ≤ (key + 2 - 1) / 65536) := by decide +kernel

/-- A write of v at offset x, of 8 aligned bytes or not. -/
def written (x v extra : Word) (s : State) : State := { s with now := { Occasion.none with addr := x, value := v, extra := extra } }

/-- Accesses that are not aligned or not of 8 bytes; first and last registers of every row, and offsets between them. -/
theorem witness_managementWrites :
    let s (x : Word) := written x 0xFFFFFFFFFFFFFFFF 0 base
    (written 0x8 0 1 base).now.extra ≠ 0 ∧ (s 0xC).now.addr.toNat % 8 ≠ 0 ∧ Instr.domainWrite ∈ Claims.managementRows ∧ (s 0x8).now.extra = 0 ∧ (s 0x8).now.addr.toNat % 8 = 0 ∧
    swf (0 : BitVec 128) base.hub.ringv = true ∧
    (∀ x ∈ [0x8, 0x18, 0x100, 0x120, 0x140, 0x160, 0x500, 0x600, 0x610, 0x700, 0x718, 0xC00, 0xDF8, 0xE00, 0xE18, 0x1000, 0x1F70, 0x1FF0, 0x4000, 0x4FF8, 0x5100, 0x5118],
      (Claims.writableBits x).isSome = true) ∧
    (∀ x ∈ [0x0, 0x10, 0x20, 0x28, 0x128, 0x168, 0x608, 0x618, 0x720, 0xE20, 0x1078, 0x1FF8, 0x2000, 0x3000, 0x5000, 0x5120, 0x6020, 0x10000],
      Claims.writableBits x = none ∧ (∀ d, d < 48 → x ≠ 0x800 + 8 * d) ∧ ∀ i, i < 4 → x ≠ 0x6000 + 8 * i) ∧
    ((47 : Nat) < 48 ∧ (s 0x978).now.addr.toNat = 0x800 + 8 * 47) ∧ ((3 : Nat) < 4 ∧ (s 0x6018).now.addr.toNat = 0x6000 + 8 * 3) ∧
    (s 0x10).now.addr.toNat = 0x10 ∧ (s 0x8).now.addr.toNat ≠ 0x10 := by decide +kernel

/-- The context window's ends; INVSEL free, busy, and with a stale generation; kills with a good value, a reserved bit and a stale generation. -/
theorem witness_contextWrites :
    let s (x v : Word) := written x v 0 (current base)
    let busy := { s 0x618 0 with hub := { (s 0x618 0).hub with invsel := 0x800000000000 } }
    let stale := { s 0x618 0 with hub := { (s 0x618 0).hub with invctx := 1 } }
    Memory.wf (s 0 0).mem = true ∧ (s 0xFFF8 0).now.addr.toNat < 0x10000 ∧ (s 0x100F8 0).now.addr.toNat = 0x10000 + 8 * 31 ∧ 0x10100 ≤ (s 0x10100 0).now.addr.toNat ∧
    (s 0x618 0).hub.invsel.getLsbD 47 = false ∧ ctxCurrent (s 0x618 0) (BitVec.ofNat 16 ((s 0x618 0).hub.invctx.toNat / 2 ^ 8)) (BitVec.ofNat 8 (s 0x618 0).hub.invctx.toNat) = true ∧
    busy.hub.invsel.getLsbD 47 = true ∧ ctxCurrent stale 0 1 = false ∧ (s 0x610 0).now.addr ≠ 0x618 ∧ (ctxTowers (s 0x618 0) 0).getLsbD 0 = true ∧
    (ctxTowers (s 0x618 0) 0).getLsbD 3 = false ∧
    (let v := (s 0x200 0).now.value.toNat
     v / 2 ^ 24 % 2 ^ 39 = 0 ∧ (s 0x200 0).hub.ckill.getLsbD 63 = false ∧ ctxGen (s 0x200 0) 0 = 0) ∧
    (s 0x200 0x4000000000000000).now.value.toNat / 2 ^ 24 % 2 ^ 39 ≠ 0 ∧ (s 0x200 0x1000000).now.value.toNat / 2 ^ 24 % 2 ^ 39 ≠ 0 ∧ ctxGen (s 0x200 1) 0 ≠ 1 ∧
    (0 : BitVec 8) ≠ 255 ∧ (∀ c r, ((s 0x200 0).core c).run = some r → r.ctx ≠ 0) ∧ copyNodes (s 0x200 0) = [] ∧
    (∀ t, let w := (s 0x200 0).tower t
      w.ready = [] ∧ w.susp = [] ∧ w.staging = [] ∧ w.displaced = [] ∧ w.syncs = [] ∧ w.curd = none ∧ ∀ a ∈ w.armed, a.ctx ≠ 0) := by decide +kernel

/-- Key words at both ends, DBGC of the last core, RSLEN and the routine store: its first entry word, its last 8 bytes, an entry that stands, and below LEN. -/
theorem witness_unitWrites :
    let s (x v : Word) := written x v 0 base
    let loaded := let x := (s 0x10FFF8 0).setTower 0 { (s 0 0).tower 0 with rslen := 0x10000, store := [(1, 0x04)] }
      x
    let free (s : State) (a n : Nat) : Prop := (s.tower 0).rslen.toNat ≤ a ∨ a < 1024 ∧ ((storeWord s 0 a).toNat = 0 ∨ (storeWord s 0 a).toNat = n)
    swf 0 base.sealed = true ∧ (s 0x2400 0).now.addr.toNat = 0x2400 + 64 * (0 : Fin 32).val + 8 * 0 ∧ (s 0x2BF8 0).now.addr.toNat = 0x2400 + 64 * (31 : Fin 32).val + 8 * 7 ∧
    (s 0x23F8 0).now.addr.toNat < 0x2400 ∧ 0x2C00 ≤ (s 0x2C00 0).now.addr.toNat ∧ sget 0 base.sealed 5 ≠ 0 + 1 ∧
    (s 0x33F8 2).now.addr.toNat = 0x3000 + 8 * (127 : CoreId).val ∧ (s 0x33F8 2).now.value.getLsbD 1 = true ∧ (s 0x3000 1).now.value.getLsbD 1 = false ∧
    0x3400 ≤ (s 0x3400 0).now.addr.toNat ∧ (s 0x2FF8 0).now.addr.toNat < 0x3000 ∧ (s 0x5018 0).now.addr.toNat = 0x5000 + 8 * (3 : TowerId).val ∧ 0x5020 ≤ (s 0x5020 0).now.addr.toNat ∧
    (s 0x10FFF8 0).now.addr.toNat = 0x100000 + 65536 * (0 : TowerId).val + 65528 ∧ 0x140000 ≤ (s 0x140000 0).now.addr.toNat ∧ swf 0 (loaded.tower 0).store = true ∧
    (storeWord loaded 0 0).toNat = 0x400 ∧ free loaded 0 0x400 ∧ ¬ free loaded 0 0x404 ∧ free loaded 4 7 ∧ ¬ free loaded 1024 0 ∧ ¬ free loaded 65528 0 ∧ free base 65528 0 := by
  decide +kernel

theorem witness_reportsAndErrors :
    (written 0x6020 1 0 base).now.value.getLsbD 0 = true ∧ (written 0x6020 2 0 base).now.value.getLsbD 0 = false ∧ (written 0x6020 1 0 base).now.addr = 0x6020 ∧
    (written 0x498 1 0 base).now.addr.toNat = 0x400 + 8 * 19 ∧ 0x4A0 ≤ (written 0x4A0 1 0 base).now.addr.toNat ∧ (written 0x3F8 1 0 base).now.addr.toNat < 0x400 := by
  decide +kernel

/-! ### The step -/

/-- A SYNC bundle with an a.addi in slot 1 and an x.vtos in slot 5, of which slot 5 has issued: core 0 goes first. -/
def midBundle : State :=
  let i : Instr := .aAddi { d := 4, a := 4, imm := 1, g := 0 }
  let j : Instr := .xVtos { d := 6, a := 5, b := 0, g := 0 }
  let cur : Current := { openBundle with bundle := { emptyBundle with sync := true, slots := [none, some i, none, none, none, some j, none, none] }, left := [1] }
  let x := runs false base
  { x.setMe { x.me with current := some cur } with engines := false, actor := .core 5 }

/-- Time passes with a step where no core goes first, and not where one does. -/
theorem witness_timePasses :
    firstCore exec midBundle = some 0 ∧ firstCore exec base = none ∧ nextStamp base = none ∧ base.hub.omitNext = false := by decide +kernel

/-- An agenda that waits; a core in the middle of a SYNC bundle; an engine that has become possible: an exchange of m.swap; nothing at all. -/
theorem witness_dueEvents :
    let s : State := { base with agenda := [(.sramScrub, Occasion.none)] }
    let e : State := { onMat base (fun m => { m with swaps := 1 }) with engines := true }
    let f : State := advance exec midBundle
    let idle : State := { base with engines := false }
    s.agenda = (.sramScrub, Occasion.none) :: [] ∧ e.agenda = [] ∧ e.engines = true ∧ firstCore exec (advance exec e) = none ∧ (dueEvent (advance exec e)).isSome = true ∧
    midBundle.agenda = [] ∧ firstCore exec f = some 0 ∧ (coreNext exec f 0).isSome = true ∧
    idle.agenda = [] ∧ firstCore exec (advance exec idle) = none ∧ idle.engines = false ∧ (∀ c, (actorNext exec (advance exec idle) (.core c)).isNone = true) ∧
    ∀ t, (actorNext exec (advance exec idle) (.curd t)).isNone = true ∧ (actorNext exec (advance exec idle) (.walker t)).isNone = true := by decide +kernel

/-- A bundle with an a.addi in slot 1 behind a wait in slot 0, and as its only entry; the SYNC bundle of which one entry has issued. -/
theorem witness_slotSteps :
    let w : BitVec 256 := BitVec.ofNat 256 (0x10208010 * 2 ^ 32 + 2 ^ 31)
    let v : BitVec 256 := BitVec.ofNat 256 (0x1430A000 * 2 ^ 160 + (0x10208010 + 2 ^ 31) * 2 ^ 32 + 2 ^ 31)
    let i : Instr := .aAddi { d := 4, a := 4, imm := 1, g := 0 }
    let cur : Current := { openBundle with bundle := { emptyBundle with slots := [none, some i] ++ List.replicate 6 none }, left := [1] }
    let behind : Current := { openBundle with bundle := { emptyBundle with slots := [some (.cWaitt { d := 0, a := 5, b := 0, g := 0 }), some i] ++ List.replicate 6 none }, left := [0, 1] }
    let s (c : Current) : State := let x := runs false base
      { x.setMe { x.me with current := some c } with engines := false, actor := .core 0 }
    (s cur).agenda = [] ∧ (s cur).me.run.isSome = true ∧ (s cur).me.stopped = false ∧ (s cur).me.stall = none ∧ (s cur).me.gate = [] ∧ cur.stampWait = false ∧
    cur.left = [] ++ 1 :: [] ∧ behind.left = [0] ++ 1 :: [] ∧ isWait (slotInstr behind 0) = true ∧ Sys2Proof.Machine.isHeld (s cur).me i = false ∧ isWait i = false ∧
    together cur.bundle = false ∧ together behind.bundle = false ∧ firstCore exec (advance exec (s cur)) = none ∧ firstCore exec (advance exec (s behind)) = none ∧
    firstCore exec (advance exec midBundle) = some 0 ∧ (∀ q, midBundle.me.current = some q → unissued q = false ∧ q.left = [] ++ 1 :: [] ∧ q.stampWait = false ∧
      (match decodeBundle v with | .ok b => decide (b = q.bundle) | .error _ => false) = true) ∧
    gives (decodeSlot 1 (slotPayload w 1)) (some i) = true ∧ gives (decodeSlot 1 (slotPayload v 1)) (some i) = true ∧
    (match decodeBundle w with | .ok b => decide (b = cur.bundle) | .error _ => false) = true := by decide +kernel

/-- A curd program that stands at a word, at the last clock before a refresh window; a walker's routine at a word; words placed for the next step. -/
theorem witness_unitSteps :
    let s : State := { (onCurd fun p => { p with clock := 4095 }) with engines := false, actor := .curd 0 }
    let w : State := let x := walking 0 0 (fun k => { k with running := true }) base
      { x.setTower 0 { x.tower 0 with store := [(0x400, 0x0B), (0x401, 0x87), (0x402, 0x06)] } with engines := false, actor := .walker 0 }
    (s.tower 0).curd = some { someProgram with clock := 4095 } ∧ someProgram.words ≠ [] ∧ 4095 < someProgram.refresh + 4096 ∧
    gives (decodeCurd (someProgram.words.getD 1 0)) (.qNop 7) = true ∧ s.agenda = [] ∧ firstCore exec (advance exec s) = none ∧ firstCore exec (advance exec w) = none ∧
    (∀ c, undivided base c = false) ∧
    (w.tower 0).walker.running = true ∧ decodeWalker (storeWord w 0 (w.tower 0).walker.pc.toNat) = some (.wkLdp 0 13 14) ∧ swf (0 : Byte) (w.tower 0).store = true ∧
    gives (decodeCurd (BitVec.ofNat 32 0x0C000000)) (.qEnd 0) = true ∧ (decodeCurd (BitVec.ofNat 32 0x0006870B)).toBool = false ∧
    decodeWalker (BitVec.ofNat 32 0x0006870B) = some (.wkLdp 0 13 14) := by decide +kernel

/-- Words and instructions of the encoding statements: well formed with a word of a slot and a word of its own; a decoded word of each. -/
theorem witness_encodings :
    (Instr.aAddi { d := 4, a := 4, imm := 1, g := 0 }).wellFormed = true ∧ (encodeSlot (.aAddi { d := 4, a := 4, imm := 1, g := 0 })).isSome = true ∧
    (Instr.qAddi 0 4 0 17).wellFormed = true ∧ (encodeWord (.qAddi 0 4 0 17)).isSome = true ∧ gives (decodeSlot 1 0x10208010) (some (.aAddi { d := 4, a := 4, imm := 1, g := 0 })) = true ∧
    gives (decodeCurd 0x02800011) (.qAddi 0 4 0 17) = true ∧ decodeWalker 0x0005850B = some (.wkLdp 0 11 10) := by decide +kernel

/-- The canonical memory is kept by a step that answers a next state; a step's instruction with a destination answers one. -/
theorem witness_stepAndFrame :
    Memory.wf base.mem = true ∧ (match step base with | .next _ => true | _ => false) = true ∧
    (Claims.destination base (.aAddi { d := 4, a := 4, imm := 1, g := 0 })).isSome = true ∧
    (match exec (.aAddi { d := 4, a := 4, imm := 1, g := 0 }) base with | .next _ => true | _ => false) = true := by
  refine ⟨by decide +kernel, ?_, by decide +kernel, by decide +kernel⟩
  · rfl

/-! ### Single steps, with results worked out by hand from the rules -/

/-- What register ref holds once everything has landed after instruction i. -/
def resultOf (i : Instr) (ref : RegRef) (s : State) : Nat :=
  match exec i s with
  | .next t => ((landEverything t.me.regs).seen 0 ref).toNat
  | _ => 0

/-- A scalar instruction on s5 = x and s6 = y, writing s7. -/
def scalarOf (i : Instr) (x y : Word) : Nat := resultOf i (.s 7) (withS 5 x (withS 6 y base))

/-- s7, s5 and s6, guarded by p0. -/
def threeRegs : OpT := { d := 7, a := 5, b := 6, g := 0 }

/-- R244: wrapping, shift amounts modulo 64, signed and unsigned orders, and the shifted sum. -/
theorem test_scalar_registers :
    scalarOf (.aAdd threeRegs) 0xFFFFFFFFFFFFFFFF 2 = 1 ∧ scalarOf (.aSub threeRegs) 1 2 = 0xFFFFFFFFFFFFFFFF ∧ scalarOf (.aAndn threeRegs) 0xFF 0x0F = 0xF0 ∧
    scalarOf (.aOrn threeRegs) 0 0xFFFFFFFFFFFFFFF0 = 0xF ∧ scalarOf (.aXnor threeRegs) 0xFFFFFFFFFFFFFFFF 0xF0 = 0xF0 ∧ scalarOf (.aShl threeRegs) 1 65 = 2 ∧
    scalarOf (.aShr threeRegs) 0x8000000000000000 63 = 1 ∧ scalarOf (.aSra threeRegs) 0x8000000000000000 62 = 0xFFFFFFFFFFFFFFFE ∧
    scalarOf (.aRor threeRegs) 0x12 4 = 0x2000000000000001 ∧ scalarOf (.aMin threeRegs) 0xFFFFFFFFFFFFFFFF 1 = 0xFFFFFFFFFFFFFFFF ∧
    scalarOf (.aMax threeRegs) 0xFFFFFFFFFFFFFFFF 1 = 1 ∧ scalarOf (.aMinu threeRegs) 0xFFFFFFFFFFFFFFFF 1 = 1 ∧ scalarOf (.aMaxu threeRegs) 0xFFFFFFFFFFFFFFFF 1 = 0xFFFFFFFFFFFFFFFF ∧
    scalarOf (.aAdds threeRegs 3) 5 7 = 61 := by decide +kernel

/-- R245: the halves of a product, and the division corners. -/
theorem test_multiply_and_divide :
    scalarOf (.aMul threeRegs) 0xFFFFFFFFFFFFFFFF 3 = 0xFFFFFFFFFFFFFFFD ∧ scalarOf (.aMulh threeRegs) 0xFFFFFFFFFFFFFFFF 3 = 0xFFFFFFFFFFFFFFFF ∧
    scalarOf (.aMulhu threeRegs) 0xFFFFFFFFFFFFFFFF 3 = 2 ∧ scalarOf (.aDiv threeRegs) 0xFFFFFFFFFFFFFFF9 2 = 0xFFFFFFFFFFFFFFFD ∧
    scalarOf (.aRem threeRegs) 0xFFFFFFFFFFFFFFF9 2 = 0xFFFFFFFFFFFFFFFF ∧ scalarOf (.aDiv threeRegs) 7 0 = 0xFFFFFFFFFFFFFFFF ∧ scalarOf (.aDivu threeRegs) 7 0 = 0xFFFFFFFFFFFFFFFF ∧
    scalarOf (.aRem threeRegs) 7 0 = 7 ∧ scalarOf (.aRemu threeRegs) 7 0 = 7 ∧ scalarOf (.aDiv threeRegs) 0x8000000000000000 0xFFFFFFFFFFFFFFFF = 0x8000000000000000 ∧
    scalarOf (.aRem threeRegs) 0x8000000000000000 0xFFFFFFFFFFFFFFFF = 0 ∧ scalarOf (.aDivu threeRegs) 0xFFFFFFFFFFFFFFF9 2 = 0x7FFFFFFFFFFFFFFC ∧
    scalarOf (.aRemu threeRegs) 0xFFFFFFFFFFFFFFF9 2 = 1 := by decide +kernel

/-- R246, R247: counts, immediates, and s0, which discards what is written to it (R192). -/
theorem test_counts_and_immediates :
    scalarOf (.aClz threeRegs) 0 0 = 64 ∧ scalarOf (.aClz threeRegs) 1 0 = 63 ∧ scalarOf (.aCtz threeRegs) 0x100 0 = 8 ∧ scalarOf (.aCtz threeRegs) 0 0 = 64 ∧
    scalarOf (.aPopc threeRegs) 0xF0F 0 = 8 ∧ scalarOf (.aAddi { d := 7, a := 5, imm := 0x1FF, g := 0 }) 0 0 = 0xFFFFFFFFFFFFFFFF ∧
    resultOf (.aMovi { d := 0, imm := 3 }) (.s 0) base = 0 ∧ resultOf (.aMovi { d := 9, imm := 0x7FFFF }) (.s 9) base = 0xFFFFFFFFFFFFFFFF := by decide +kernel

/-- Registers v5 and v6 with element 0 as given. -/
def vecsOf (x y : Nat) : State := onRegs base fun r => { r with v := (r.v.setIfInBounds 5 (BitVec.ofNat 4096 x)).setIfInBounds 6 (BitVec.ofNat 4096 y) }

/-- Element 0 of w bits of v7 after a vector instruction. -/
def vectorOf (i : Instr) (w x y : Nat) : Nat := resultOf i (.v 7) (vecsOf x y) % 2 ^ w

/-- R267, R271 to R274: one rounding to nearest even, integers that wrap and saturate, in each element width. -/
theorem test_vectors :
    vectorOf (.vFadd threeRegs 0) 32 0x3F800000 0x33800000 = 0x3F800000 ∧ vectorOf (.vFadd threeRegs 0) 32 0x3F800001 0x33800000 = 0x3F800002 ∧
    vectorOf (.vFmul threeRegs 1) 16 0x4040 0x4040 = 0x4110 ∧ vectorOf (.vFsub threeRegs 2) 16 0x3C00 0x3C00 = 0 ∧
    vectorOf (.vAdd threeRegs 0) 32 0xFFFFFFFF 2 = 1 ∧ vectorOf (.vAdds threeRegs 1) 16 0x7FFF 1 = 0x7FFF ∧ vectorOf (.vSubs threeRegs 2) 8 0x80 1 = 0x80 ∧
    vectorOf (.vSub threeRegs 2) 8 0 1 = 0xFF ∧ vectorOf (.vXor threeRegs 0) 32 0xF0F0 0xFFFF = 0x0F0F := by decide +kernel

/-- R273: a compare writes every mask bit of an element: element 0 of 128 takes four, of 512 one. -/
theorem test_compares :
    resultOf (.vFclt { d := 3, a := 5, b := 6, g := 0 } 0) (.k 3) (vecsOf 0xBF800000 0) % 16 = 15 ∧
    resultOf (.vFceq { d := 3, a := 5, b := 6, g := 0 } 0) (.k 3) (vecsOf 0x80000000 0) % 16 = 15 ∧
    resultOf (.vFceq { d := 3, a := 5, b := 6, g := 0 } 0) (.k 3) (vecsOf 0x7FC00000 0x7FC00000) % 16 = 0 ∧
    resultOf (.vClt { d := 3, a := 5, b := 6, g := 0 } 2) (.k 3) (vecsOf 0xFF 0) % 2 = 1 := by decide +kernel

/-- Element 0 of a lane register of unit 0 after a curd instruction, once it is seen. -/
def laneOf (i : Instr) (d : BitVec 3) : Nat :=
  match exec i (onCurd id) with
  | .next t => match (t.tower 0).curd with
    | some p => match p.units with
      | u :: _ => lane32 ((u.land (p.clock + 64)).rw d) 0
      | [] => 0
    | none => 0
  | _ => 0

/-- R345: fields, saturation and insertion in lane 0, where w1 is all ones, w2 is 0 and w4 is 0x80000000. -/
theorem test_curd_lanes :
    laneOf (.qExt 0 5 1 0x0E4) 5 = 0xFF ∧ laneOf (.qExts 0 5 1 0x0E4) 5 = 0xFFFFFFFF ∧ laneOf (.qAdd 0 5 1 4) 5 = 0x7FFFFFFF ∧ laneOf (.qAdds 0 5 4 1) 5 = 0x80000000 ∧
    laneOf (.qSub 0 5 2 1) 5 = 1 ∧ laneOf (.qIns 0 5 1 2 0x004) 5 = 0xFFFFFFF0 := by decide +kernel

end Sys2Proof.Tests
end

section
/-! The memory keeps its canonical form through a step: time keeps it, the schedule's choice of a row does not touch
memory, and `exec_memWf` says that every row keeps it. -/

namespace Sys2Proof.Machine

/-- Choosing the next row keeps the form of memory. -/
theorem nextRow_memWf {s t : State} {i : Instr} (ex : Instr → State → Out) (h : MemWf s)
    (e : nextRow ex s = some (i, t)) : MemWf t :=
  .same (nextRow_keeps ex s i t e) h

/-- A step that answers a next state keeps the form of memory: either the row of the schedule is performed, or time alone
passes. -/
theorem step_memWf {s t : State} (h : MemWf s) (e : step s = .next t) : MemWf t := by
  have hadv : MemWf (advance exec s) := advance_memWf exec s h
  unfold step at e
  split at e
  next i s1 hrow => exact exec_memWf i s1 (nextRow_memWf exec hadv hrow) e
  next => exact next_memWf (idle_memWf _ hadv) e

/-- Settles O59: `step_memWf`, from every state. -/
theorem everyStepKeepsTheMemoryCanonical : Obligations.EveryStepKeepsTheMemoryCanonical :=
  fun _ _ => step_memWf

end Sys2Proof.Machine
end
